-- ==== Sys2Proof/Word.lean ====
section
/-!
DEFINITION. The words of Partar 3: bytes, 16-, 32- and 64-bit little-endian words (R6), and the plainest
operations on them. A register, a descriptor word and a completion word are `W32`; a buffer is a list of bytes.
-/
namespace Sys2Proof

abbrev Byte := BitVec 8
abbrev W16 := BitVec 16
abbrev W32 := BitVec 32
abbrev W64 := BitVec 64
/-- A buffer, byte 0 first (R6: little-endian). -/
abbrev Bytes := List Byte

/-- A table keyed by a number, listed with rising keys; a key that is not listed reads as the table's default. -/
abbrev SMap (α : Type) := List (Nat × α)

end Sys2Proof
end

