-- ==== Sys2Proof/LkSyntax.lean ====
section
/-!
DEFINITION. The Lockkeeper instructions and their operands (R195 to R197).
-/
namespace Sys2Proof.Machine

/-- The operand modes of classes 0x1, 0x2 and 0x4–0xB (R196). `h` is bit H: a 16-bit operand. -/
inductive LkOperand where
  | short (b : BitVec 8) (signed : Bool)
  | long (w : BitVec 16) (high : Bool)
  | page (b : BitVec 8) (h : Bool)
  | ctrl (b : BitVec 8) (h : Bool)
  | abs (w : BitVec 16) (h : Bool)
  | absX (w : BitVec 16) (h : Bool)
  | absY (w : BitVec 16) (h : Bool)
  | ptrY (b : BitVec 8) (h : Bool)
  deriving DecidableEq, Repr

/-- The operand modes of class 0x3 (R196). -/
inductive LkOperand16 where
  | long (w : BitVec 16)
  | page (b : BitVec 8)
  | ctrl (b : BitVec 8)
  | abs (w : BitVec 16)
  deriving DecidableEq, Repr

/-- The count of a shift: the immediate, or X[4:0] (R197). -/
inductive LkCount where
  | imm (n : BitVec 5)
  | fromX
  deriving DecidableEq, Repr

/-- The instructions of R197. -/
inductive LkInstr where
  | ldA (op : LkOperand)
  | stA (op : LkOperand)
  | addA (op : LkOperand)
  | adcA (op : LkOperand)
  | subA (op : LkOperand)
  | sbcA (op : LkOperand)
  | andA (op : LkOperand)
  | orA (op : LkOperand)
  | xorA (op : LkOperand)
  | cmpA (op : LkOperand)
  | ldX (op : LkOperand16)
  | ldY (op : LkOperand16)
  | stX (op : LkOperand16)
  | stY (op : LkOperand16)
  | nop | endCtx | yield | rts | rte | clrC | setC | clrV
  | movXA | movAX | movYA | movAY | movYX | movXY
  | incX | decX | incY | decY
  | cmpX (i : BitVec 8)
  | cmpY (i : BitVec 8)
  | addX (i : BitVec 8)
  | addY (i : BitVec 8)
  | trap (n : BitVec 8)
  | shl (c : LkCount)
  | shr (c : LkCount)
  | asr (c : LkCount)
  | rol (c : LkCount)
  | ror (c : LkCount)
  | beq (o : BitVec 8)
  | bne (o : BitVec 8)
  | bcs (o : BitVec 8)
  | bcc (o : BitVec 8)
  | bmi (o : BitVec 8)
  | bpl (o : BitVec 8)
  | bvs (o : BitVec 8)
  | bvc (o : BitVec 8)
  | bra (o : BitVec 8)
  | jmp (a : BitVec 16)
  | jsr (a : BitVec 16)
  | jmpX (a : BitVec 16)
  | jsrX (a : BitVec 16)
  | issue (s : Fin 4)
  | waite (s : Fin 4)
  | polle (s : Fin 4)
  deriving DecidableEq, Repr

end Sys2Proof.Machine
end

