-- ==== Sys2Proof/PortSyntax.lean ====
section
/-!
DEFINITION. The requester of a register port access (R28): reg_ptn, reg_priv and reg_dbg.
-/
namespace Sys2Proof

structure Access where
  ptn : Fin 64
  priv : Bool
  dbg : Bool
  deriving DecidableEq, Repr

/-- What the keep domain's detectors find in one sample on the cell: the detections of the sources other than the enclosure lines, by
source and detector, and the level, true for high, and the pulse excursion in µV of each enclosure line (R47, R482, R502). -/
structure KeepSample where
  found : List (Fin 12 × Fin 2) := []
  lines : List (Bool × Nat) := [(false, 10000), (false, 10000), (false, 10000), (false, 10000)]
  deriving DecidableEq, Repr

/-- An edge of keep_on_cell; the cell may have run flat, or been removed, while it was high (R52, R501). -/
structure CellEdge where
  level : Bool
  flat : Bool := false
  deriving DecidableEq, Repr

end Sys2Proof
end

