-- ==== Sys2Proof/Syntax.lean ====
section
/-!
DEFINITION. The commands that the block takes: one constructor for each row of the table of commands and events.
-/
namespace Sys2Proof

open Machine (LkOperand LkOperand16 LkCount)

/-- A command. -/
inductive Instr where
  | registerWrite (acc : Access) (addr : Nat) (d : W32)
  | latchLoRead (acc : Access) (addr : Nat)
  | rngDataRead (acc : Access) (n : Fin 8)
  | rngDataRefill
  | coldResetRelease
  | warmResetRelease
  | mfsWord (w : W64)
  | mfsTimeout
  | manifestVerifyDone
  | mgtReload (acc : Access) (d : W32)
  | mgtSvCommit (acc : Access) (d : W32)
  | mgtStageGo (acc : Access) (d : W32)
  | mgtStageDiscard (acc : Access) (d : W32)
  | stageVerifyDone
  | mgtApply (acc : Access) (d : W32)
  | lkLoad (lk : Fin 8)
  | rngWaitLimitExpiry (rid : Nat)
  | curveCheckDone (n : Fin 16)
  | sqDb (acc : Access) (p : Fin 64) (n : Fin 16) (d : W32)
  | cqDb (acc : Access) (p : Fin 64) (n : Fin 16) (d : W32)
  | lockkeeperGrant (lk : Fin 8)
  | descriptorArrival (lk : Fin 8)
  | openTowTimeout (p : Fin 64) (n : Fin 16)
  | towAdmit (lk : Fin 8) (c : Fin 8)
  | towMemberIssue (rid : Nat)
  | basinGrant
  | engineStart (rid : Nat) (inst : Nat)
  | outputCellRelease (rid : Nat)
  | requestResultPosted (rid : Nat)
  | completionEntryWrite (p : Fin 64) (n : Fin 16)
  | inplaceStatusWrite (rid : Nat)
  | coalesceTimer (p : Fin 64) (n : Fin 16)
  | sqEnable (acc : Access) (p : Fin 64) (n : Fin 16) (d : W32)
  | sqStop (acc : Access) (p : Fin 64) (n : Fin 16) (d : W32)
  | ringStopFlushFetch (p : Fin 64) (n : Fin 16)
  | cqEnable (acc : Access) (p : Fin 64) (n : Fin 16) (d : W32)
  | cqDisable (acc : Access) (p : Fin 64) (n : Fin 16) (d : W32)
  | cqResume (acc : Access) (p : Fin 64) (n : Fin 16) (d : W32)
  | dmaReadReturn (tag : Fin 256) (data : Bytes) (err poison : Bool)
  | dmaWriteCompletion (tag : Fin 128) (err : Bool)
  | dmaTimeout (write : Bool) (tag : Fin 256)
  | irqMessageAccept (p : Fin 64)
  | frameBoundary
  | qosCommit (acc : Access) (d : W32)
  | qosDiscard (acc : Access) (d : W32)
  | qosViolClear (acc : Access) (d : W32)
  | cipherSuspend (rid : Nat)
  | cipherResume (rid : Nat)
  | intervalEndPause (rid : Nat)
  | pausedSignResume (rid : Nat)
  | declaredTimeEnd (rid : Nat)
  | ldA (lk : Fin 8) (op : LkOperand)
  | stA (lk : Fin 8) (op : LkOperand)
  | addA (lk : Fin 8) (op : LkOperand)
  | adcA (lk : Fin 8) (op : LkOperand)
  | subA (lk : Fin 8) (op : LkOperand)
  | sbcA (lk : Fin 8) (op : LkOperand)
  | andA (lk : Fin 8) (op : LkOperand)
  | orA (lk : Fin 8) (op : LkOperand)
  | xorA (lk : Fin 8) (op : LkOperand)
  | cmpA (lk : Fin 8) (op : LkOperand)
  | ldX (lk : Fin 8) (op : LkOperand16)
  | ldY (lk : Fin 8) (op : LkOperand16)
  | stX (lk : Fin 8) (op : LkOperand16)
  | stY (lk : Fin 8) (op : LkOperand16)
  | lkNop (lk : Fin 8)
  | lkEnd (lk : Fin 8)
  | yield (lk : Fin 8)
  | rts (lk : Fin 8)
  | rte (lk : Fin 8)
  | clrC (lk : Fin 8)
  | setC (lk : Fin 8)
  | clrV (lk : Fin 8)
  | movXA (lk : Fin 8)
  | movAX (lk : Fin 8)
  | movYA (lk : Fin 8)
  | movAY (lk : Fin 8)
  | movYX (lk : Fin 8)
  | movXY (lk : Fin 8)
  | incX (lk : Fin 8)
  | decX (lk : Fin 8)
  | incY (lk : Fin 8)
  | decY (lk : Fin 8)
  | cmpX (lk : Fin 8) (b : Byte)
  | cmpY (lk : Fin 8) (b : Byte)
  | addX (lk : Fin 8) (b : Byte)
  | addY (lk : Fin 8) (b : Byte)
  | trap (lk : Fin 8) (n : Byte)
  | reservedWord (lk : Fin 8)
  | shl (lk : Fin 8) (c : LkCount)
  | shr (lk : Fin 8) (c : LkCount)
  | asr (lk : Fin 8) (c : LkCount)
  | rol (lk : Fin 8) (c : LkCount)
  | ror (lk : Fin 8) (c : LkCount)
  | beq (lk : Fin 8) (o : Byte)
  | bne (lk : Fin 8) (o : Byte)
  | bcs (lk : Fin 8) (o : Byte)
  | bcc (lk : Fin 8) (o : Byte)
  | bmi (lk : Fin 8) (o : Byte)
  | bpl (lk : Fin 8) (o : Byte)
  | bvs (lk : Fin 8) (o : Byte)
  | bvc (lk : Fin 8) (o : Byte)
  | bra (lk : Fin 8) (o : Byte)
  | jmp (lk : Fin 8) (t : W16)
  | jsr (lk : Fin 8) (t : W16)
  | jmpX (lk : Fin 8) (t : W16)
  | jsrX (lk : Fin 8) (t : W16)
  | issue (lk : Fin 8) (k : Fin 4)
  | waite (lk : Fin 8) (k : Fin 4)
  | polle (lk : Fin 8) (k : Fin 4)
  | frmDone (lk : Fin 8) (f : Fin 32) (w : W16)
  | frmAdmit (lk : Fin 8) (f : Fin 32) (w : W16)
  | lkcGo (lk : Fin 8)
  | lkcHeartbeat (lk : Fin 8)
  | heartbeatExpiry (lk : Fin 8)
  | lkScrub (lk : Fin 8)
  | lkDrain (acc : Access) (lk : Fin 8) (d : W32)
  | lkDrainLimitExpiry (lk : Fin 8)
  | lkRestart (acc : Access) (lk : Fin 8) (d : W32)
  | lkClone (acc : Access) (lk : Fin 8) (d : W32)
  | lkCloneDone (lk : Fin 8)
  | bsnFlush (acc : Access) (q : Fin 2048) (d : W32)
  | poolAuditDone
  | nop (rid : Nat)
  | fence (rid : Nat)
  | copy (rid : Nat)
  | getRandom (rid : Nat)
  | encrypt (rid : Nat)
  | decrypt (rid : Nat)
  | aeadSeal (rid : Nat)
  | aeadOpen (rid : Nat)
  | macGenerate (rid : Nat)
  | macVerify (rid : Nat)
  | berthSetup (rid : Nat)
  | berthSealOut (rid : Nat)
  | berthSealIn (rid : Nat)
  | berthRelease (rid : Nat)
  | berthInvalidatePtn (acc : Access) (d : W32)
  | berthReleaseInvalid (acc : Access) (d : W32)
  | hash (rid : Nat)
  | xof (rid : Nat)
  | hmacGenerate (rid : Nat)
  | hmacVerify (rid : Nat)
  | kmacGenerate (rid : Nat)
  | kmacVerify (rid : Nat)
  | hkdf (rid : Nat)
  | hkdfExtract (rid : Nat)
  | hkdfExpand (rid : Nat)
  | kdf108 (rid : Nat)
  | kdf56cOnestep (rid : Nat)
  | kdf56cTwostep (rid : Nat)
  | slhdsaKeygen (rid : Nat)
  | slhdsaSign (rid : Nat)
  | slhdsaVerify (rid : Nat)
  | hssKeygen (rid : Nat)
  | hssSign (rid : Nat)
  | hssVerify (rid : Nat)
  | xmssKeygen (rid : Nat)
  | xmssSign (rid : Nat)
  | xmssVerify (rid : Nat)
  | logScanDone (region : List W64) (words : Nat)
  | mfsAppendAck
  | mfsAppendErr
  | mfsAppendTimeout
  | mlkemKeygen (rid : Nat)
  | mlkemEncaps (rid : Nat)
  | mlkemDecaps (rid : Nat)
  | mldsaKeygen (rid : Nat)
  | mldsaSign (rid : Nat)
  | mldsaVerify (rid : Nat)
  | mldsaSignMu (rid : Nat)
  | mldsaVerifyMu (rid : Nat)
  | recipeEnd (ply : Fin 16)
  | setq (ply : Fin 16)
  | ntt (ply : Fin 16)
  | intt (ply : Fin 16)
  | pmul (ply : Fin 16)
  | pmac (ply : Fin 16)
  | padd (ply : Fin 16)
  | psub (ply : Fin 16)
  | kinit (ply : Fin 16)
  | kabs (ply : Fin 16)
  | suni (ply : Fin 16)
  | scbd (ply : Fin 16)
  | seta (ply : Fin 16)
  | smsk (ply : Fin 16)
  | sball (ply : Fin 16)
  | cmpr (ply : Fin 16)
  | pack (ply : Fin 16)
  | unpk (ply : Fin 16)
  | round (ply : Fin 16)
  | hint (ply : Fin 16)
  | norm (ply : Fin 16)
  | iter (ply : Fin 16)
  | ceq (ply : Fin 16)
  | csel (ply : Fin 16)
  | share (ply : Fin 16)
  | move (ply : Fin 16)
  | recipeCopy (ply : Fin 16)
  | recipeScrub (ply : Fin 16)
  | hqcKeygen (rid : Nat)
  | hqcEncaps (rid : Nat)
  | hqcDecaps (rid : Nat)
  | mceImport (rid : Nat)
  | mceEncaps (rid : Nat)
  | mceDecaps (rid : Nat)
  | ckcLoad (rid : Nat)
  | ckcEvict (rid : Nat)
  | modmul (rid : Nat)
  | modexp (rid : Nat)
  | modinv (rid : Nat)
  | rsaPublic (rid : Nat)
  | rsaPrivateCrt (rid : Nat)
  | rsaPssSign (rid : Nat)
  | rsaPssVerify (rid : Nat)
  | rsaOaepEncrypt (rid : Nat)
  | rsaOaepDecrypt (rid : Nat)
  | rsaKeygen (rid : Nat)
  | primeTest (rid : Nat)
  | ecdsaSign (rid : Nat)
  | ecdsaVerify (rid : Nat)
  | ecdh (rid : Nat)
  | ecKeygen (rid : Nat)
  | eddsaSign (rid : Nat)
  | eddsaVerify (rid : Nat)
  | xdh (rid : Nat)
  | slotWordsWrite (acc : Access) (n : Fin 8) (d : W32)
  | slotWordsApply (n : Fin 8)
  | crvLoad (acc : Access) (d : W32)
  | crvClear (acc : Access) (d : W32)
  | keyGenerate (rid : Nat)
  | keyImportWrapped (rid : Nat)
  | keyExportWrapped (rid : Nat)
  | keyDestroy (rid : Nat)
  | slotDestroyComplete (slot : Fin 8192)
  | keyDerive (rid : Nat)
  | keyAttrRead (rid : Nat)
  | ptnInfo (rid : Nat)
  | keyList (rid : Nat)
  | qosRead (rid : Nat)
  | keyCommit (acc : Access) (p : Fin 64) (d : W32)
  | keyCommitDone (p : Fin 64)
  | keySlotClear (acc : Access) (d : W32)
  | keySlotReassign (acc : Access) (d : W32)
  | keyPtnInvalidate (acc : Access) (d : W32)
  | restoreHalf (acc : Access) (d : W32)
  | keyPtnGenWrite (acc : Access) (p : Fin 64) (d : W32)
  | keepSecretDraw
  | transition (acc : Access) (d : W32)
  | repair (acc : Access) (d : W32)
  | debugUnlock (acc : Access) (d : W32)
  | rootCreate (acc : Access) (d : W32)
  | progDigest (acc : Access) (d : W32)
  | attest (acc : Access) (d : W32)
  | otpAck (rdata : W32) (err : Bool)
  | partitionTableWrite (acc : Access) (addr : Nat) (d : W32)
  | ptnReset (acc : Access) (p : Fin 64) (d : W32)
  | mgtPtnReset (acc : Access) (d : W32)
  | functionResetFlush (p : Fin 64)
  | blockResetRequest (acc : Access) (d : W32)
  | domainPowerCycleRequest (acc : Access) (d : W32)
  | tamperDetection (src : Fin 12) (det : Fin 2)
  | zeroizeClearDone
  | tamperWindowExpiry (src : Fin 12)
  | disagreeWindowExpiry (src : Fin 12)
  | fenceHoldExpiry (src : Fin 12)
  | actionBoundExpiry
  | levelDebounce (line : Fin 4) (high : Bool)
  | pulseCheck (l0 l1 l2 l3 : Nat)
  | keepSample (x : KeepSample)
  | keepOnCellEdge (e : CellEdge)
  | tmpFlagClear (acc : Access) (d : W32)
  | unlockChallengeNew (acc : Access) (d : W32)
  | unlockSubmit (acc : Access) (d : W32)
  | unlockVerifyDone
  | tmpProgDigest (acc : Access) (d : W32)
  | tmpSourceDisable (acc : Access) (d : W32)
  | keepLostSet (acc : Access) (d : W32)
  | promotionWindowExpiry (src : Fin 64)
  | pinHoldExpiry
  | fltPin (acc : Access) (d : W32)
  | fltAck (acc : Access) (d : W32)
  | t1Expiry
  | t2Expiry
  | endPhaseDeadline
  | fltInject (acc : Access) (d : W32)
  | collectorSelf
  | rngSample (src : Fin 3) (bit : Bool)
  | drbgReseed (k : Nat)
  | rngReady
  | rngRecal (acc : Access) (src : Fin 3) (d : W32)
  | rngRecalDone (src : Fin 3) (good : Bool)
  | rngReset (acc : Access) (d : W32)
  | pmAck (dom : Fin 96)
  | pmHandshakeTimeout (dom : Fin 96)
  | clockAck (eng : Bool)
  | pmCapChange (v : Nat)
  | engClkAnnounce (v : Nat)
  | dbgEnRise
  | dbgEnFall
  | retAfterExpiry (dom : Fin 96)
  | offAfterExpiry (dom : Fin 96)
  | clkIdleExpiry (eng : Bool)
  | ballastHoldExpiry (cls : Nat) (inst : Nat)
  | unitDrain (acc : Access) (d : W32)
  | unitDrainLimitExpiry
  | unitReturn (acc : Access) (d : W32)
  | unitRemap (acc : Access) (d : W32)
  | broadcastWrite (acc : Access) (addr : Nat) (d : W32)
  | groupAliasWrite (acc : Access) (addr : Nat) (d : W32)
  | lifCalSet (acc : Access) (d : W32)
  | lifetimeCommit
  | coldResetAssert
  | warmResetAssert
  | refusedOrUnmappedRead (acc : Access) (addr : Nat)
  | tamperCauseEnd (src : Fin 12)
  | powerCapBoundExpiry
  | compactionScanDone (log : List W64)
  deriving DecidableEq, Repr

end Sys2Proof
end

