-- ==== Sys2Proof/WellFormed.lean ====
section
/-!
DEFINITION. Which commands the outside can give: an address is a word address of the 24-bit aperture (R27), and a number
that stands for an instance, a level or a window lies in the range that the spec gives it.
-/
namespace Sys2Proof

/-- A word address of the register port (R27). -/
def portAddrWf (addr : Nat) : Bool := decide (addr % 4 = 0) && decide (addr < 2 ^ 24)

/-- The command can be given. -/
def Instr.wf (i : Instr) : Bool :=
  match i with
  | .registerWrite _ addr _ => portAddrWf addr
  | .latchLoRead _ addr => portAddrWf addr
  | .engineStart _ inst => decide (inst < 48)
  | .dmaReadReturn _ data _ _ => decide (data.length = 64)
  | .partitionTableWrite _ addr _ => portAddrWf addr && decide (0x1000 ≤ addr) && decide (addr < 0x1400)
  | .keepSample x => decide x.found.Nodup && x.found.all (fun e => decide (e.1.val < 5 ∨ 9 ≤ e.1.val)) && decide (x.lines.length = 4)
  | .keepOnCellEdge e => !(e.level && e.flat)
  | .drbgReseed k => decide (k < 6)
  | .pmCapChange v => decide (v < 256)
  | .engClkAnnounce v => decide (v < 2048)
  | .ballastHoldExpiry cls inst => decide (cls < 7) && decide (inst < 48)
  | .broadcastWrite _ addr _ => portAddrWf addr && decide (0x500000 ≤ addr) && decide (addr < 0x580000)
  | .groupAliasWrite _ addr _ => portAddrWf addr && decide (0x580000 ≤ addr) && decide (addr < 0x5F0000)
  | .refusedOrUnmappedRead _ addr => portAddrWf addr
  | .logScanDone region words => decide (region.length ≤ 65536) && decide (words ≤ region.length)
  | .compactionScanDone log => decide (log.length ≤ 65536)
  | .rngDataRead _ _ | .rngDataRefill | .coldResetRelease | .warmResetRelease | .mfsWord _ | .mfsTimeout |
    .manifestVerifyDone | .mgtReload _ _ | .mgtSvCommit _ _ | .mgtStageGo _ _ | .mgtStageDiscard _ _ |
    .stageVerifyDone | .mgtApply _ _ | .lkLoad _ | .rngWaitLimitExpiry _ | .curveCheckDone _ | .sqDb _ _ _ _ |
    .cqDb _ _ _ _ | .lockkeeperGrant _ | .descriptorArrival _ | .openTowTimeout _ _ | .towAdmit _ _ |
    .towMemberIssue _ | .basinGrant | .outputCellRelease _ | .requestResultPosted _ | .completionEntryWrite _ _ |
    .inplaceStatusWrite _ | .coalesceTimer _ _ | .sqEnable _ _ _ _ | .sqStop _ _ _ _ | .ringStopFlushFetch _ _ |
    .cqEnable _ _ _ _ | .cqDisable _ _ _ _ | .cqResume _ _ _ _ | .dmaWriteCompletion _ _ | .dmaTimeout _ _ |
    .irqMessageAccept _ | .frameBoundary | .qosCommit _ _ | .qosDiscard _ _ | .qosViolClear _ _ | .cipherSuspend _ |
    .cipherResume _ | .intervalEndPause _ | .pausedSignResume _ | .declaredTimeEnd _ | .ldA _ _ | .stA _ _ | .addA _ _ |
    .adcA _ _ | .subA _ _ | .sbcA _ _ | .andA _ _ | .orA _ _ | .xorA _ _ | .cmpA _ _ | .ldX _ _ | .ldY _ _ | .stX _ _ |
    .stY _ _ | .lkNop _ | .lkEnd _ | .yield _ | .rts _ | .rte _ | .clrC _ | .setC _ | .clrV _ | .movXA _ | .movAX _ |
    .movYA _ | .movAY _ | .movYX _ | .movXY _ | .incX _ | .decX _ | .incY _ | .decY _ | .cmpX _ _ | .cmpY _ _ |
    .addX _ _ | .addY _ _ | .trap _ _ | .reservedWord _ | .shl _ _ | .shr _ _ | .asr _ _ | .rol _ _ | .ror _ _ |
    .beq _ _ | .bne _ _ | .bcs _ _ | .bcc _ _ | .bmi _ _ | .bpl _ _ | .bvs _ _ | .bvc _ _ | .bra _ _ | .jmp _ _ |
    .jsr _ _ | .jmpX _ _ | .jsrX _ _ | .issue _ _ | .waite _ _ | .polle _ _ | .frmDone _ _ _ | .frmAdmit _ _ _ |
    .lkcGo _ | .lkcHeartbeat _ | .heartbeatExpiry _ | .lkScrub _ | .lkDrain _ _ _ | .lkDrainLimitExpiry _ |
    .lkRestart _ _ _ | .lkClone _ _ _ | .lkCloneDone _ | .bsnFlush _ _ _ | .poolAuditDone | .nop _ | .fence _ |
    .copy _ | .getRandom _ | .encrypt _ | .decrypt _ | .aeadSeal _ | .aeadOpen _ | .macGenerate _ | .macVerify _ |
    .berthSetup _ | .berthSealOut _ | .berthSealIn _ | .berthRelease _ | .berthInvalidatePtn _ _ |
    .berthReleaseInvalid _ _ | .hash _ | .xof _ | .hmacGenerate _ | .hmacVerify _ | .kmacGenerate _ | .kmacVerify _ |
    .hkdf _ | .hkdfExtract _ | .hkdfExpand _ | .kdf108 _ | .kdf56cOnestep _ | .kdf56cTwostep _ | .slhdsaKeygen _ |
    .slhdsaSign _ | .slhdsaVerify _ | .hssKeygen _ | .hssSign _ | .hssVerify _ | .xmssKeygen _ | .xmssSign _ |
    .xmssVerify _ | .mfsAppendAck | .mfsAppendErr | .mfsAppendTimeout | .mlkemKeygen _ |
    .mlkemEncaps _ | .mlkemDecaps _ | .mldsaKeygen _ | .mldsaSign _ | .mldsaVerify _ | .mldsaSignMu _ |
    .mldsaVerifyMu _ | .recipeEnd _ | .setq _ | .ntt _ | .intt _ | .pmul _ | .pmac _ | .padd _ | .psub _ | .kinit _ |
    .kabs _ | .suni _ | .scbd _ | .seta _ | .smsk _ | .sball _ | .cmpr _ | .pack _ | .unpk _ | .round _ | .hint _ |
    .norm _ | .iter _ | .ceq _ | .csel _ | .share _ | .move _ | .recipeCopy _ | .recipeScrub _ | .hqcKeygen _ |
    .hqcEncaps _ | .hqcDecaps _ | .mceImport _ | .mceEncaps _ | .mceDecaps _ | .ckcLoad _ | .ckcEvict _ | .modmul _ |
    .modexp _ | .modinv _ | .rsaPublic _ | .rsaPrivateCrt _ | .rsaPssSign _ | .rsaPssVerify _ | .rsaOaepEncrypt _ |
    .rsaOaepDecrypt _ | .rsaKeygen _ | .primeTest _ | .ecdsaSign _ | .ecdsaVerify _ | .ecdh _ | .ecKeygen _ |
    .eddsaSign _ | .eddsaVerify _ | .xdh _ | .slotWordsWrite _ _ _ | .slotWordsApply _ | .crvLoad _ _ | .crvClear _ _ |
    .keyGenerate _ | .keyImportWrapped _ | .keyExportWrapped _ | .keyDestroy _ | .slotDestroyComplete _ | .keyDerive _ |
    .keyAttrRead _ | .ptnInfo _ | .keyList _ | .qosRead _ | .keyCommit _ _ _ | .keyCommitDone _ | .keySlotClear _ _ |
    .keySlotReassign _ _ | .keyPtnInvalidate _ _ | .restoreHalf _ _ | .keyPtnGenWrite _ _ _ | .keepSecretDraw |
    .transition _ _ | .repair _ _ | .debugUnlock _ _ | .rootCreate _ _ | .progDigest _ _ | .attest _ _ | .otpAck _ _ |
    .ptnReset _ _ _ | .mgtPtnReset _ _ | .functionResetFlush _ | .blockResetRequest _ _ | .domainPowerCycleRequest _ _ |
    .tamperDetection _ _ | .zeroizeClearDone | .tamperWindowExpiry _ | .disagreeWindowExpiry _ | .fenceHoldExpiry _ |
    .actionBoundExpiry | .levelDebounce _ _ | .pulseCheck _ _ _ _ | .tmpFlagClear _ _ |
    .unlockChallengeNew _ _ | .unlockSubmit _ _ | .unlockVerifyDone | .tmpProgDigest _ _ | .tmpSourceDisable _ _ |
    .keepLostSet _ _ | .promotionWindowExpiry _ | .pinHoldExpiry | .fltPin _ _ | .fltAck _ _ | .t1Expiry | .t2Expiry |
    .endPhaseDeadline | .fltInject _ _ | .collectorSelf | .rngSample _ _ | .rngReady | .rngRecal _ _ _ |
    .rngRecalDone _ _ | .rngReset _ _ | .pmAck _ | .pmHandshakeTimeout _ | .clockAck _ | .dbgEnRise | .dbgEnFall |
    .retAfterExpiry _ | .offAfterExpiry _ | .clkIdleExpiry _ | .unitDrain _ _ | .unitDrainLimitExpiry |
    .unitReturn _ _ | .unitRemap _ _ | .lifCalSet _ _ | .lifetimeCommit | .coldResetAssert | .warmResetAssert |
    .tamperCauseEnd _ | .powerCapBoundExpiry => true

end Sys2Proof
end

