-- ==== Sys2Proof/Decode.lean ====
section
/-!
DEFINITION. The decoder of the command table. The table gives no row any bits, so no word spells a command; commands come
from outside as the block's queue holds them. The instruction words of the Lockkeepers are decoded in Machine/LkDecode.lean.
-/
namespace Sys2Proof

/-- The command that a word spells by the table's bits: none, since no row of the table gives bits. -/
def decodeTableWord (_nbits _w : Nat) : Option Instr := none

end Sys2Proof
end

