-- ==== Sys2Proof/Config.lean ====
section
/-!
DEFINITION. What an implementation fixes and the spec leaves open: free values without a body, so that nothing can
be proved of what they are; and the functions of the standards that the spec cites without giving their arithmetic.
-/
namespace Sys2Proof

/-- A value the spec leaves open, the n-th that the machine draws. -/
opaque Config.pick : Nat → Nat

/-- A random byte: byte i of the n-th draw from a noise source or a DRBG instance. -/
opaque Config.rand : Nat → Nat → Byte

/-- Time that has passed, in seconds, since the calendar was last set, at the n-th reading. -/
opaque Config.elapsed : Nat → Nat

/-- The functions of the cited standards. -/
inductive Std where
  /-- AES-256-GCM of a blob: key, IV, AAD, text; the text transformed, and the tag over the ciphertext. -/
  | gcmText | gcmPlain | gcmTag
  /-- Class 0x1_: what a segment of a message gives, from opcode word, key, chaining state, IV block, AAD and data. -/
  | symOut | symTag | symCb | symAcc | symAuxk | symSub
  /-- Class 0x2_ and 0x3_. -/
  | hash | xof | hmac | kmac | cmac
  /-- Class 0x5_. -/
  | slhPublic | slhSign | slhVerify | hbsRoot | hbsBlobBody | hbsSign | hbsVerify | hbsWindow
  /-- Class 0x4_. -/
  | kemPublic | kemCipher | kemShared | kemDecaps | kemRange | dsaPublic | dsaSign | dsaVerify | dsaIters
  | recipe | nttFwd | nttInv | pointwise | sample | compress | hint | keccak
  /-- Class 0x6_. -/
  | hqcPublic | hqcCipher | hqcShared | hqcDecaps | mceCipher | mceShared | mceDecaps | mcePublic | mceKeyOk | fixw
  /-- Class 0x7_ and 0x8_. -/
  | rsaPrime | primeTest | ecNonce
  /-- Manifest and record signatures. -/
  | mldsaRecord | lmsRecord
  /-- The RNG. -/
  | drbg | condition | healthOk
  deriving DecidableEq, Repr

/-- What a function of a standard answers, as bytes; callers fit it to the length the spec gives. -/
opaque Config.std : Std → List Bytes → Bytes

/-- What a test of a standard answers. -/
opaque Config.holds : Std → List Bytes → Bool

/-- A length that a standard fixes and the spec does not state. -/
opaque Config.size : Std → List Bytes → Nat

/-- The fixed time in units of 100 ns of an operation for which the chapters state no exact figure, from its opcode, ALG, flags, lengths
and PARAM. -/
opaque Config.opTime : Bytes → Nat

end Sys2Proof
end

