-- ==== Sys2Proof/Machine/Bits.lean ====
section
/-!
DEFINITION. Bit fields, little-endian byte order and buffer slicing (R6, R7), and the tables keyed by number that
hold the machine's arrays in one canonical form.
-/
namespace Sys2Proof.Machine

/-- The field [hi:lo] of a 32-bit word, as a number (R7: both ends are included). -/
def fld (w : W32) (hi lo : Nat) : Nat := (w.toNat / 2 ^ lo) % 2 ^ (hi + 1 - lo)

/-- Bit i of a word. -/
def bitOf (w : W32) (i : Nat) : Bool := w.getLsbD i

/-- The word `w` with its field [hi:lo] replaced by `v` modulo the field's size. -/
def setFld (w : W32) (hi lo v : Nat) : W32 :=
  let m := (2 ^ (hi + 1 - lo) - 1) * 2 ^ lo
  (w &&& ~~~(BitVec.ofNat 32 m)) ||| BitVec.ofNat 32 ((v % 2 ^ (hi + 1 - lo)) * 2 ^ lo)

/-- The word `w` with bit i set to `b`. -/
def setBit (w : W32) (i : Nat) (b : Bool) : W32 :=
  if b then w ||| BitVec.ofNat 32 (2 ^ i) else w &&& ~~~(BitVec.ofNat 32 (2 ^ i))

/-- A Boolean as a bit. -/
def b2n (b : Bool) : Nat := if b then 1 else 0

/-- The number a little-endian buffer holds (R6). -/
def leNat : Bytes → Nat
  | [] => 0
  | b :: bs => b.toNat + 256 * leNat bs

/-- The low `n` bytes of a number, little-endian (R6). -/
def toLe : Nat → Nat → Bytes
  | 0, _ => []
  | n + 1, v => BitVec.ofNat 8 v :: toLe n (v / 256)

/-- The number a big-endian buffer holds, and its `n` bytes. -/
def beNat (b : Bytes) : Nat := leNat b.reverse
def toBe (n v : Nat) : Bytes := (toLe n v).reverse

/-- `len` bytes of a buffer from offset `off`; bytes beyond its end are not there. -/
def slice (b : Bytes) (off len : Nat) : Bytes := (b.drop off).take len

/-- A buffer cut or padded with zeros to exactly `n` bytes. -/
def fit (n : Nat) (b : Bytes) : Bytes := b.take n ++ List.replicate (n - b.length) 0

/-- `n` zero bytes. -/
def zeros (n : Nat) : Bytes := List.replicate n 0

/-- Little-endian fields of a buffer. -/
def le16 (b : Bytes) (off : Nat) : Nat := leNat (slice b off 2)
def le32 (b : Bytes) (off : Nat) : Nat := leNat (slice b off 4)
def le64 (b : Bytes) (off : Nat) : Nat := leNat (slice b off 8)
def byteAt (b : Bytes) (off : Nat) : Nat := leNat (slice b off 1)

/-- The buffer `b` with the bytes of `new` laid over it from offset `off`. -/
def overlay (b : Bytes) (off : Nat) (new : Bytes) : Bytes :=
  b.take off ++ new ++ b.drop (off + new.length)

/-- Every byte of the buffer is zero. -/
def allZero (b : Bytes) : Bool := b.all (· == 0)

/-- The exclusive or of two buffers, as long as the shorter. -/
def xorBytes : Bytes → Bytes → Bytes
  | a :: as, b :: bs => (a ^^^ b) :: xorBytes as bs
  | _, _ => []

/-- The least multiple of `m` that is at least `n`. -/
def ceilDiv (n m : Nat) : Nat := (n + (m - 1)) / m

/-- A number taken into a range: below `lo` it is `lo`, above `hi` it is `hi`. -/
def clampN (lo hi n : Nat) : Nat := if n < lo then lo else if hi < n then hi else n

/-- A number added to a counter that saturates at `top`. -/
def satAdd (top a b : Nat) : Nat := if top < a + b then top else a + b

/-- Gives the elements of a list their places, from place `i`. -/
def enumFrom {α : Type} (i : Nat) : List α → List (Nat × α)
  | [] => []
  | x :: xs => (i, x) :: enumFrom (i + 1) xs

/-- The numbers lo, lo + 1, …, lo + n − 1. -/
def numsFrom : Nat → Nat → List Nat
  | _, 0 => []
  | lo, n + 1 => lo :: numsFrom (lo + 1) n

/-- The element at place `i` changed by `f`. -/
def modAt {α : Type} (f : α → α) : Nat → List α → List α
  | _, [] => []
  | 0, x :: xs => f x :: xs
  | i + 1, x :: xs => x :: modAt f i xs

/-- The value listed for a key. -/
def lookupKey {α : Type} (k : Nat) : SMap α → Option α
  | [] => none
  | (i, v) :: m => if i = k then some v else lookupKey k m

/-- The value a table gives for a key, `dflt` when the key is not listed. -/
def getKey {α : Type} (dflt : α) (m : SMap α) (k : Nat) : α := (lookupKey k m).getD dflt

/-- The table with a key no longer listed. -/
def dropKey {α : Type} (k : Nat) : SMap α → SMap α
  | [] => []
  | (i, v) :: m => if i = k then dropKey k m else (i, v) :: dropKey k m

/-- The table with a key listed at its place. -/
def insertKey {α : Type} (k : Nat) (v : α) : SMap α → SMap α
  | [] => [(k, v)]
  | (i, w) :: m =>
    if k < i then (k, v) :: (i, w) :: m
    else if i = k then (k, v) :: m
    else (i, w) :: insertKey k v m

/-- The table with the value of a key set; the default is never listed, so equal tables are equal lists. -/
def setKey {α : Type} [DecidableEq α] (dflt : α) (m : SMap α) (k : Nat) (v : α) : SMap α :=
  if v = dflt then dropKey k m else insertKey k v m

/-- The keys are listed in strictly rising order, all from `lo` up. -/
def risingFrom {α : Type} : Nat → SMap α → Bool
  | _, [] => true
  | lo, (i, _) :: m => decide (lo ≤ i) && risingFrom (i + 1) m

/-- The canonical form: rising keys, and no entry equal to the default. -/
def tableWf {α : Type} [DecidableEq α] (dflt : α) (m : SMap α) : Bool :=
  risingFrom 0 m && m.all (fun e => !decide (e.2 = dflt))

end Sys2Proof.Machine
end

