-- ==== Sys2Proof/Machine/Regs.lean ====
section
/-!
DEFINITION. The register map (R541, R545, R546): every register the spec names, its address in the 16 MiB aperture,
the types of its fields as masks (R10), its reset value (R546, R547), the lock group of its RWL fields (R550) and
what it survives. Fields are those of the register's own chapter.
-/
namespace Sys2Proof.Machine

/-- The registers by name; an array of registers is one name with one or two indices. -/
inductive RegId where
  | mgtStatus
  | mgtCause
  | mgtBootTime
  | mgtImageSv
  | mgtImageDigest
  | mgtSvFloor
  | mgtSvCommit
  | mgtReload
  | mgtStageAddrLo
  | mgtStageAddrHi
  | mgtStageLen
  | mgtStage
  | mgtStageStatus
  | mgtApply
  | mgtApplyStatus
  | mgtAccLogA
  | mgtAccLogB
  | mgtLocks
  | mgtPtnA
  | mgtPtnB
  | mgtPtnC
  | mgtPtnCtrlErr
  | mgtPtnReset
  | mgtRcvStatus
  | mgtRcvCtrl
  | keyStatus
  | keySlotCtrl
  | keySlotAttrLo
  | keySlotAttrHi
  | keyPtnGen
  | lcStatus
  | lcCtrl
  | lcRootStatus
  | lcCopy
  | lcToken
  | lcAttestResp
  | tmpStatus
  | tmpCfg
  | tmpKeepCfg
  | tmpFlagClear
  | tmpUnlockCtrl
  | tmpUnlockAddrLo
  | tmpUnlockAddrHi
  | tmpUnlockLen
  | tmpUnlockChal
  | tmpOtpCtrl
  | tmpSrcCfg
  | tmpSrcParam
  | tmpSrcStatus
  | tmpSrcFirstLo
  | tmpSrcFirstHi
  | tmpSrcLastLo
  | tmpSrcLastHi
  | fltStatusLo
  | fltStatusHi
  | fltMaskLo
  | fltMaskHi
  | fltCfg
  | fltT1
  | fltT2
  | fltEsc
  | fltAck
  | fltPin
  | fltInject
  | fltRecPtr
  | fltSrcCfg
  | fltSrcCount
  | fltRecA
  | fltRecB
  | fltRecC
  | pwrStatus
  | pwrCfg
  | pwrGov
  | pwrIdle
  | pwrDomState
  | pwrUnitCtrl
  | pwrUnitStatus
  | pwrDrainLimit
  | pwrMap
  | lifStatus
  | lifCalLo
  | lifCalHi
  | lifCalSetLo
  | lifCalSetHi
  | lifCalCtrl
  | lifSel
  | lifValLo
  | lifValHi
  | lifValStat
  | rngStatus
  | rngCtrl
  | rngCfg
  | rngHalts
  | rngData
  | rngDataStatus
  | rngSrcStatus
  | rngSrcCtrl
  | rngSrcPeak
  | qosCtrl
  | qosStatus
  | qosPtnCfg
  | qosPtnLim
  | qosRingCfg
  | qosRsvA
  | qosRsvB
  | qosUsage
  | qosViolFloor
  | qosViolRsv
  | qosViolLat
  | qosViolCtrl
  | lkIsaVer
  | lkWdog
  | lkDrainLimit
  | lkCtrl
  | lkStatus
  | lkHalt
  | lkFwTag
  | lkDispatched
  | bsnStatus
  | bsnCfg
  | bsnErr
  | bsnQcfg
  | bsnQwm
  | bsnQstat
  | bsnQctrl
  | bsnWmStatus
  | brtStatus
  | brtCtrl
  | brtErr
  | hbsStatus
  | hbsCfg
  | hbsRecState
  | hbsRecNextLo
  | hbsRecNextHi
  | hbsRecHighLo
  | hbsRecHighHi
  | hbsRecId
  | plyCfg
  | ckcStatus
  | ckcCfg
  | ckcErr
  | ckcPtn
  | crvLoadAddrLo
  | crvLoadAddrHi
  | crvCtrl
  | crvStatus
  | ptnStatus
  | ptnCtrl
  | sqBaseLo
  | sqBaseHi
  | sqCfg
  | sqCtrl
  | sqHead
  | sqTail
  | sqStatus
  | cqBaseLo
  | cqBaseHi
  | cqCfg
  | cqCtrl
  | cqHead
  | cqTail
  | cqCoalesce
  | cqStatus
  | ringEvent
  | ringEventCfg
  | sqDb
  | cqDb
  | brtPtnStatus
  | rngPtnStatus
  | keyPtnStatus
  | keyStage
  | keyStageAttr
  | keyCommit
  | keyStageStatus
  | symCfg
  | symStatus
  | symBlocks
  | symSusp
  | symErr
  | hshStatus
  | hshCalls
  | hshErr
  | plyStatus
  | plyOps
  | plyIter
  | plyEvents
  | plyCache
  | plyRcpTag
  | plyErr
  | codStatus
  | codOps
  | codErr
  | bneCfg
  | bneStatus
  | bneSlots
  | bneOps
  | bneErr
  | engGroupSelLo
  | engGroupSelHi
  | rngRaw
  deriving DecidableEq, Repr

/-- What a register's value outlives (R546): nothing, a block reset, or every reset (fields of the keep domain). -/
inductive Survives where
  | nothing | blockReset | everything
  deriving DecidableEq, Repr

/-- Who may write a register of a partition window (R543). -/
inductive PartWrite where
  | doorbell | keyStage | privileged
  deriving DecidableEq, Repr

/-- One row of the register map. The register with indices i < n1, j < n2 lies at base + i * s1 + j * s2.
`wr` are its RW, RWL and WO bits, `w1c` its W1C bits, `wo` the bits that read as zero. -/
structure RegRow where
  base : Nat
  n1 : Nat := 1
  s1 : Nat := 0
  n2 : Nat := 1
  s2 : Nat := 0
  reset : Nat := 0
  wr : Nat := 0
  w1c : Nat := 0
  wo : Nat := 0
  lock : Option Nat := none
  survives : Survives := .nothing
  part : PartWrite := .privileged
  deriving DecidableEq, Repr

/-- The row of each register. -/
def RegId.row : RegId → RegRow
  | .mgtStatus => { base := 0x000000, reset := 0x1, w1c := 0x8000 }
  | .mgtCause => { base := 0x000004, reset := 0xFFFF0000 }
  | .mgtBootTime => { base := 0x000008 }
  | .mgtImageSv => { base := 0x00000C }
  | .mgtImageDigest => { base := 0x000010, n1 := 16, s1 := 0x4 }
  | .mgtSvFloor => { base := 0x000050 }
  | .mgtSvCommit => { base := 0x000054 }
  | .mgtReload => { base := 0x000058 }
  | .mgtStageAddrLo => { base := 0x000060, wr := 0xFFFFFFFF }
  | .mgtStageAddrHi => { base := 0x000064, wr := 0xFFFFFFFF }
  | .mgtStageLen => { base := 0x000068, wr := 0x3FFFF }
  | .mgtStage => { base := 0x00006C }
  | .mgtStageStatus => { base := 0x000070 }
  | .mgtApply => { base := 0x000074, wr := 0x8000003F, wo := 0x8000003F }
  | .mgtApplyStatus => { base := 0x000078 }
  | .mgtAccLogA => { base := 0x000080, w1c := 0x80000000 }
  | .mgtAccLogB => { base := 0x000084 }
  | .mgtLocks => { base := 0x000088 }
  | .mgtPtnA => { base := 0x001000, n1 := 64, s1 := 0x10, wr := 0xE003F7DF, lock := some 1 }
  | .mgtPtnB => { base := 0x001004, n1 := 64, s1 := 0x10, wr := 0xFFFF, lock := some 1 }
  | .mgtPtnC => { base := 0x001008, n1 := 64, s1 := 0x10, wr := 0x1FFF7FFF, lock := some 1 }
  | .mgtPtnCtrlErr => { base := 0x001400, w1c := 0xFF }
  | .mgtPtnReset => { base := 0x001404, wr := 0x4000003F }
  | .mgtRcvStatus => { base := 0x001408, survives := .everything }
  | .mgtRcvCtrl => { base := 0x00140C, wr := 0x3, w1c := 0x40000000 }
  | .keyStatus => { base := 0x010000, reset := 0x2000 }
  | .keySlotCtrl => { base := 0x010004, wr := 0x3FC03FFF, w1c := 0x40000000 }
  | .keySlotAttrLo => { base := 0x010008 }
  | .keySlotAttrHi => { base := 0x01000C }
  | .keyPtnGen => { base := 0x010100, n1 := 64, s1 := 0x4, wr := 0xFFFF, survives := .everything }
  | .lcStatus => { base := 0x020000, reset := 0x7 }
  | .lcCtrl => { base := 0x020004, wr := 0xF70F }
  | .lcRootStatus => { base := 0x020008 }
  | .lcCopy => { base := 0x020010, n1 := 3, s1 := 0x4 }
  | .lcToken => { base := 0x020020, n1 := 8, s1 := 0x4, wr := 0xFFFFFFFF, wo := 0xFFFFFFFF }
  | .lcAttestResp => { base := 0x020040, n1 := 8, s1 := 0x4 }
  | .tmpStatus => { base := 0x030000, w1c := 0x10000000, survives := .everything }
  | .tmpCfg => { base := 0x030004, reset := 0x32000A, wr := 0x9FFFFFFF, lock := some 2 }
  | .tmpKeepCfg => { base := 0x030008, reset := 0x8, wr := 0x7F, lock := some 2, survives := .everything }
  | .tmpFlagClear => { base := 0x03000C }
  | .tmpUnlockCtrl => { base := 0x030010, wr := 0x3, w1c := 0x20000000 }
  | .tmpUnlockAddrLo => { base := 0x030014, wr := 0xFFFFFFFF }
  | .tmpUnlockAddrHi => { base := 0x030018, wr := 0xFFFFFFFF }
  | .tmpUnlockLen => { base := 0x03001C, wr := 0x3FFF }
  | .tmpUnlockChal => { base := 0x030020, n1 := 8, s1 := 0x4 }
  | .tmpOtpCtrl => { base := 0x030040, wr := 0xFFFF }
  | .tmpSrcCfg => { base := 0x030100, n1 := 12, s1 := 0x20, wr := 0xFFFFFFFF, lock := some 3 }
  | .tmpSrcParam => { base := 0x030104, n1 := 12, s1 := 0x20, wr := 0xFFFF, lock := some 3 }
  | .tmpSrcStatus => { base := 0x030108, n1 := 12, s1 := 0x20, survives := .everything }
  | .tmpSrcFirstLo => { base := 0x03010C, n1 := 12, s1 := 0x20, survives := .everything }
  | .tmpSrcFirstHi => { base := 0x030110, n1 := 12, s1 := 0x20, survives := .everything }
  | .tmpSrcLastLo => { base := 0x030114, n1 := 12, s1 := 0x20, survives := .everything }
  | .tmpSrcLastHi => { base := 0x030118, n1 := 12, s1 := 0x20, survives := .everything }
  | .fltStatusLo => { base := 0x040000, w1c := 0xFFFFFFFF, survives := .blockReset }
  | .fltStatusHi => { base := 0x040004, w1c := 0xFFFFFFFF, survives := .blockReset }
  | .fltMaskLo => { base := 0x040008, wr := 0xFFFFFFFF, survives := .blockReset }
  | .fltMaskHi => { base := 0x04000C, wr := 0xFFFFFFFF, survives := .blockReset }
  | .fltCfg => { base := 0x040010, wr := 0x9F000000, lock := some 4, survives := .blockReset }
  | .fltT1 => { base := 0x040014, reset := 0x3E8, wr := 0x1FFFF, lock := some 4, survives := .blockReset }
  | .fltT2 => { base := 0x040018, reset := 0x14, wr := 0x3FF, lock := some 4, survives := .blockReset }
  | .fltEsc => { base := 0x04001C, w1c := 0x1C00000, survives := .blockReset }
  | .fltAck => { base := 0x040020, wr := 0x1, wo := 0x1 }
  | .fltPin => { base := 0x040024, wr := 0x1, wo := 0x1 }
  | .fltInject => { base := 0x040028, wr := 0x3F7FFFFF, survives := .blockReset }
  | .fltRecPtr => { base := 0x04002C, survives := .blockReset }
  | .fltSrcCfg => { base := 0x040100, n1 := 64, s1 := 0x8, wr := 0xFDFFFFFF, lock := some 5, survives := .blockReset }
  | .fltSrcCount => { base := 0x040104, n1 := 64, s1 := 0x8, survives := .blockReset }
  | .fltRecA => { base := 0x040400, n1 := 16, s1 := 0x10, survives := .blockReset }
  | .fltRecB => { base := 0x040404, n1 := 16, s1 := 0x10, survives := .blockReset }
  | .fltRecC => { base := 0x040408, n1 := 16, s1 := 0x10, survives := .blockReset }
  | .pwrStatus => { base := 0x050000, reset := 0x3C0000 }
  | .pwrCfg => { base := 0x050004, reset := 0xA00C8, wr := 0xFFFF03FF, lock := some 6 }
  | .pwrGov => { base := 0x050008, reset := 0xA, wr := 0xFF, lock := some 6 }
  | .pwrIdle => { base := 0x050010, n1 := 6, s1 := 0x4, wr := 0xFFFFFFFF, lock := some 6 }
  | .pwrDomState => { base := 0x050040, n1 := 6, s1 := 0x4 }
  | .pwrUnitCtrl => { base := 0x050200, wr := 0x3F003F3F, w1c := 0x40000000 }
  | .pwrUnitStatus => { base := 0x050204 }
  | .pwrDrainLimit => { base := 0x050208, reset := 0xEA60, wr := 0x1FFFF }
  | .pwrMap => { base := 0x050400, n1 := 10, s1 := 0x100, n2 := 48, s2 := 0x4, survives := .blockReset }
  | .lifStatus => { base := 0x070000, w1c := 0x80000000, survives := .everything }
  | .lifCalLo => { base := 0x070004, survives := .everything }
  | .lifCalHi => { base := 0x070008, survives := .everything }
  | .lifCalSetLo => { base := 0x07000C, wr := 0xFFFFFFFF, lock := some 7 }
  | .lifCalSetHi => { base := 0x070010, wr := 0x0000FFFF, lock := some 7 }
  | .lifCalCtrl => { base := 0x070014, wr := 0x1, lock := some 7 }
  | .lifSel => { base := 0x070020, wr := 0x3FF }
  | .lifValLo => { base := 0x070024 }
  | .lifValHi => { base := 0x070028 }
  | .lifValStat => { base := 0x07002C }
  | .rngStatus => { base := 0x060000 }
  | .rngCtrl => { base := 0x060004, w1c := 0x2 }
  | .rngCfg => { base := 0x060008, reset := 0x100064, wr := 0xFFFFFF }
  | .rngHalts => { base := 0x06000C }
  | .rngData => { base := 0x060040, n1 := 8, s1 := 0x4 }
  | .rngDataStatus => { base := 0x060060, w1c := 0x2 }
  | .rngSrcStatus => { base := 0x060100, n1 := 3, s1 := 0x10 }
  | .rngSrcCtrl => { base := 0x060104, n1 := 3, s1 := 0x10 }
  | .rngSrcPeak => { base := 0x060108, n1 := 3, s1 := 0x10 }
  | .qosCtrl => { base := 0x080000 }
  | .qosStatus => { base := 0x080004, w1c := 0x5 }
  | .qosPtnCfg => { base := 0x080100, n1 := 64, s1 := 0x8, reset := 0x10004010, wr := 0xFF00FFFF }
  | .qosPtnLim => { base := 0x080104, n1 := 64, s1 := 0x8, reset := 0x100000, wr := 0x87FF01FF }
  | .qosRingCfg => { base := 0x081000, n1 := 64, s1 := 0x40, n2 := 16, s2 := 0x4, reset := 0x810, wr := 0xFFFF }
  | .qosRsvA => { base := 0x082000, n1 := 256, s1 := 0x8, wr := 0xFF0F003F }
  | .qosRsvB => { base := 0x082004, n1 := 256, s1 := 0x8, wr := 0x3FF03FF }
  | .qosUsage => { base := 0x083000, n1 := 64, s1 := 0x4 }
  | .qosViolFloor => { base := 0x084000, n1 := 64, s1 := 0x10 }
  | .qosViolRsv => { base := 0x084004, n1 := 64, s1 := 0x10 }
  | .qosViolLat => { base := 0x084008, n1 := 64, s1 := 0x10 }
  | .qosViolCtrl => { base := 0x084400, wr := 0x4000003F }
  | .lkIsaVer => { base := 0x090000, reset := 0x100 }
  | .lkWdog => { base := 0x090004, reset := 0x64, wr := 0xFFFF, lock := some 0 }
  | .lkDrainLimit => { base := 0x090008, reset := 0xA, wr := 0x3FF }
  | .lkCtrl => { base := 0x090100, n1 := 8, s1 := 0x20, wr := 0x70 }
  | .lkStatus => { base := 0x090104, n1 := 8, s1 := 0x20, w1c := 0x40 }
  | .lkHalt => { base := 0x090108, n1 := 8, s1 := 0x20 }
  | .lkFwTag => { base := 0x09010C, n1 := 8, s1 := 0x20 }
  | .lkDispatched => { base := 0x090110, n1 := 8, s1 := 0x20 }
  | .bsnStatus => { base := 0x0A0000, reset := 0x80000000 }
  | .bsnCfg => { base := 0x0A0004, wr := 0x9F003FFF }
  | .bsnErr => { base := 0x0A0008 }
  | .bsnQcfg => { base := 0x0A1000, n1 := 2048, s1 := 0x8, wr := 0x87FF07FF }
  | .bsnQwm => { base := 0x0A1004, n1 := 2048, s1 := 0x8, wr := 0x7FF }
  | .bsnQstat => { base := 0x0A5000, n1 := 2048, s1 := 0x8 }
  | .bsnQctrl => { base := 0x0A5004, n1 := 2048, s1 := 0x8 }
  | .bsnWmStatus => { base := 0x0A9000, n1 := 64, s1 := 0x4, w1c := 0xFFFFFFFF }
  | .brtStatus => { base := 0x0B0000, reset := 0x4000, w1c := 0x80000000 }
  | .brtCtrl => { base := 0x0B0004, wr := 0x3F000003 }
  | .brtErr => { base := 0x0B0008 }
  | .hbsStatus => { base := 0x0C0000, w1c := 0x8000 }
  | .hbsCfg => { base := 0x0C0004, reset := 0x400, wr := 0x1FFFFF }
  | .hbsRecState => { base := 0x0C0100, n1 := 64, s1 := 0x40 }
  | .hbsRecNextLo => { base := 0x0C0104, n1 := 64, s1 := 0x40 }
  | .hbsRecNextHi => { base := 0x0C0108, n1 := 64, s1 := 0x40 }
  | .hbsRecHighLo => { base := 0x0C010C, n1 := 64, s1 := 0x40 }
  | .hbsRecHighHi => { base := 0x0C0110, n1 := 64, s1 := 0x40 }
  | .hbsRecId => { base := 0x0C0120, n1 := 64, s1 := 0x40, n2 := 4, s2 := 0x4 }
  | .plyCfg => { base := 0x0D0000, reset := 0x110, wr := 0x3FF }
  | .ckcStatus => { base := 0x0E0000, reset := 0x2000000 }
  | .ckcCfg => { base := 0x0E0004, wr := 0x1FF }
  | .ckcErr => { base := 0x0E0008 }
  | .ckcPtn => { base := 0x0E0100, n1 := 64, s1 := 0x4, reset := 0x2000000, wr := 0x3FF0000 }
  | .crvLoadAddrLo => { base := 0x0F0000, wr := 0xFFFFFFFF }
  | .crvLoadAddrHi => { base := 0x0F0004, wr := 0xFFFFFFFF }
  | .crvCtrl => { base := 0x0F0008, wr := 0xF, w1c := 0x20000000 }
  | .crvStatus => { base := 0x0F0100, n1 := 16, s1 := 0x4 }
  | .ptnStatus => { base := 0x100000, n1 := 64, s1 := 0x10000, w1c := 0x6000 }
  | .ptnCtrl => { base := 0x100004, n1 := 64, s1 := 0x10000, wr := 0x2, wo := 0x2 }
  | .sqBaseLo => { base := 0x101000, n1 := 64, s1 := 0x10000, n2 := 16, s2 := 0x20, wr := 0xFFFFFFFF }
  | .sqBaseHi => { base := 0x101004, n1 := 64, s1 := 0x10000, n2 := 16, s2 := 0x20, wr := 0xFFFFFFFF }
  | .sqCfg => { base := 0x101008, n1 := 64, s1 := 0x10000, n2 := 16, s2 := 0x20, reset := 0x4, wr := 0xF1001F }
  | .sqCtrl => { base := 0x10100C, n1 := 64, s1 := 0x10000, n2 := 16, s2 := 0x20 }
  | .sqHead => { base := 0x101010, n1 := 64, s1 := 0x10000, n2 := 16, s2 := 0x20 }
  | .sqTail => { base := 0x101014, n1 := 64, s1 := 0x10000, n2 := 16, s2 := 0x20 }
  | .sqStatus => { base := 0x101018, n1 := 64, s1 := 0x10000, n2 := 16, s2 := 0x20, w1c := 0x30 }
  | .cqBaseLo => { base := 0x101400, n1 := 64, s1 := 0x10000, n2 := 16, s2 := 0x20, wr := 0xFFFFFFFF }
  | .cqBaseHi => { base := 0x101404, n1 := 64, s1 := 0x10000, n2 := 16, s2 := 0x20, wr := 0xFFFFFFFF }
  | .cqCfg => { base := 0x101408, n1 := 64, s1 := 0x10000, n2 := 16, s2 := 0x20, reset := 0x4, wr := 0x3F1F }
  | .cqCtrl => { base := 0x10140C, n1 := 64, s1 := 0x10000, n2 := 16, s2 := 0x20 }
  | .cqHead => { base := 0x101410, n1 := 64, s1 := 0x10000, n2 := 16, s2 := 0x20 }
  | .cqTail => { base := 0x101414, n1 := 64, s1 := 0x10000, n2 := 16, s2 := 0x20 }
  | .cqCoalesce => { base := 0x101418, n1 := 64, s1 := 0x10000, n2 := 16, s2 := 0x20, reset := 0x1, wr := 0xFFFFFF }
  | .cqStatus => { base := 0x10141C, n1 := 64, s1 := 0x10000, n2 := 16, s2 := 0x20, w1c := 0x30 }
  | .ringEvent => { base := 0x101800, n1 := 64, s1 := 0x10000, w1c := 0xFFFFFFFF }
  | .ringEventCfg => { base := 0x101804, n1 := 64, s1 := 0x10000, wr := 0x11F }
  | .sqDb => { base := 0x102000, n1 := 64, s1 := 0x10000, n2 := 16, s2 := 0x4, wr := 0x1FFFF, wo := 0x1FFFF, part := .doorbell }
  | .cqDb => { base := 0x102040, n1 := 64, s1 := 0x10000, n2 := 16, s2 := 0x4, wr := 0x1FFFF, wo := 0x1FFFF, part := .doorbell }
  | .brtPtnStatus => { base := 0x103000, n1 := 64, s1 := 0x10000 }
  | .rngPtnStatus => { base := 0x103100, n1 := 64, s1 := 0x10000 }
  | .keyPtnStatus => { base := 0x103200, n1 := 64, s1 := 0x10000 }
  | .keyStage => { base := 0x103400, n1 := 64, s1 := 0x10000, n2 := 16, s2 := 0x4, wr := 0xFFFFFFFF, wo := 0xFFFFFFFF, part := .keyStage }
  | .keyStageAttr => { base := 0x103440, n1 := 64, s1 := 0x10000, wr := 0xFFFFFFFF, part := .keyStage }
  | .keyCommit => { base := 0x103444, n1 := 64, s1 := 0x10000, wr := 0xC0001FFF, wo := 0xC0001FFF, part := .keyStage }
  | .keyStageStatus => { base := 0x103448, n1 := 64, s1 := 0x10000 }
  | .symCfg => { base := 0x600000, n1 := 48, s1 := 0x1000, reset := 0x4, wr := 0x7 }
  | .symStatus => { base := 0x600004, n1 := 48, s1 := 0x1000 }
  | .symBlocks => { base := 0x600008, n1 := 48, s1 := 0x1000 }
  | .symSusp => { base := 0x60000C, n1 := 48, s1 := 0x1000 }
  | .symErr => { base := 0x600010, n1 := 48, s1 := 0x1000, w1c := 0x3 }
  | .hshStatus => { base := 0x630000, n1 := 32, s1 := 0x1000 }
  | .hshCalls => { base := 0x630004, n1 := 32, s1 := 0x1000 }
  | .hshErr => { base := 0x630008, n1 := 32, s1 := 0x1000, w1c := 0x7 }
  | .plyStatus => { base := 0x650000, n1 := 16, s1 := 0x1000 }
  | .plyOps => { base := 0x650004, n1 := 16, s1 := 0x1000 }
  | .plyIter => { base := 0x650008, n1 := 16, s1 := 0x1000 }
  | .plyEvents => { base := 0x65000C, n1 := 16, s1 := 0x1000 }
  | .plyCache => { base := 0x650010, n1 := 16, s1 := 0x1000, reset := 0xC }
  | .plyRcpTag => { base := 0x650014, n1 := 16, s1 := 0x1000 }
  | .plyErr => { base := 0x650018, n1 := 16, s1 := 0x1000, w1c := 0xF }
  | .codStatus => { base := 0x660000, n1 := 4, s1 := 0x1000 }
  | .codOps => { base := 0x660004, n1 := 4, s1 := 0x1000 }
  | .codErr => { base := 0x660008, n1 := 4, s1 := 0x1000, w1c := 0x7 }
  | .bneCfg => { base := 0x670000, n1 := 8, s1 := 0x1000, reset := 0x82, wr := 0xFF }
  | .bneStatus => { base := 0x670004, n1 := 8, s1 := 0x1000 }
  | .bneSlots => { base := 0x670008, n1 := 8, s1 := 0x1000, reset := 0x3F003F }
  | .bneOps => { base := 0x67000C, n1 := 8, s1 := 0x1000 }
  | .bneErr => { base := 0x670010, n1 := 8, s1 := 0x1000, w1c := 0xF }
  | .engGroupSelLo => { base := 0x5F0000, n1 := 7, s1 := 0x8, wr := 0xFFFFFFFF }
  | .engGroupSelHi => { base := 0x5F0004, n1 := 7, s1 := 0x8, wr := 0xFFFFFFFF }
  | .rngRaw => { base := 0x760000, n1 := 3, s1 := 0x4 }

/-- Part 0 of the register names, in the order of the map. -/
def RegId.part0 : List RegId :=
  [.mgtStatus, .mgtCause, .mgtBootTime, .mgtImageSv, .mgtImageDigest, .mgtSvFloor, .mgtSvCommit, .mgtReload, .mgtStageAddrLo, .mgtStageAddrHi]

/-- Part 1 of the register names, in the order of the map. -/
def RegId.part1 : List RegId :=
  [.mgtStageLen, .mgtStage, .mgtStageStatus, .mgtApply, .mgtApplyStatus, .mgtAccLogA, .mgtAccLogB, .mgtLocks, .mgtPtnA, .mgtPtnB]

/-- Part 2 of the register names, in the order of the map. -/
def RegId.part2 : List RegId :=
  [.mgtPtnC, .mgtPtnCtrlErr, .mgtPtnReset, .mgtRcvStatus, .mgtRcvCtrl, .keyStatus, .keySlotCtrl, .keySlotAttrLo, .keySlotAttrHi, .keyPtnGen]

/-- Part 3 of the register names, in the order of the map. -/
def RegId.part3 : List RegId :=
  [.lcStatus, .lcCtrl, .lcRootStatus, .lcCopy, .lcToken, .lcAttestResp, .tmpStatus, .tmpCfg, .tmpKeepCfg, .tmpFlagClear]

/-- Part 4 of the register names, in the order of the map. -/
def RegId.part4 : List RegId :=
  [.tmpUnlockCtrl, .tmpUnlockAddrLo, .tmpUnlockAddrHi, .tmpUnlockLen, .tmpUnlockChal, .tmpOtpCtrl, .tmpSrcCfg, .tmpSrcParam, .tmpSrcStatus, .tmpSrcFirstLo]

/-- Part 5 of the register names, in the order of the map. -/
def RegId.part5 : List RegId :=
  [.tmpSrcFirstHi, .tmpSrcLastLo, .tmpSrcLastHi, .fltStatusLo, .fltStatusHi, .fltMaskLo, .fltMaskHi, .fltCfg, .fltT1, .fltT2]

/-- Part 6 of the register names, in the order of the map. -/
def RegId.part6 : List RegId :=
  [.fltEsc, .fltAck, .fltPin, .fltInject, .fltRecPtr, .fltSrcCfg, .fltSrcCount, .fltRecA, .fltRecB, .fltRecC]

/-- Part 7 of the register names, in the order of the map. -/
def RegId.part7 : List RegId :=
  [.pwrStatus, .pwrCfg, .pwrGov, .pwrIdle, .pwrDomState, .pwrUnitCtrl, .pwrUnitStatus, .pwrDrainLimit, .pwrMap, .lifStatus]

/-- Part 8 of the register names, in the order of the map. -/
def RegId.part8 : List RegId :=
  [.lifCalLo, .lifCalHi, .lifCalSetLo, .lifCalSetHi, .lifCalCtrl, .lifSel, .lifValLo, .lifValHi, .lifValStat, .rngStatus]

/-- Part 9 of the register names, in the order of the map. -/
def RegId.part9 : List RegId :=
  [.rngCtrl, .rngCfg, .rngHalts, .rngData, .rngDataStatus, .rngSrcStatus, .rngSrcCtrl, .rngSrcPeak, .qosCtrl, .qosStatus]

/-- Part 10 of the register names, in the order of the map. -/
def RegId.part10 : List RegId :=
  [.qosPtnCfg, .qosPtnLim, .qosRingCfg, .qosRsvA, .qosRsvB, .qosUsage, .qosViolFloor, .qosViolRsv, .qosViolLat, .qosViolCtrl]

/-- Part 11 of the register names, in the order of the map. -/
def RegId.part11 : List RegId :=
  [.lkIsaVer, .lkWdog, .lkDrainLimit, .lkCtrl, .lkStatus, .lkHalt, .lkFwTag, .lkDispatched, .bsnStatus, .bsnCfg]

/-- Part 12 of the register names, in the order of the map. -/
def RegId.part12 : List RegId :=
  [.bsnErr, .bsnQcfg, .bsnQwm, .bsnQstat, .bsnQctrl, .bsnWmStatus, .brtStatus, .brtCtrl, .brtErr, .hbsStatus]

/-- Part 13 of the register names, in the order of the map. -/
def RegId.part13 : List RegId :=
  [.hbsCfg, .hbsRecState, .hbsRecNextLo, .hbsRecNextHi, .hbsRecHighLo, .hbsRecHighHi, .hbsRecId, .plyCfg, .ckcStatus, .ckcCfg]

/-- Part 14 of the register names, in the order of the map. -/
def RegId.part14 : List RegId :=
  [.ckcErr, .ckcPtn, .crvLoadAddrLo, .crvLoadAddrHi, .crvCtrl, .crvStatus, .ptnStatus, .ptnCtrl, .sqBaseLo, .sqBaseHi]

/-- Part 15 of the register names, in the order of the map. -/
def RegId.part15 : List RegId :=
  [.sqCfg, .sqCtrl, .sqHead, .sqTail, .sqStatus, .cqBaseLo, .cqBaseHi, .cqCfg, .cqCtrl, .cqHead]

/-- Part 16 of the register names, in the order of the map. -/
def RegId.part16 : List RegId :=
  [.cqTail, .cqCoalesce, .cqStatus, .ringEvent, .ringEventCfg, .sqDb, .cqDb, .brtPtnStatus, .rngPtnStatus, .keyPtnStatus]

/-- Part 17 of the register names, in the order of the map. -/
def RegId.part17 : List RegId :=
  [.keyStage, .keyStageAttr, .keyCommit, .keyStageStatus, .symCfg, .symStatus, .symBlocks, .symSusp, .symErr, .hshStatus]

/-- Part 18 of the register names, in the order of the map. -/
def RegId.part18 : List RegId :=
  [.hshCalls, .hshErr, .plyStatus, .plyOps, .plyIter, .plyEvents, .plyCache, .plyRcpTag, .plyErr, .codStatus]

/-- Part 19 of the register names, in the order of the map. -/
def RegId.part19 : List RegId :=
  [.codOps, .codErr, .bneCfg, .bneStatus, .bneSlots, .bneOps, .bneErr, .engGroupSelLo, .engGroupSelHi, .rngRaw]

/-- Every register name, in the order of the map. -/
def RegId.all : List RegId :=
  List.flatten [RegId.part0, RegId.part1, RegId.part2, RegId.part3, RegId.part4, RegId.part5, RegId.part6, RegId.part7, RegId.part8, RegId.part9, RegId.part10,
    RegId.part11, RegId.part12, RegId.part13, RegId.part14, RegId.part15, RegId.part16, RegId.part17, RegId.part18, RegId.part19]

/-- The instances of each class of PWR_MAP (R546): classes 1 to 6 the engines and DMA, 7 Basin banks, 8 berth banks,
9 the code key cache. -/
def mapCount : Nat → Nat
  | 1 => 48
  | 2 => 32
  | 3 => 16
  | 4 => 4
  | 5 => 8
  | 6 => 4
  | 7 => 8
  | 8 => 8
  | 9 => 1
  | _ => 0

/-- The indices name a register that exists (R545). The engine group selections exist for the class codes of R548. -/
def RegId.valid (r : RegId) (i j : Nat) : Bool :=
  match r with
  | .pwrMap => decide (j < mapCount i)
  | .engGroupSelLo | .engGroupSelHi => [0, 3, 4, 5, 6].contains i
  | _ => decide (i < r.row.n1) && decide (j < r.row.n2)

/-- The address of a register in the aperture (R9). -/
def RegId.addr (r : RegId) (i j : Nat) : Nat := r.row.base + i * r.row.s1 + j * r.row.s2

/-- The indices that place the register `r` at an address, if any do. -/
def RegId.indices (r : RegId) (a : Nat) : Option (Nat × Nat) :=
  let w := r.row
  if a < w.base then none
  else
    let o := a - w.base
    let i := if w.s1 = 0 then 0 else o / w.s1
    let o := if w.s1 = 0 then o else o % w.s1
    let j := if w.s2 = 0 then 0 else o / w.s2
    let o := if w.s2 = 0 then o else o % w.s2
    if o = 0 ∧ r.valid i j then some (i, j) else none

/-- A register as the map names it. -/
structure RegRef where
  id : RegId
  i : Nat := 0
  j : Nat := 0
  deriving DecidableEq, Repr

def RegRef.addr (r : RegRef) : Nat := r.id.addr r.i r.j

/-- The first register of a list that an address names. -/
def findReg (a : Nat) : List RegId → Option RegRef
  | [] => none
  | r :: rs =>
    match r.indices a with
    | some (i, j) => some { id := r, i := i, j := j }
    | none => findReg a rs

/-- The register that occupies an address, if one does (R545). -/
def regAt (a : Nat) : Option RegRef := findReg a RegId.all

/-- The reset value of FLT_SRC_CFG s: NOTIFY, and 4 for source 0x3F (R507, R546). -/
def fltSrcReset (s : Nat) : Nat := if s = 0x3F then 0x80000000 else 0x40000000

/-- The reset value of BSN_QCFG q (R547). -/
def qcfgReset (q : Nat) : Nat :=
  if q % 2 = 0 ∧ (q ≤ 0x3FF ∨ (0x600 ≤ q ∧ q ≤ 0x67F) ∨ (0x740 ≤ q ∧ q ≤ 0x7BF)) then 0x00010020
  else if q = 0x7E0 then 0x00000400
  else if q = 0x7E1 then 0x000000C0
  else 0x00000020

/-- The reset value of TMP_SRC_PARAM s (chapter "Register map"). -/
def tmpParamReset : Nat → Nat
  | 0 => 0x4224
  | 1 => 0x0005
  | 2 => 0x78D3
  | 3 => 0x0004
  | 4 => 0x000A
  | _ => 0

/-- The reset value of PWR_IDLE k (chapter "Register map"). -/
def pwrIdleReset : Nat → Nat
  | 0 => 0x0100000A
  | 3 => 0x003E800A
  | _ => 0x0006400A

/-- The reset value of a register as the map's Reset column gives it (R546). Where the column says "keep", "OTP" or
"table", the word here is the part that no other store gives. -/
def RegId.resetVal (r : RegId) (i j : Nat) : W32 :=
  BitVec.ofNat 32 (match r with
  | .fltSrcCfg => fltSrcReset i
  | .bsnQcfg => qcfgReset i
  | .tmpSrcCfg => 0x030103E8
  | .tmpSrcParam => tmpParamReset i
  | .pwrIdle => pwrIdleReset i
  | .pwrMap => j
  | .mgtPtnA => if i = 0 then 0x80000000 else 0
  | _ => r.row.reset)

/-- The reset value of the register at an address; an address that holds none reads as zero. -/
def resetAt (a : Nat) : W32 :=
  match regAt a with
  | some r => r.id.resetVal r.i r.j
  | none => 0

end Sys2Proof.Machine
end

