-- ==== Sys2Proof/State/Bignum.lean ====
section
/-!
DEFINITION. The operand memories of the big-number engines and the curve table (R359 to R362, R381 to R383).
-/
namespace Sys2Proof.Machine

/-- An allocation of operand slots; its slots are zeroized as it is released where they held a secret, or its request was aborted or met
an uncorrectable word (R362, R384, R387). -/
structure OperandGroup where
  req : Nat
  slots : List Nat
  secret : Bool := true
  deriving DecidableEq, Repr

/-- The operand memory of an engine. -/
structure Operands where
  /-- L in force. -/
  slotWords : Nat := 130
  /-- SLOT_WORDS was written and is not in force yet (R359). -/
  waiting : Bool := false
  groups : List OperandGroup := []
  /-- The partition that last owned each slot. -/
  owner : SMap Nat := []
  /-- The words of the memory that are not zero, of 8,192 of 64 bits (R359). -/
  words : SMap (BitVec 64) := []
  deriving DecidableEq, Repr

/-- What happens to an entry of the curve table: an entry of a CURVES section replaces it, one fetched through CRV_CTRL does, or
CLEAR empties it (R99, R381, R382). -/
inductive CurveChange where
  | put (data : Bytes)
  | load (data : Bytes)
  | clear
  deriving DecidableEq, Repr

/-- A change that waits for the requests that used the entry when it was asked for (R99, R382, R387). -/
structure CurveJob where
  index : Nat
  change : CurveChange
  users : List Nat
  deriving DecidableEq, Repr

/-- The curve table (R99, R382, R383). -/
structure Curves where
  entries : SMap Bytes := []
  /-- Changes that wait, in the order they were asked for. -/
  jobs : List CurveJob := []
  /-- The entry under check, and the engine that checks it (R382). -/
  checking : Option (Nat × Nat) := none
  /-- An entry being fetched by CRV_CTRL: its number and the bytes that have arrived. -/
  fetch : Option (Nat × Bytes) := none
  /-- Entries loaded through CRV_CTRL, for which check 9 is made (R382). -/
  loaded : List Nat := []
  deriving DecidableEq, Repr

end Sys2Proof.Machine
end

