-- ==== Sys2Proof/State/Boot.lean ====
section
/-!
DEFINITION. The manifest loader, the staged image, the apply of a section, and a function reset under way (R74 to R100,
R466 to R468).
-/
namespace Sys2Proof.Machine

/-- An apply that goes unit by unit: the section's type, data and the units still to come (R99). -/
structure ApplyJob where
  kind : Nat
  data : Bytes
  left : List Nat
  /-- The unit at the head has been given the section. -/
  begun : Bool := false
  /-- A unit of TARGET was out of service (R103). -/
  missed : Bool := false
  deriving DecidableEq, Repr

structure Boot where
  /-- mfs_req is high for the manifest; the bytes that have arrived in the shadows. -/
  streaming : Bool := false
  image : Bytes := []
  /-- An uncorrectable word stands in a shadow (R79). -/
  badShadow : Bool := false
  /-- Start-up resumed at step 3 once after a tamper action (R103). -/
  resumed : Bool := false
  /-- The load has been abandoned for a tamper action under way (R103). -/
  abandoned : Bool := false
  /-- The staged image: bytes asked for and arrived, and the banks of its cells (R95). -/
  stage : Bytes := []
  stageCells : List Nat := []
  /-- Words of 16 bytes of the staged image that hold bad symbols; true is uncorrectable (R234, R238). -/
  stageBad : SMap Bool := []
  /-- The hash core and the polynomial engine that verify the staged image, by class and instance (R96). -/
  stageUnits : List (Nat × Nat) := []
  job : Option ApplyJob := none
  /-- BUILD_TIME of the running boot image, and SEC_VERSION of the latest section of each TYPE (R81, R82). -/
  buildTime : Nat := 0
  secVersions : SMap Nat := []
  /-- A reset has been released since it was asserted: start-up has begun. -/
  started : Bool := false
  deriving DecidableEq, Repr

/-- A function reset under way (R466, R467); one started during a zeroize begins after it (R481). -/
structure FnReset where
  ptn : Nat
  keep : Bool
  begun : Bool := false
  deriving DecidableEq, Repr

end Sys2Proof.Machine
end

