-- ==== Sys2Proof/State/Lockkeeper.lean ====
section
/-!
DEFINITION. The state of a Lockkeeper: contexts, command slots, frames, memories and management state
(R183, R189, R193, R194, R208 to R215).
-/
namespace Sys2Proof.Machine

/-- The states of a context (R183). -/
inductive CtxState where
  | idle | ready | running
  /-- Waits in WAITE for a kept slot (R203). -/
  | waitSlot (slot : Nat)
  /-- Waits after FRM_ADMIT for the reservations of a frame (R191). -/
  | waitAdmit (frame : Nat)
  /-- Waits after FRM_DONE for completion places: frame, STATUS and DETAIL as written (R190). -/
  | waitDone (frame : Nat) (word : W16)
  deriving DecidableEq, Repr

/-- A command slot (R193). CMD_STATE is 0 FREE, 1 QUEUED, 2 RUNNING, 3 DONE. -/
structure Slot where
  cmdUnit : W16 := 0
  cmdFrame : W16 := 0
  result : W32 := 0
  outLen : W32 := 0
  resultH : W32 := 0
  state : Nat := 0
  deriving DecidableEq, Repr

/-- A slot that is FREE: its other words stay (R193). -/
def Slot.free (sl : Slot) : Slot := { sl with state := 0 }

/-- A context (R183, R194). -/
structure Ctx where
  state : CtxState := .idle
  a : W32 := 0
  x : W16 := 0
  y : W16 := 0
  pc : W16 := 0
  fN : Bool := false
  fZ : Bool := false
  fC : Bool := false
  fV : Bool := false
  /-- The return stack, newest first; at most 16 entries (R201). -/
  stack : List W16 := []
  emuPc : W16 := 0
  emuWord : W16 := 0
  emuNext : W16 := 0
  emuStat : W16 := 0
  /-- Word offset of the context's first frame, and the members given to it (LKC_FIRST, LKC_COUNT). -/
  first : W16 := 0
  count : W16 := 0
  slots : List Slot := List.replicate 4 {}
  deriving DecidableEq, Repr

/-- A frame of the descriptor window (R189). -/
structure Frame where
  valid : Bool := false
  killed : Bool := false
  admitted : Bool := false
  issued : Bool := false
  completed : Bool := false
  /-- Status of its completion, once completed (R202). -/
  doneStatus : Nat := 0
  req : Nat := 0
  /-- The context that holds it: none once that has ended or has been stopped (R183, R192). -/
  ctx : Option Nat := none
  tow : Bool := false
  pos : Nat := 0
  ptn : Nat := 0
  ring : Nat := 0
  index : Nat := 0
  priv : W16 := 0
  rsvd : Bool := false
  detail : W32 := 0
  desc : Bytes := []
  deriving DecidableEq, Repr

/-- LK_STATUS.STATE. -/
inductive LkState where
  | reset | running | draining | drained | halted | loading
  deriving DecidableEq, Repr

def LkState.code : LkState → Nat
  | .reset => 0
  | .running => 1
  | .draining => 2
  | .drained => 3
  | .halted => 4
  | .loading => 5

/-- Causes of a halt (LK_STATUS.CAUSE). -/
inductive Halt where
  | noHandler | doubleTrap | stack | badFetch | badAddr | frameState | heartbeat | memory | contained
  | emuState | badCmd
  deriving DecidableEq, Repr

def Halt.code : Halt → Nat
  | .noHandler => 0x01
  | .doubleTrap => 0x02
  | .stack => 0x03
  | .badFetch => 0x04
  | .badAddr => 0x05
  | .frameState => 0x06
  | .heartbeat => 0x07
  | .memory => 0x08
  | .contained => 0x09
  | .emuState => 0x0A
  | .badCmd => 0x0B

/-- A fetch in progress: descriptors of one single or one tow, gathered in ring order (R185). -/
structure Fetch where
  ptn : Nat
  ring : Nat
  /-- The descriptors that have arrived: ring index, 64 bytes, poison of the beat. -/
  got : List (Nat × Bytes × Bool) := []
  /-- The deficits that the descriptors are charged to: 0 none, 1 the ring's, 2 the partition's too (R164). -/
  charge : Nat := 0
  /-- A read of the next descriptor is outstanding. -/
  reading : Bool := true
  /-- The rest of the tow did not arrive in time (R147). -/
  ended : Bool := false
  /-- The last fetched member has CHAIN and the tail has been reached (R147). -/
  waitsTail : Bool := false
  deriving DecidableEq, Repr

/-- What LK_STATUS loads: the work left once a drain ends (R214). -/
inductive AfterDrain where
  | nothing
  /-- A section image waits to be loaded: section type 1 firmware, 2 emulation, and its data (R211, R212). -/
  | load (emulation : Bool) (data : Bytes)
  deriving DecidableEq, Repr

/-- One Lockkeeper. -/
structure Lk where
  state : LkState := .reset
  cause : Nat := 0
  emuEn : Bool := false
  haltCtx : Nat := 0
  haltPc : W16 := 0
  fwTag : W32 := 0
  dispatched : W32 := 0
  /-- Program memory; a word that is not listed is 0xFFFF (R199, R211). -/
  prog : SMap W16 := []
  /-- Data words 0x0000–0x1FFF; a word that is not listed is 0. -/
  data : SMap W16 := []
  /-- Words with bad symbols; true is uncorrectable (R210). The key is the address of a program word, the address plus 0x4000 of a
  data word or of a word of a frame, and 0x9000 + 0x40 × context + offset of a word of the engine-command window. -/
  bad : SMap Bool := []
  ctxs : List Ctx := List.replicate 8 {}
  frames : List Frame := List.replicate 32 {}
  /-- The running context, and the last one that ran (R183). -/
  cur : Option Nat := none
  last : Nat := 7
  go : Bool := false
  /-- The heartbeat counter in µs, as last set: 0 at a heartbeat, the limit at an expiry (R209). -/
  heart : Nat := 0
  fetch : Option Fetch := none
  after : AfterDrain := .nothing
  /-- The source of a copy in progress (R215). -/
  cloneFrom : Option Nat := none
  /-- What waits for the Lockkeeper's domain to be on: a restart, or a clone of a source (R520, R523). -/
  onWake : Option (Option Nat) := none
  deriving DecidableEq, Repr

/-- A Lockkeeper held in reset. One that CONTAIN took out of service stays out of service (R510). -/
def Lk.inReset (l : Lk) : Lk :=
  if l.state = .halted ∧ l.cause = Halt.contained.code then { state := .halted, cause := l.cause } else {}

end Sys2Proof.Machine
end

