-- ==== Sys2Proof/State/Descriptor.lean ====
section
/-!
DEFINITION. Descriptors, opcodes, completion status codes and unit classes (R117, R118, R124, R130, R132).
-/
namespace Sys2Proof.Machine

/-- The completion status codes (R132). -/
inductive Status where
  | ok | verifyFailed | aborted | flushed | towSkipped
  | badDescriptor | badLength | inputRange | pointInvalid | resultIdentity | paramInvalid | unsupportedOp
  | keyHandleInvalid | keyPolicy | keySlotBad | keyNotOwned | rootUnavailable
  | resourceBusy | berthInvalid | dmaFault
  | entropyNotReady | entropyHalted
  | dataPoisoned | engineFault | tamperAbort
  | counterExhausted | stateExhausted
  /-- A reserved code, as firmware wrote it to FRM_DONE (R190). -/
  | written (c : Nat)
  deriving DecidableEq, Repr

/-- The code of a status (R132). -/
def Status.code : Status → Nat
  | .ok => 0x00
  | .verifyFailed => 0x01
  | .aborted => 0x02
  | .flushed => 0x03
  | .towSkipped => 0x04
  | .badDescriptor => 0x10
  | .badLength => 0x11
  | .inputRange => 0x12
  | .pointInvalid => 0x13
  | .resultIdentity => 0x14
  | .paramInvalid => 0x15
  | .unsupportedOp => 0x16
  | .keyHandleInvalid => 0x20
  | .keyPolicy => 0x21
  | .keySlotBad => 0x22
  | .keyNotOwned => 0x23
  | .rootUnavailable => 0x24
  | .resourceBusy => 0x30
  | .berthInvalid => 0x31
  | .dmaFault => 0x32
  | .entropyNotReady => 0x40
  | .entropyHalted => 0x41
  | .dataPoisoned => 0x50
  | .engineFault => 0x51
  | .tamperAbort => 0x52
  | .counterExhausted => 0x60
  | .stateExhausted => 0x61
  | .written c => c

/-- The opcodes of R124. -/
inductive Op where
  | nop | fence | copy | getRandom
  | encrypt | decrypt | aeadSeal | aeadOpen | macGenerate | macVerify
  | berthSetup | berthSealOut | berthSealIn | berthRelease
  | hash | xof | hmacGenerate | hmacVerify | kmacGenerate | kmacVerify
  | hkdf | hkdfExtract | hkdfExpand | kdf108 | kdf56cOneStep | kdf56cTwoStep
  | mlkemKeygen | mlkemEncaps | mlkemDecaps
  | mldsaKeygen | mldsaSign | mldsaVerify | mldsaSignMu | mldsaVerifyMu
  | slhdsaKeygen | slhdsaSign | slhdsaVerify
  | hssKeygen | hssSign | hssVerify | xmssKeygen | xmssSign | xmssVerify
  | hqcKeygen | hqcEncaps | hqcDecaps
  | mceImport | mceEncaps | mceDecaps | ckcLoad | ckcEvict
  | modmul | modexp | modinv
  | rsaPublic | rsaPrivateCrt | rsaPssSign | rsaPssVerify | rsaOaepEncrypt | rsaOaepDecrypt | rsaKeygen | primeTest
  | ecdsaSign | ecdsaVerify | ecdh | ecKeygen | eddsaSign | eddsaVerify | xdh
  | keyGenerate | keyImportWrapped | keyExportWrapped | keyDestroy | keyDerive | keyAttrRead
  | ptnInfo | keyList | qosRead
  deriving DecidableEq, Repr

/-- The code of an opcode (R124). -/
def Op.code : Op → Nat
  | .nop => 0x00
  | .fence => 0x01
  | .copy => 0x02
  | .getRandom => 0x03
  | .encrypt => 0x10
  | .decrypt => 0x11
  | .aeadSeal => 0x12
  | .aeadOpen => 0x13
  | .macGenerate => 0x16
  | .macVerify => 0x17
  | .berthSetup => 0x18
  | .berthSealOut => 0x19
  | .berthSealIn => 0x1A
  | .berthRelease => 0x1B
  | .hash => 0x20
  | .xof => 0x21
  | .hmacGenerate => 0x22
  | .hmacVerify => 0x23
  | .kmacGenerate => 0x24
  | .kmacVerify => 0x25
  | .hkdf => 0x30
  | .hkdfExtract => 0x31
  | .hkdfExpand => 0x32
  | .kdf108 => 0x33
  | .kdf56cOneStep => 0x34
  | .kdf56cTwoStep => 0x35
  | .mlkemKeygen => 0x40
  | .mlkemEncaps => 0x41
  | .mlkemDecaps => 0x42
  | .mldsaKeygen => 0x44
  | .mldsaSign => 0x45
  | .mldsaVerify => 0x46
  | .mldsaSignMu => 0x47
  | .mldsaVerifyMu => 0x48
  | .slhdsaKeygen => 0x50
  | .slhdsaSign => 0x51
  | .slhdsaVerify => 0x52
  | .hssKeygen => 0x53
  | .hssSign => 0x54
  | .hssVerify => 0x55
  | .xmssKeygen => 0x56
  | .xmssSign => 0x57
  | .xmssVerify => 0x58
  | .hqcKeygen => 0x60
  | .hqcEncaps => 0x61
  | .hqcDecaps => 0x62
  | .mceImport => 0x64
  | .mceEncaps => 0x65
  | .mceDecaps => 0x66
  | .ckcLoad => 0x67
  | .ckcEvict => 0x68
  | .modmul => 0x70
  | .modexp => 0x71
  | .modinv => 0x72
  | .rsaPublic => 0x73
  | .rsaPrivateCrt => 0x74
  | .rsaPssSign => 0x75
  | .rsaPssVerify => 0x76
  | .rsaOaepEncrypt => 0x77
  | .rsaOaepDecrypt => 0x78
  | .rsaKeygen => 0x79
  | .primeTest => 0x7A
  | .ecdsaSign => 0x80
  | .ecdsaVerify => 0x81
  | .ecdh => 0x82
  | .ecKeygen => 0x83
  | .eddsaSign => 0x84
  | .eddsaVerify => 0x85
  | .xdh => 0x86
  | .keyGenerate => 0x90
  | .keyImportWrapped => 0x91
  | .keyExportWrapped => 0x92
  | .keyDestroy => 0x93
  | .keyDerive => 0x94
  | .keyAttrRead => 0x95
  | .ptnInfo => 0xE0
  | .keyList => 0xE1
  | .qosRead => 0xE2

/-- Every opcode of R124. -/
def Op.all : List Op := List.flatten
  [[.nop, .fence, .copy, .getRandom, .encrypt, .decrypt, .aeadSeal, .aeadOpen, .macGenerate, .macVerify],
   [.berthSetup, .berthSealOut, .berthSealIn, .berthRelease],
   [.hash, .xof, .hmacGenerate, .hmacVerify, .kmacGenerate, .kmacVerify],
   [.hkdf, .hkdfExtract, .hkdfExpand, .kdf108, .kdf56cOneStep, .kdf56cTwoStep],
   [.mlkemKeygen, .mlkemEncaps, .mlkemDecaps, .mldsaKeygen, .mldsaSign, .mldsaVerify, .mldsaSignMu, .mldsaVerifyMu],
   [.slhdsaKeygen, .slhdsaSign, .slhdsaVerify, .hssKeygen, .hssSign, .hssVerify, .xmssKeygen, .xmssSign, .xmssVerify],
   [.hqcKeygen, .hqcEncaps, .hqcDecaps, .mceImport, .mceEncaps, .mceDecaps, .ckcLoad, .ckcEvict],
   [.modmul, .modexp, .modinv, .rsaPublic, .rsaPrivateCrt, .rsaPssSign, .rsaPssVerify],
   [.rsaOaepEncrypt, .rsaOaepDecrypt, .rsaKeygen, .primeTest],
   [.ecdsaSign, .ecdsaVerify, .ecdh, .ecKeygen, .eddsaSign, .eddsaVerify, .xdh],
   [.keyGenerate, .keyImportWrapped, .keyExportWrapped, .keyDestroy, .keyDerive, .keyAttrRead],
   [.ptnInfo, .keyList, .qosRead]]

/-- The unit classes of completion entries and commands (R130). -/
inductive Unit where
  | sym | hsh | ply | cod | bne | dma | rng | key | berth | completion | lockkeeper
  deriving DecidableEq, Repr

def Unit.code : Unit → Nat
  | .sym => 0x01
  | .hsh => 0x02
  | .ply => 0x03
  | .cod => 0x04
  | .bne => 0x05
  | .dma => 0x06
  | .rng => 0x07
  | .key => 0x08
  | .berth => 0x09
  | .completion => 0x0E
  | .lockkeeper => 0x0F

/-- The unit class of a CMD_UNIT code; classes 0x0E and 0x0F and every unlisted code name none (R130, R193). -/
def Unit.ofCommand : Nat → Option Unit
  | 0x01 => some .sym
  | 0x02 => some .hsh
  | 0x03 => some .ply
  | 0x04 => some .cod
  | 0x05 => some .bne
  | 0x06 => some .dma
  | 0x07 => some .rng
  | 0x08 => some .key
  | 0x09 => some .berth
  | _ => none

/-- A submission descriptor (R117). -/
structure Desc where
  opcode : Byte := 0
  alg : Byte := 0
  flags : W16 := 0
  reqTag : W32 := 0
  keyH : W32 := 0
  berthH : W32 := 0
  srcAddr : W64 := 0
  srcLen : W32 := 0
  auxLen : W32 := 0
  dstAddr : W64 := 0
  dstLen : W32 := 0
  param : W32 := 0
  auxAddr : W64 := 0
  resultH : W32 := 0
  reserved : W32 := 0
  deriving DecidableEq, Repr

end Sys2Proof.Machine
end

