-- ==== Sys2Proof/State/Keys.lean ====
section
/-!
DEFINITION. The key store's slots, key material in use, the session berths, and the OTP port's work
(R57, R257, R258, R413, R414, R442).
-/
namespace Sys2Proof.Machine

/-- STATE of a key slot (R414). -/
inductive KeyState where
  | empty | reserved | valid | bad | invalid
  deriving DecidableEq, Repr

def KeyState.code : KeyState → Nat
  | .empty => 0
  | .reserved => 1
  | .valid => 2
  | .bad => 3
  | .invalid => 4

/-- Who decided a slot's destruction (R24). -/
inductive Doom where
  | none
  /-- KEY_DESTROY of a request. -/
  | destroy (req : Nat)
  /-- P0's CLEAR. -/
  | clear
  /-- P0's OP 2: the slot becomes INVALID. -/
  | invalidate
  deriving DecidableEq, Repr

/-- A key slot (R413, R414). An EMPTY slot is all zero but for REC. -/
structure KeySlot where
  state : KeyState := .empty
  owner : Nat := 0
  rootReal : Bool := false
  usage : Nat := 0
  order : Nat := 0
  exportW : Bool := false
  keepBound : Bool := false
  lockEn : Bool := false
  lockClass : Nat := 0
  lockAlg : Nat := 0
  pair : Nat := 0
  len : Nat := 0
  kind : Nat := 0
  recNo : Nat := 0
  gen : W32 := 0
  payload : Bytes := []
  /-- The integrity tag as stored (R415). -/
  tag : Bytes := []
  doom : Doom := .none
  /-- What the symbol code finds in the stored record: 0 nothing, 1 a corrected word, 2 an uncorrectable one (R416). -/
  mem : Nat := 0
  deriving DecidableEq, Repr

/-- The key that a request has taken (R24, R254, R417). -/
structure KeyMat where
  bytes : Bytes := []
  slot : Option Nat := none
  usage : Nat := 0
  order : Nat := 0
  kind : Nat := 0
  recNo : Nat := 0
  rootReal : Bool := false
  /-- The key opens a blob at the start of the source (R122, R431). -/
  wraps : Bool := false
  fromHold : Bool := false
  deriving DecidableEq, Repr

/-- STATE of a berth (R258), with the states of an expansion cache's head and areas (chapter "Polynomial engines"). -/
inductive BerthState where
  | free | idle | openMsg | suspended | exhausted | invalid
  deriving DecidableEq, Repr

def BerthState.code : BerthState → Nat
  | .free => 0
  | .idle => 1
  | .openMsg => 2
  | .suspended => 3
  | .exhausted => 4
  | .invalid => 5

/-- A berth (R257). -/
structure Berth where
  state : BerthState := .free
  owner : Nat := 0
  rootReal : Bool := false
  dir : Nat := 0
  policy : Nat := 0
  alg : Nat := 0
  msgCount : Nat := 0
  msgLimit : Nat := 0
  invoc : Nat := 0
  fixed : Bytes := []
  gen : W32 := 0
  msgBlocks : Nat := 0
  aadBytes : Nat := 0
  key : Bytes := []
  hsub : Bytes := []
  cb : Bytes := []
  acc : Bytes := []
  accTop : Nat := 0
  auxk : Bytes := []
  susp : Bytes := []
  /-- The detail code of the counter that exhausted it (R269). -/
  exhaust : Nat := 0
  /-- What the symbol code finds in the berth: 0 nothing, 1 a corrected word, 2 an uncorrectable one (R267). -/
  mem : Nat := 0
  deriving DecidableEq, Repr

/-- A round-key cache entry of a cipher core (R246): a key slot or a berth, its generation and the owner. -/
structure RoundKeys where
  berth : Bool
  index : Nat
  gen : W32
  owner : Nat
  deriving DecidableEq, Repr

/-- What an OTP program is for. -/
inductive OtpFor where
  | transition | repair | rootCreate | progDigest | svFloor
  | tamperDigest | sourceDisable | keepLost
  deriving DecidableEq, Repr

/-- Words still to be programmed for a command, the one under way first, and whether its program has been acknowledged
and it is being read back (R57). -/
structure OtpJob where
  purpose : OtpFor
  words : List (Nat × W32)
  reading : Bool := false
  failed : Bool := false
  /-- What the word held before the program under way (R57). -/
  old : W32 := 0
  deriving DecidableEq, Repr

end Sys2Proof.Machine
end

