-- ==== Sys2Proof/State/Request.lean ====
section
/-!
DEFINITION. Requests and their hardware tags (R15), tows and holds (R145, R151, R161), completion entries (R128) and
the transactions outstanding on the DMA master port (R33, R34).
-/
namespace Sys2Proof.Machine

/-- Where a request stands between the ring and its completion entry. -/
inductive Phase where
  /-- Fetched into a frame; not admitted. -/
  | fetched
  /-- Its completion place is reserved (R114). -/
  | admitted
  /-- Accepted by ISSUE (R202); its lane is bound. -/
  | queued
  | running
  /-- A suspended cipher request (R271). -/
  | suspended
  /-- A signature paused at the end of its interval (R327). -/
  | paused
  /-- The engine has produced its result and has not posted it. -/
  | produced
  /-- Posted to the completion unit; its writes to host memory are not all accepted (R22). -/
  | posted
  /-- Its entry waits in the completion unit. -/
  | finished
  /-- Its entry is written; a tow member stays listed until its tow ends. -/
  | written
  deriving DecidableEq, Repr

/-- The place reserved for a request's completion entry (R114, R136). -/
inductive Place where
  | none | ringSlot | holding | inPlace
  deriving DecidableEq, Repr

/-- What an engine answers: status, bytes for the destination, and the entry's other fields (R131). -/
structure Result where
  status : Status
  out : Bytes := []
  outLen : Nat := 0
  detail : Option W32 := none
  resultH : W32 := 0
  iterOverrun : Bool := false
  scrubbed : Bool := false
  unit : Unit := .lockkeeper
  inst : Nat := 0
  deriving DecidableEq, Repr

/-- A kept command slot: Lockkeeper, context, slot (R193). -/
structure SlotRef where
  lk : Nat
  ctx : Nat
  slot : Nat
  deriving DecidableEq, Repr

/-- The progress of a scrub of the destination (R227, R228). -/
inductive Scrub where
  | none
  /-- Bytes of the destination already covered by scrub writes. -/
  | upTo (done : Nat)
  | finished
  deriving DecidableEq, Repr

/-- The Basin side of a request: its lane and what its two queues hold (R220 to R226). -/
structure Lane where
  lane : Option Nat := none
  granted : Bool := false
  /-- Banks of the cells and credits that the input queue holds, oldest first. -/
  inBanks : List Nat := []
  /-- Banks of the cells and credits that the output queue holds. -/
  outBanks : List Nat := []
  /-- Input and output cells credited so far, the initial grant included (R222, R223). -/
  credited : Nat := 0
  creditedOut : Nat := 0
  /-- Words of 16 bytes of the two items that hold bad symbols; true is uncorrectable (R217, R234). -/
  badIn : SMap Bool := []
  badOut : SMap Bool := []
  /-- Bytes of the input item asked of the DMA port. -/
  asked : Nat := 0
  /-- The part of the input item that has arrived. -/
  input : Bytes := []
  /-- Input cells that the engine has read whole. -/
  taken : Nat := 0
  /-- The settings of the lane's queues at binding (R239). -/
  limitIn : Nat := 0
  limitOut : Nat := 0
  weir : Nat := 0
  holdBack : Bool := false
  /-- What the engine has put into the output queue before its result stands (R226). -/
  early : Bytes := []
  /-- Output bytes released to DMA, and those whose writes received an OK response. -/
  released : Nat := 0
  acked : Nat := 0
  deriving DecidableEq, Repr

/-- An admitted or fetched request with its hardware tag (R15). -/
structure Req where
  id : Nat
  ptn : Nat
  ring : Nat
  index : Nat
  desc : Desc
  poison : Bool := false
  /-- dbg_en has been high since the request began: the test root serves it to its end (R69, R70). -/
  testRoot : Bool := false
  /-- FLAGS.URGENT honoured (R169). -/
  urgent : Bool := false
  /-- The first of checks 1 to 4 that fails (R121). -/
  verdict : Option Status := none
  tow : Option Nat := none
  /-- A descriptor of a tow that was never gathered (R161). -/
  inTow : Bool := false
  pos : Nat := 0
  lk : Nat := 0
  phase : Phase := .fetched
  place : Place := .none
  unit : Unit := .lockkeeper
  /-- The instance the command names; 0xFF for any (R193). -/
  want : Nat := 0xFF
  inst : Nat := 0
  keep : Option SlotRef := none
  /-- DUMMY_MAX of its core as it started (R275). -/
  dummy : Option Nat := none
  /-- The order in which ISSUE was accepted. -/
  seq : Nat := 0
  /-- PLY_CFG, and the generation of its partition, as ISSUE was accepted (R308, R436). -/
  plyCfg : W32 := 0x110
  ptnGen : Nat := 0
  /-- Every member it depends on has completed (R156). -/
  ready : Bool := true
  bas : Lane := {}
  result : Option Result := none
  /-- A DMA response reported an error or did not arrive: 0 none, 1 on a read, 2 on a write (R40, R41, R557). -/
  dmaFault : Nat := 0
  scrub : Scrub := .none
  /-- Key slots whose key it took before their destruction was decided (R24). -/
  slots : List Nat := []
  /-- The key it has taken (R24, R254). -/
  key : Option KeyMat := none
  /-- The key that it exports, once checked (R24, R433). -/
  exported : Option (KeySlot × Bytes) := none
  /-- The berth it works on (R259). -/
  berth : Option Nat := none
  /-- Its berth before its result was written back (R260). -/
  before : Option Berth := none
  /-- The code key cache entry it reads (R353). -/
  entry : Option Nat := none
  /-- The DRBG values that its unit took from its towpath buffer as it started (R398). -/
  draws : Bytes := []
  /-- The stateful index it has taken (R298). -/
  stateIndex : Option Nat := none
  /-- Further instances that serve it (R290). -/
  joined : List Nat := []
  /-- The hash core that works for a big-number request (R358, R384). -/
  hashCore : Option Nat := none
  /-- In-place completion (R135): 0 nothing written, 1 first part issued, 2 first part accepted, 3 status word
  issued, 4 status word accepted, 5 status word to be written again. -/
  inPlaceStage : Nat := 0
  /-- Rejection iterations done, and the intermediate state of a paused or recipe-run operation. -/
  iterations : Nat := 0
  deriving DecidableEq, Repr

/-- One hold of a tow (R151, R153). -/
structure Hold where
  bytes : Bytes := []
  len : Nat := 0
  secret : Bool := false
  /-- A word of its line with bad symbols: 0 none, 1 one symbol, 2 uncorrectable (R180). -/
  mem : Nat := 0
  /-- The hold line: engine number (0–15 PLY, 16–19 COD) and line in that engine (R157). -/
  line : Option (Nat × Nat) := none
  deriving DecidableEq, Repr

/-- A tow: its members in ring order by request number, and its eight holds (R145, R161). -/
structure Tow where
  id : Nat
  ptn : Nat
  ring : Nat
  members : List Nat
  admitted : Bool := false
  failed : Bool := false
  holds : List Hold := List.replicate 8 {}
  deriving DecidableEq, Repr

/-- A completion entry on its way to host memory (R128), with PHASE still open. Its place is its request's. -/
structure Entry where
  req : Nat
  ptn : Nat
  ring : Nat
  cq : Nat
  reqTag : W32
  status : Status
  /-- FLAGS without PHASE (R129). -/
  flags : Nat
  unit : Nat
  inst : Nat
  outLen : W32
  resultH : W32
  irq : Bool
  deriving DecidableEq, Repr

/-- What a read on the DMA port is for. -/
inductive ReadFor where
  /-- The descriptor a Lockkeeper fetches (R185). -/
  | fetch (lk : Nat)
  /-- Input of a request (R221). -/
  | input (req : Nat)
  /-- A descriptor flushed unfetched by a stop or reset (R137 step 5, R468). -/
  | flush (ptn ring : Nat)
  /-- A staged manifest image (R95). -/
  | stage
  /-- An unlock record (R497). -/
  | unlock
  /-- A curve entry (R382). -/
  | curve
  deriving DecidableEq, Repr

/-- A read burst outstanding on the DMA port. -/
structure ReadXfer where
  tag : Nat
  engine : Nat
  purpose : ReadFor
  ptn : Nat
  asid : Nat
  addr : Nat
  len : Nat
  /-- Bytes of the burst that have returned, and those discarded around the buffer's ends (R36). -/
  got : Nat := 0
  /-- Timed out: its tag is not reused and a late response is discarded (R41). -/
  dead : Bool := false
  /-- The lane was flushed: beats are discarded, and the banks of the credits they bear return with the last (R229). -/
  discard : Bool := false
  held : List Nat := []
  deriving DecidableEq, Repr

/-- What a write burst on the DMA port carries. -/
inductive WriteFor where
  | output (req : Nat)
  | scrub (req : Nat)
  /-- The entry of a submission ring's request, in a completion ring at an index; `held` when its place was a holding entry (R140). -/
  | entry (ptn ring cq index : Nat) (held : Bool)
  /-- Bytes 0x30–0x3B of an in-place completion, and its status word (R135). -/
  | inPlaceBody (req : Nat)
  | inPlaceStatus (req : Nat)
  deriving DecidableEq, Repr

/-- A write burst outstanding on the DMA port. Byte enables are those of its bytes alone (R36). -/
structure WriteXfer where
  tag : Nat
  engine : Nat
  purpose : WriteFor
  ptn : Nat
  asid : Nat
  addr : Nat
  data : Bytes
  dead : Bool := false
  deriving DecidableEq, Repr

end Sys2Proof.Machine
end

