-- ==== Sys2Proof/State/Core.lean ====
section
/-!
DEFINITION. The state of the block's boundary, of the completion unit, of the scheduler and of the Basin pool
(R28, R42, R62 to R72, R141, R164 to R178, R218).
-/
namespace Sys2Proof.Machine

/-- Responses of the register port (R542). -/
inductive Rsp where
  | okay | refused | unmapped
  deriving DecidableEq, Repr

/-- An access that the register port has not accepted: fab_clk is stopped (R525). -/
structure Offered where
  acc : Access
  write : Bool
  addr : Nat
  data : W32 := 0
  deriving DecidableEq, Repr

/-- What the register port last answered, and the single latch of R538. -/
structure Port where
  rsp : Rsp := .okay
  rdata : W32 := 0
  /-- The responses of the same step before the last, in order (R29). -/
  earlier : List (Rsp × W32) := []
  /-- The high half latched by the latest read of a low half (R538, R553). -/
  latchHi : W32 := 0
  /-- Accesses that wait for fab_clk, in the order they were offered (R525). -/
  waiting : List Offered := []
  deriving DecidableEq, Repr

/-- The pins the block drives or samples that hold a level. -/
structure Pins where
  dbgEn : Bool := false
  keepOnCell : Bool := false
  /-- pm_rst_cold_n and pm_rst_warm_n are low. -/
  coldLow : Bool := false
  warmLow : Bool := false
  /-- pm_blk_rst_req: 0 idle, 1 block reset, 2 domain power cycle (R72). -/
  blkRstReq : Nat := 0
  fltErrN : Bool := true
  /-- tmp_alarm (R44, R45). -/
  tmpAlarm : Bool := false
  /-- pm_cap and pm_eng_mhz as sampled. -/
  pmCap : Nat := 0
  engMhz : Nat := 1200
  /-- pm_clk_req and the clocks running: fab_clk, eng_clk. -/
  fabReq : Bool := false
  engReq : Bool := false
  fabRun : Bool := false
  engRun : Bool := false
  deriving DecidableEq, Repr

/-- A vector that is pending (R42), and the writes its message waits for (R22). -/
structure IrqMsg where
  ptn : Nat
  vec : Nat
  after : List Nat := []
  deriving DecidableEq, Repr

/-- The coalescing state of a completion ring (R141). -/
structure Coal where
  count : Nat := 0
  /-- TIME as it stood at the latest entry written since the last firing; 0 while no time runs (R141, R143). -/
  time : Nat := 0
  deriving DecidableEq, Repr

/-- An entry whose write faulted, kept for RESUME at its index (R140). -/
structure Retry where
  ptn : Nat
  ring : Nat
  cq : Nat
  index : Nat
  data : Bytes
  place : Place
  /-- A RESUME asks for the write, which waits for a tag. -/
  wanted : Bool := false
  /-- The write has been issued again and has no response yet. -/
  running : Bool := false
  deriving DecidableEq, Repr

/-- A set of scheduler settings, by register index (R177). -/
structure QosSet where
  ptnCfg : SMap W32 := []
  ptnLim : SMap W32 := []
  ringCfg : SMap W32 := []
  rsvA : SMap W32 := []
  rsvB : SMap W32 := []
  /-- Floor capacity when the set was committed, in thousandths of a descriptor (R168). -/
  capacity : Nat := 400000
  deriving DecidableEq, Repr

/-- The scheduler (R164 to R178). -/
structure Sched where
  running : QosSet := {}
  captured : Option QosSet := none
  /-- Deficits (R164, R165). -/
  ptnDeficit : SMap Int := []
  ringDeficit : SMap Int := []
  /-- The partition being visited and the descriptors fetched in the visit; ring visits likewise. -/
  visit : Option Nat := none
  visitCount : Nat := 0
  ringVisit : SMap Nat := []
  ringCount : SMap Nat := []
  lastUrgent : Nat := 0
  lastFloor : Nat := 63
  lastIso : SMap Nat := []
  /-- Descriptors fetched and urgent descriptors honoured in this frame, by partition. -/
  fetched : SMap Nat := []
  urgentUsed : SMap Nat := []
  /-- Urgent rings that lost their priority for the frame (R170), at 16p + n. -/
  urgentEnded : SMap Bool := []
  /-- Every urgent budget counts as spent for the rest of the frame (R473). -/
  urgentSpent : Bool := false
  /-- Floor capacity in this frame, in thousandths of a descriptor (R168). -/
  capacityNow : Nat := 400000
  /-- Partitions eligible since the frame began (R472). -/
  eligible : List Nat := []
  /-- Partitions whose QOS_VIOL_RSV this frame adds to (R472). -/
  rsvFlag : SMap Bool := []
  /-- Requests and operations of the block itself that ran as the set in force was applied (R180). -/
  overRun : List Nat := []
  overInternal : List (Nat × Nat) := []
  /-- Reservations moved or suspended because their unit left service (R179): entry ↦ 64 + instance, or 1. -/
  moved : SMap Nat := []
  /-- A set applied by the apply of a QOS section waits for the boundary (R99). -/
  applyWaits : Bool := false
  deriving DecidableEq, Repr

/-- The free pool of the Basin (R217, R218, R236). -/
structure Basin where
  /-- Free cells of each bank. -/
  free : List Nat := List.replicate 8 4096
  next : Nat := 0
  /-- Queues with a link word that holds bad symbols; true is uncorrectable (R236). -/
  badLinks : SMap Bool := []
  /-- The banks of the cells that a running audit will find astray (R236). -/
  stray : List Nat := []
  deriving DecidableEq, Repr

/-- What a check of an engine finds: its duplicated control differs; a towpath word fails its check (R399); two computations of one
result differ, or a result fails its check (R278, R366); a word of its working or operand memory has one bad symbol, or more (R335,
R387). -/
inductive UpsetKind where
  | duplicate | towpath | check | corrected | uncorrectable
  deriving DecidableEq, Repr

/-- A fault in the logic or the memory of an engine, by class and physical instance, that its check has yet to find (R278, R335, R366,
R387, R399). -/
structure Upset where
  cls : Nat
  phys : Nat
  kind : UpsetKind
  deriving DecidableEq, Repr

/-- What the fault collector holds beside its registers (R512, R513). -/
structure Flt where
  /-- A CRITICAL event came before an end phase: T1 starts there. -/
  t1Waits : Bool := false
  /-- T2 starts at the next end phase: the reset under way was entered by T1 expiry. -/
  t2Waits : Bool := false
  /-- The 25 ms to an end phase after T1 expiry runs. -/
  deadline : Bool := false
  /-- T1 has expired during a zeroize, which completes first (R506). -/
  t1Over : Bool := false
  /-- The 250 cc minimum low time of flt_err_n runs, and an FLT_PIN waits for its end. -/
  pinHold : Bool := false
  pinWanted : Bool := false
  /-- The highest severity applied to an event of each source since its status bit was set (R508, R512, R515). It says nothing of
  a source whose bit is clear. -/
  sevs : SMap Nat := []
  /-- Addresses of RW and RWL registers whose parity does not match: the cause of CFG_PARITY (R507). -/
  badRegs : List Nat := []
  /-- Addresses of such registers whose mismatch the parity check has yet to find (R507). -/
  flipped : List Nat := []
  /-- Faults that engines' checks have yet to find. -/
  upsets : List Upset := []
  deriving DecidableEq, Repr

end Sys2Proof.Machine
end

