-- ==== Sys2Proof/State/Engines.lean ====
section
/-!
DEFINITION. The stateful-signature records and log, and the code key cache (R296 to R302, R350 to R353).
-/
namespace Sys2Proof.Machine

/-- An index record of the keep domain (R296). STATE is 0 FREE, 1 ACTIVE, 2 EXHAUSTED. -/
structure HbsRec where
  state : Nat := 0
  keyId : Bytes := []
  owner : Nat := 0
  kind : Nat := 0
  next : Nat := 0
  high : Nat := 0
  limit : Nat := 0
  pending : Bool := false
  /-- ALG and the parameter codes of its key, by which the key slots that hold it are known (R300). -/
  alg : Byte := 0
  params : Bytes := []
  /-- When it was last used, as a count. -/
  used : Nat := 0
  deriving DecidableEq, Repr

/-- What a log record on its way to the boot flash is for (R297, R301, R302). -/
inductive LogFor where
  | window (keyId : Bytes)
  | keygen (keyId : Bytes) (req : Nat)
  | carry (keyId : Bytes)
  | commit
  deriving DecidableEq, Repr

/-- A log record handed to the mfs port (R299). -/
structure Append where
  purpose : LogFor
  high : Nat
  gen : Nat
  words : List W64
  deriving DecidableEq, Repr

/-- A compaction under way: KEY_IDs carried so far, and whether a scan is running (R302). -/
structure Compact where
  scanning : Bool := true
  carried : List Bytes := []
  /-- Records of this batch that are not acknowledged yet. -/
  waiting : Nat := 0
  last : Bool := false
  /-- The banks of the working table's 192 cells; empty until the pool has supplied them. -/
  cells : List Nat := []
  /-- Words of 16 bytes of the table that hold bad symbols; true is uncorrectable (R217, R234). -/
  bad : SMap Bool := []
  deriving DecidableEq, Repr

/-- The main side of the stateful schemes. -/
structure Hbs where
  /-- The record being looked up in the log: KEY_ID, owner, kind and limit (R300). -/
  scan : Option HbsRec := none
  /-- KEY_IDs that a scan found in no valid record, and those for which no record could be freed. -/
  unknown : List Bytes := []
  noRoom : List Bytes := []
  /-- Signing requests that wait for a window (R298 step 4), with their KEY_ID. -/
  waiters : List (Nat × Bytes) := []
  appends : List Append := []
  compact : Option Compact := none
  deriving DecidableEq, Repr

/-- An entry of the code key cache (R350). -/
structure CkcEntry where
  owner : Nat := 0
  alg : Nat := 0
  isPrivate : Bool := false
  pkid : Bytes := []
  rootReal : Bool := false
  granules : Nat := 0
  gen : Nat := 0
  data : Bytes := []
  /-- Freed once the requests that read it have ended (R353). -/
  doomed : Bool := false
  /-- The load or import that writes the entry and has not completed yet, and the slot that is to refer to a private key (R346, R352). -/
  loading : Option Nat := none
  target : Nat := 0
  /-- What the symbol code finds in the entry: 0 nothing, 1 a corrected word, 2 an uncorrectable one. -/
  mem : Nat := 0
  deriving DecidableEq, Repr

/-- The code key cache: entries by number, and the generation last given to each number (R434). -/
structure Ckc where
  entries : SMap CkcEntry := []
  gens : SMap Nat := []
  deriving DecidableEq, Repr

/-- What the keep domain holds for the rest of the block (R296, R299, R437, R440). -/
structure KeepKeys where
  secret : Option Bytes := none
  ptnGen : SMap Nat := []
  recs : List HbsRec := List.replicate 64 {}
  useCount : Nat := 0
  logSeq : Nat := 0
  logGen : Nat := 0
  /-- Records that the current log generation holds. -/
  genRecords : Nat := 0
  /-- During a compaction, the records that the next generation holds; it outlasts a reset (R302). -/
  newRecords : Option Nat := none
  /-- KEY_IDs that the latest compaction carried. -/
  carried : Nat := 0
  /-- The generations are unknown since the keep domain was lost, until the log is scanned (R300, R302). -/
  logLost : Bool := false
  deriving DecidableEq, Repr

end Sys2Proof.Machine
end

