-- ==== Sys2Proof/State/Poly.lean ====
section
/-!
DEFINITION. The polynomial engines: recipe memory, slots, cache areas and the run of a recipe (R304 to R335).
-/
namespace Sys2Proof.Machine

/-- A parameter set of the loaded recipes: its 128-byte descriptor (R330). -/
abbrev RecipeSet := Bytes

/-- The loaded contents of a recipe memory (R306, R329). A word that is not listed is zero. -/
structure Recipes where
  tag : W32 := 0
  sets : List RecipeSet := []
  words : SMap W32 := []
  deriving DecidableEq, Repr

/-- A cache area in use: the linked berth, and when it was last used as a count (R321, R322). -/
structure Area where
  berth : Nat
  used : Nat
  /-- What the symbol code finds in the area: 0 nothing, 1 a corrected word, 2 an uncorrectable one (R335). -/
  mem : Nat := 0
  deriving DecidableEq, Repr

/-- A recipe run on an engine, micro-command by micro-command (R331). -/
structure RecipeRun where
  req : Nat
  /-- The set descriptor and the entry it runs. -/
  set : RecipeSet
  entry : Nat
  pc : Nat
  /-- q of the selected modulus set. -/
  q : Nat
  /-- Bytes of the input item and of the key stream consumed. -/
  itemPos : Nat := 0
  keyPos : Nat := 0
  out : Bytes := []
  result : Bytes := []
  /-- Keccak: function, bytes absorbed, bytes squeezed. -/
  kFn : Nat := 0
  kIn : Bytes := []
  kOut : Nat := 0
  reject : Bool := false
  flag : Bool := false
  iters : Nat := 0
  deriving DecidableEq, Repr

/-- The shares of a masked slot beside the one that completes them to its value: arithmetic, or Boolean after a conversion (R308, R331). -/
structure Shares where
  boolean : Bool := false
  masks : List (List Nat) := []
  deriving DecidableEq, Repr

/-- A polynomial engine by its physical number. A slot that is not listed holds zeros. -/
structure Ply where
  rcp : Recipes := {}
  /-- The values of the slots, and the shares of those that are masked. -/
  slots : SMap (List Nat) := []
  shares : SMap Shares := []
  run : Option RecipeRun := none
  /-- Cache areas in use, by number 0–11. -/
  areas : SMap Area := []
  /-- Counts loads, to tell links made before one (R321). -/
  useCount : Nat := 0
  /-- A PLY_RECIPES section that waits until the running operation has ended (R99). -/
  waiting : Option Bytes := none
  /-- The partition whose request it began last (R307). -/
  served : Option Nat := none
  /-- fc of work that used its mask expander since that last reseeded itself (R307). -/
  expander : Nat := 0
  /-- Recipe words with bad symbols; true is uncorrectable (R335). -/
  bad : SMap Bool := []
  /-- Out of service until its recipe memory is restored (R335). -/
  restoring : Bool := false
  /-- Its contents were lost in OFF or zeroized at its return: a copy follows (R523, R534). -/
  woken : Bool := false
  deriving DecidableEq, Repr

end Sys2Proof.Machine
end

