-- ==== Sys2Proof/State/Power.lean ====
section
/-!
DEFINITION. Power domains, the governor's ballast, units being drained, and the lifetime counters (R520 to R539).
-/
namespace Sys2Proof.Machine

/-- A PWR_UNIT_CTRL drain that waits for the unit's work: class and logical instance (R534). -/
structure UnitDrain where
  cls : Nat
  inst : Nat
  deriving DecidableEq, Repr

/-- The power controller. Domain states: 0 OFF, 1 RETENTION, 2 ON, 3 WAKING. -/
structure Power where
  /-- The state of each domain; one that is not listed is in its state at reset. -/
  dom : SMap Nat := []
  /-- Domain requests outstanding on the pm port, and those that wait for one of the four (R62): domain, pm_op. -/
  asked : List (Nat × Nat) := []
  queue : List (Nat × Nat) := []
  /-- Domains with a request that has had no acknowledgement for 100 µs (R64). -/
  late : List Nat := []
  /-- Domains whose wake is from OFF (R523). -/
  fromOff : List Nat := []
  /-- Units under ballast: class code as PWR_MAP, 0 for Lockkeepers, and physical instance (R528). -/
  ballast : List (Nat × Nat) := []
  drain : Option UnitDrain := none
  /-- The draw has not yet come under a lowered cap (R65). -/
  capWait : Bool := false
  /-- Reservations suspended because the cap cannot cover the counted items, by partition (R530). -/
  capSusp : List Nat := []
  deriving DecidableEq, Repr

/-- Lifetime counters by INDEX in the keep domain, and the increments that wait for the next commit (R537, R539). -/
structure Lifetime where
  counts : SMap Nat := []
  fresh : SMap Nat := []
  /-- Seconds towards the next hour of the hour counters, by INDEX (R537). -/
  secs : SMap Nat := []
  /-- The initialisation record of the keep domain, the fixed pattern with its KMAC256: the device identity that the KMAC256 was
  computed under; none when the pattern or the KMAC256 does not stand (R501). -/
  record : Option (List Byte) := some (List.replicate 8 0)
  deriving DecidableEq, Repr

end Sys2Proof.Machine
end

