-- ==== Sys2Proof/State/Rng.lean ====
section
/-!
DEFINITION. The noise sources, the conditioner and the DRBG instances (R388 to R410).
-/
namespace Sys2Proof.Machine

/-- The settings of a noise source (R388, R389, R410). -/
structure SrcParams where
  ent : Nat
  rctC : Nat
  aptC : Nat
  acC : Nat
  deriving DecidableEq, Repr

def srcDefaults : List SrcParams :=
  [{ ent := 512, rctC := 61, aptC := 813, acC := 120 }, { ent := 819, rctC := 39, aptC := 685, acC := 120 },
   { ent := 922, rctC := 35, aptC := 646, acC := 120 }]

/-- A noise source: its open window of samples newest first, the run it ends with, the samples that wait to form a
conditioned block and the conditioned blocks that wait (R389 to R393). -/
structure NoiseSrc where
  window : List Bool := []
  run : Nat := 0
  /-- The latest sample, which the run repeats. -/
  bit : Bool := false
  acc : List Bool := []
  blocks : List Bytes := []
  /-- Places in the open window, oldest first, of samples read through RNG_RAW, which are not conditioned (R411). -/
  shown : List Nat := []
  /-- During a recalibration: whether the latest 1,024 samples passed the start-up tests, once there are as many (R392). -/
  retest : Option Bool := none
  /-- Recalibrated once since the RNG last started (R404). -/
  retried : Bool := false
  params : SrcParams
  deriving DecidableEq, Repr

/-- A CTR_DRBG instance (R394, R395). -/
structure Drbg where
  seeded : Bool := false
  st : Bytes := []
  calls : Nat := 0
  /-- The last 128-bit output block (R396). -/
  last : Bytes := []
  /-- What its latest call generated for its towpath stream and has not been streamed (R395). -/
  out : Bytes := []
  /-- CALLS_LOG2 and RESEED_MS as of its last seeding (R410). -/
  callsLog2 : Nat := 16
  reseedMs : Nat := 100
  deriving DecidableEq, Repr

/-- The RNG (R388 to R410). Instances 0 to 5 are ROOT, SYM, PLY, BNE, KEY and SW. -/
structure Rng where
  srcs : List NoiseSrc := srcDefaults.map (fun p => { params := p })
  pool : List Bytes := []
  /-- The latest combined block (R396). -/
  prev : Bytes := []
  insts : List Drbg := List.replicate 6 {}
  /-- ROOT's reseed waits for two blocks of the pool (R395). -/
  rootWaits : Bool := false
  /-- The towpath buffers of 2,048 bits, at 64 × class + physical instance; the key store's halves are of class 8 (R397). -/
  tow : SMap Bytes := []
  /-- ENABLE in force (R410). -/
  enable : Nat := 7
  /-- An applied RNG_PARAMS section that waits for the next reseed, and source settings that wait for their next window
  (R99, R410). -/
  waiting : Option Bytes := none
  nextParams : List (Option SrcParams) := [none, none, none]
  /-- The words of RNG_DATA already read from the current block (R402). -/
  read : List Nat := []
  deriving DecidableEq, Repr

end Sys2Proof.Machine
end

