-- ==== Sys2Proof/State/Tamper.lean ====
section
/-!
DEFINITION. The tamper monitors (R482 to R506): counting windows, confirmations, actions under way and the signed
unlock. Flags, action sets and times stand in the registers of the keep domain.
-/
namespace Sys2Proof.Machine

/-- A source's counting window and its unconfirmed detection (R483, R484). -/
structure TmpSrc where
  /-- Detections in the open window; 0 when none is open. -/
  count : Nat := 0
  /-- The detectors whose detections wait for the other's, each 2 ms, oldest first. -/
  waits : List Nat := []
  /-- FENCE_ENGINES or THROTTLE of its set are in force: bits 3 and 2. -/
  inForce : Nat := 0
  /-- The cause has ended and FENCE_HOLD runs. -/
  holding : Bool := false
  /-- The time of the latest alarm, as LAST records it (R488). -/
  atLo : W32 := 0
  atHi : W32 := 0
  /-- The keep domain's copy of TMP_SRC_CFG, which counts and acts on the cell (R502). -/
  cfg : W32 := 0x030103E8
  deriving DecidableEq, Repr

/-- A zeroize between step 3 and step 4 (R492), and what follows it. -/
structure Zeroize where
  /-- Step 3 of R495 follows: the block is locked. -/
  lock : Bool := false
  /-- A life-cycle transition waits for it (R446). -/
  transition : Bool := false
  deriving DecidableEq, Repr

structure Tamper where
  srcs : List TmpSrc := List.replicate 12 {}
  /-- Actions queued on the cell, and disagreements found there by source (R503). -/
  pending : Nat := 0
  disagree : List Nat := []
  /-- Actions that wait for an end phase of start-up, by source (R490, R504). -/
  deferred : List (Nat × Nat) := []
  /-- The alarms whose actions are being carried out: source and action set (R490). -/
  alarms : List (Nat × Nat) := []
  /-- The actions of their union still to begin, and those that one carried out contains. -/
  todo : Nat := 0
  done : Nat := 0
  zeroize : Option Zeroize := none
  /-- The action whose completion is being verified, by bit, if one has a bound running (R491). -/
  acting : Option Nat := none
  /-- THROTTLE, begun before the action under way, is not complete yet (R490). -/
  throttling : Bool := false
  /-- Actions, by bit, that will not verify within their bound, and detectors, by source, whose built-in self-test will find them
  failed (R483, R491). -/
  unsound : Nat := 0
  broken : List (Nat × Nat) := []
  /-- tmp_ext level read, after debounce. -/
  lines : List Bool := [false, false, false, false]
  /-- The unlock record being fetched: the bytes that have arrived. -/
  record : Bytes := []
  /-- After a LOCK, the ASIDs under which the entries of the requests that it ended are still written (R492, R495). -/
  asids : SMap Nat := []
  /-- The mask last written to TMP_FLAG_CLEAR (R498). -/
  mask : Nat := 0
  deriving DecidableEq, Repr

end Sys2Proof.Machine
end

