-- ==== Sys2Proof/Machine/State.lean ====
section
/-!
DEFINITION. The whole state of Partar 3 as plain data, the reasons a step can stop, and the state after reset.
-/
namespace Sys2Proof.Machine

/-- Why a step can stop with a fault. No command of this block stops the model: every rule of the spec that speaks
of a fault gives the block a state to go to, so no meaning answers with this. -/
inductive Fault where
  /-- Raised by no meaning. Safe: it can only stop a run, and no run reaches it. -/
  | noState
  deriving DecidableEq, Repr

/-- Why a step can be refused. -/
inductive Refusal where
  /-- The command has no meaning in the model yet. Raised by `exec` alone. Safe: it only stops a run. -/
  | notModelled (mnemonic : String)
  deriving DecidableEq, Repr

/-- The machine. -/
structure State where
  /-- The commands that wait, first in, first out. -/
  pending : List Instr := []
  /-- The model's own counter of free values drawn. -/
  free : Nat := 0
  /-- The register file by aperture address; a register that is not listed holds its reset value (R546). -/
  regs : SMap W32 := []
  port : Port := {}
  pins : Pins := {}
  reqs : List Req := []
  tows : List Tow := []
  /-- The completion unit's finished entries, in the order they finished (R116). -/
  cu : List Entry := []
  nextReq : Nat := 0
  nextTow : Nat := 0
  nextSeq : Nat := 0
  reads : List ReadXfer := []
  writes : List WriteXfer := []
  /-- The vectors that are pending, in the order they became so (R42, R43). -/
  irqs : List IrqMsg := []
  /-- Coalescing, by 16p + n (R141). -/
  coal : SMap Coal := []
  /-- In-place slots whose completions are written and that the head has not passed: partition, ring, index (R136). -/
  inPlaceDone : List (Nat × Nat × Nat) := []
  retries : List Retry := []
  /-- Descriptors of the run that the last one fetched from a ring has left open with CHAIN, by 16p + n (R145). -/
  chainRun : SMap Nat := []
  /-- The index that an in-place ring fetches next, by 16p + n; on another ring it is the head (R108, R136). -/
  fetchNext : SMap Nat := []
  sched : Sched := {}
  basin : Basin := {}
  flt : Flt := {}
  /-- Units that events of this command contain, with the events' DETAIL; empty between commands (R509). -/
  toContain : List (Nat × Nat) := []
  /-- Rings in STOPPING whose flush has ended before the tail: a fetch fault, or a full completion ring during a
  function reset (R139, R468). -/
  flushEnded : List (Nat × Nat) := []
  lks : List Lk := List.replicate 8 {}
  /-- Key slots that are not EMPTY (R413). -/
  keys : SMap KeySlot := []
  /-- KEY_STAGE0–15 of each partition, at 16p + n (R422). -/
  staging : SMap W32 := []
  /-- Berths that are not FREE (R257), and the generation last given to each (R261). -/
  berths : SMap Berth := []
  berthGens : SMap W32 := []
  /-- Seals of each partition since block reset (R264). -/
  seals : SMap Nat := []
  /-- Round-key caches of the cipher cores, newest first (R246). -/
  roundKeys : SMap (List RoundKeys) := []
  hbs : Hbs := {}
  ckc : Ckc := {}
  keep : KeepKeys := {}
  /-- PTN_GEN of the partition table (R437). -/
  tableGen : SMap Nat := []
  /-- OTP words that are not zero (R442), and the programs waiting for the otp port. -/
  otp : SMap W32 := []
  otpJobs : List OtpJob := []
  /-- Units out of service: class code of PWR_MAP and physical instance (R510). -/
  outMarks : List (Nat × Nat) := []
  rng : Rng := {}
  power : Power := {}
  life : Lifetime := {}
  /-- The polynomial engines by physical number. -/
  plys : List Ply := List.replicate 16 {}
  /-- Working memories of the code engines by physical number, from address 0 on; bytes past the end of a list are zeros (R338). -/
  codWork : List Bytes := List.replicate 4 []
  /-- The operand memories by physical number. -/
  operands : List Operands := List.replicate 8 {}
  curves : Curves := {}
  boot : Boot := {}
  /-- Function resets under way (R466). -/
  resets : List FnReset := []
  tamper : Tamper := {}
  /-- The lengths and times of the LIMITS section in force, as loaded (R92). -/
  limits : Bytes := []
  deriving DecidableEq, Repr

/-- The block right after chip cold reset. -/
def State.reset : State := {}

end Sys2Proof.Machine
end

