-- ==== Sys2Proof/Machine/Ops.lean ====
section
/-!
DEFINITION. The named operations over the state: the register file, the partition table, vectors, requests, completion
places, the Basin pool and the DMA master port.
-/
namespace Sys2Proof.Machine

/-! ### The register file -/

/-- The word a register holds. -/
def State.reg (s : State) (r : RegId) (i : Nat := 0) (j : Nat := 0) : W32 :=
  getKey (r.resetVal i j) s.regs (r.addr i j)

/-- A field [hi:lo] of a register. -/
def State.regF (s : State) (r : RegId) (hi lo : Nat) (i : Nat := 0) (j : Nat := 0) : Nat := fld (s.reg r i j) hi lo

/-- Bit b of a register. -/
def State.regB (s : State) (r : RegId) (b : Nat) (i : Nat := 0) (j : Nat := 0) : Bool := bitOf (s.reg r i j) b

/-- The machine with a register set to a word. -/
def State.setReg (s : State) (r : RegId) (v : W32) (i : Nat := 0) (j : Nat := 0) : State :=
  { s with regs := setKey (r.resetVal i j) s.regs (r.addr i j) v }

/-- The machine with the field [hi:lo] of a register set. -/
def State.setF (s : State) (r : RegId) (hi lo v : Nat) (i : Nat := 0) (j : Nat := 0) : State :=
  s.setReg r (setFld (s.reg r i j) hi lo v) i j

/-- The machine with bit b of a register set or cleared. -/
def State.setB (s : State) (r : RegId) (b : Nat) (v : Bool) (i : Nat := 0) (j : Nat := 0) : State :=
  s.setReg r (setBit (s.reg r i j) b v) i j

/-! ### Free values -/

/-- The machine once a free value has been drawn. -/
def State.drawn (s : State) : State := { s with free := s.free + 1 }

/-- The next free value. -/
def State.pick (s : State) : Nat := Config.pick s.free

/-- `n` random bytes of the next draw. -/
def State.random (s : State) (n : Nat) : Bytes := (numsFrom 0 n).map (Config.rand s.free)

/-- `n` bytes, from position `pos` on, of the DRBG values that a request drew as it started (R398); bytes that it did not draw are
free. -/
def State.value (s : State) (r : Req) (n : Nat) (pos : Nat := 0) : Bytes :=
  slice r.draws pos n ++ s.random (n - (r.draws.length - pos))

/-! ### Operand memory (R359, R361, R362) -/

/-- Words of the memory that a group of slots holds, in order. -/
def Operands.wordsAt (o : Operands) (slots : List Nat) : List Nat := slots.flatMap (fun i => numsFrom (i * o.slotWords) o.slotWords)

/-- Zeros are written over slots (R362). -/
def Operands.zero (o : Operands) (slots : List Nat) : Operands :=
  { o with words := o.words.filter (fun e => !slots.contains (e.1 / max 1 o.slotWords)) }

/-- The operands of a request load into its group: the words of its item, one after another. DESIGN CHOICE: the spec does not say which
slot holds which operand; log entry 129. -/
def Operands.load (o : Operands) (id : Nat) (item : Bytes) : Operands :=
  match o.groups.find? (·.req = id) with
  | none => o
  | some g =>
    let ws := (numsFrom 0 (ceilDiv item.length 8)).map (fun i => BitVec.ofNat 64 (le64 item (8 * i)))
    { o with words := ((o.wordsAt g.slots).zip ws).foldl (fun m e => setKey 0 m e.1 e.2) o.words }

/-- The operands of a request load into the memory that holds its group. -/
def State.loadOperands (s : State) (r : Req) : State := { s with operands := s.operands.map (fun o => o.load r.id r.bas.input) }

/-- What a code engine has read of its request's item stands in its working memory, from address 0 on. DESIGN CHOICE: the spec does not
say where the memory holds what; log entry 134. -/
def State.loadWork (s : State) (r : Req) : State :=
  if r.unit = .cod ∧ r.phase = .running then
    { s with codWork := modAt (fun w =>
        let b := r.bas.input.take 0x30000
        b ++ w.drop b.length) (s.regF .pwrMap 5 0 4 r.inst) s.codWork }
  else s

/-- A code engine's working memory is zeroized (R356). -/
def State.zeroWork (s : State) (phys : Nat) : State := { s with codWork := modAt (fun _ => []) phys s.codWork }

/-- The request has an allocation in an operand memory. -/
def State.holdsGroup (s : State) (id : Nat) : Bool := s.operands.any (fun o => o.groups.any (·.req = id))

/-- The slots of a request's allocation are zeroized as it is released (R384, R387). -/
def State.sealGroup (s : State) (id : Nat) : State :=
  { s with operands := s.operands.map (fun o =>
      { o with groups := o.groups.map (fun g => if g.req = id then { g with secret := true } else g) }) }

/-! ### Phases and the partition table -/

/-- MGT_STATUS.PHASE. -/
def State.phase (s : State) : Nat := s.regF .mgtStatus 3 0

def phTamper : Nat := 1
def phLcDecode : Nat := 2
def phLoad : Nat := 3
def phVerify : Nat := 4
def phApply : Nat := 5
def phReady : Nat := 6
def phRejected : Nat := 7
def phLimited : Nat := 8

/-- The decoded life-cycle state, as lc_state (R68). -/
def State.lc (s : State) : Nat := s.regF .lcStatus 2 0
def lcBlank : Nat := 0
def lcFactory : Nat := 1
def lcProvisioned : Nat := 2
def lcDeployed : Nat := 3
def lcReturn : Nat := 4
def lcDecom : Nat := 5
def lcLocked : Nat := 6
def lcDecoding : Nat := 7

/-- The engines' internal functions are accepted: FACTORY_TEST and RETURN_DIAG (R450). -/
def State.testFunctions (s : State) : Bool := s.lc == lcFactory || s.lc == lcReturn

/-- RNG_STATUS.STATE. -/
def State.rngState (s : State) : Nat := s.regF .rngStatus 2 0
def rngStarting : Nat := 0
def rngReady : Nat := 1
def rngHalted : Nat := 2
def rngResetting : Nat := 3

/-- The block is in the safe state (R516). -/
def State.safe (s : State) : Bool := s.regB .fltEsc 26

/-- THROTTLE or FENCE_ENGINES is in force (bits 2 and 3 of a source's set). -/
def State.inForce (s : State) (b : Nat) : Bool := s.tamper.srcs.any (fun t => t.inForce.testBit b)

/-- Nothing is granted, fetched or started in the safe state, during a zeroize, and from the request of a block reset on
(R477, R492 step 1, R516). -/
def State.held (s : State) : Bool := s.safe || s.tamper.zeroize.isSome || s.pins.blkRstReq != 0

def State.enabled (s : State) (p : Nat) : Bool := s.regB .mgtPtnA 31 p
def State.keyWrite (s : State) (p : Nat) : Bool := s.regB .mgtPtnA 30 p
def State.urgentPriv (s : State) (p : Nat) : Bool := s.regB .mgtPtnA 29 p
/-- The running membership of the isolated class (R178). -/
def State.isolated (s : State) (p : Nat) : Bool := s.regB .mgtPtnA 28 p
def State.vecMax (s : State) (p : Nat) : Nat := s.regF .mgtPtnA 17 12 p
def State.cqMax (s : State) (p : Nat) : Nat := s.regF .mgtPtnA 10 6 p
def State.sqMax (s : State) (p : Nat) : Nat := s.regF .mgtPtnA 4 0 p
def State.asid (s : State) (p : Nat) : Nat := getKey (s.regF .mgtPtnB 15 0 p) s.tamper.asids p
def State.keyQuota (s : State) (p : Nat) : Nat := s.regF .mgtPtnC 28 16 p
def State.berthQuota (s : State) (p : Nat) : Nat := s.regF .mgtPtnC 14 0 p

/-- The value in force of KEY_PTN_GEN p (R437). -/
def State.ptnGen (s : State) (p : Nat) : Nat := max (getKey 0 s.keep.ptnGen p) (getKey 0 s.tableGen p)

/-! ### Vectors and ring events -/

/-- Fires vector v of partition p (R42, R460). `after` are the writes that its message waits for (R22). -/
def State.fireVec (s : State) (p v : Nat) (after : List Nat := []) : State :=
  if !s.enabled p then s
  else if s.vecMax p ≤ v then s.setB .ptnStatus 13 true p
  else if s.irqs.any (fun m => m.ptn = p ∧ m.vec = v) then
    { s with irqs := s.irqs.map (fun m => if m.ptn = p ∧ m.vec = v then { m with after := m.after ++ after } else m) }
  else { s with irqs := s.irqs ++ [{ ptn := p, vec := v, after := after }] }

/-- Sets bit b of RING_EVENT of partition p; a bit that becomes set fires RING_EVENT_CFG.VEC if enabled (R107). -/
def State.ringEvent (s : State) (p b : Nat) : State :=
  if s.regB .ringEvent b p then s
  else
    let s := s.setB .ringEvent b true p
    if s.regB .ringEventCfg 8 p then s.fireVec p (s.regF .ringEventCfg 4 0 p) else s

/-! ### Rings -/

/-- N of a submission ring and of a completion ring (R104). -/
def State.sqSize (s : State) (p n : Nat) : Nat := 2 ^ s.regF .sqCfg 4 0 p n
def State.cqSize (s : State) (p n : Nat) : Nat := 2 ^ s.regF .cqCfg 4 0 p n
def State.sqHead (s : State) (p n : Nat) : Nat := (s.reg .sqHead p n).toNat
def State.sqTail (s : State) (p n : Nat) : Nat := (s.reg .sqTail p n).toNat
def State.cqHead (s : State) (p n : Nat) : Nat := (s.reg .cqHead p n).toNat
def State.cqTail (s : State) (p n : Nat) : Nat := (s.reg .cqTail p n).toNat

/-- SQ_STATUS.STATE: 0 DISABLED, 1 RUNNING, 2 STOPPING, 3 STOPPED, 4 FAULT. -/
def State.sqState (s : State) (p n : Nat) : Nat := s.regF .sqStatus 2 0 p n
/-- CQ_STATUS.STATE: 0 DISABLED, 1 RUNNING, 2 FAULT. -/
def State.cqState (s : State) (p n : Nat) : Nat := s.regF .cqStatus 1 0 p n
def State.setSqState (s : State) (p n st : Nat) : State := s.setF .sqStatus 2 0 st p n
def State.setCqState (s : State) (p n st : Nat) : State := s.setF .cqStatus 1 0 st p n
/-- The completion ring that a submission ring names, and whether it completes in place. -/
def State.sqCq (s : State) (p n : Nat) : Nat := s.regF .sqCfg 23 20 p n
def State.sqInPlace (s : State) (p n : Nat) : Bool := s.regB .sqCfg 16 p n
def State.sqBase (s : State) (p n : Nat) : Nat := (s.reg .sqBaseLo p n).toNat + 2 ^ 32 * (s.reg .sqBaseHi p n).toNat
def State.cqBase (s : State) (p n : Nat) : Nat := (s.reg .cqBaseLo p n).toNat + 2 ^ 32 * (s.reg .cqBaseHi p n).toNat

/-- (a − b) modulo 2N (R105). -/
def ringSub (n a b : Nat) : Nat := (a + (2 * n - b % (2 * n))) % (2 * n)

/-- The fill count of a ring (R105). -/
def State.sqFill (s : State) (p n : Nat) : Nat := ringSub (s.sqSize p n) (s.sqTail p n) (s.sqHead p n)
def State.cqFill (s : State) (p n : Nat) : Nat := ringSub (s.cqSize p n) (s.cqTail p n) (s.cqHead p n)

/-- The index that the next descriptor is fetched from, and the descriptors from it to the tail (R108, R136). -/
def State.sqNext (s : State) (p n : Nat) : Nat :=
  if s.sqInPlace p n then getKey 0 s.fetchNext (16 * p + n) else s.sqHead p n
def State.sqAvail (s : State) (p n : Nat) : Nat := ringSub (s.sqSize p n) (s.sqTail p n) (s.sqNext p n)

/-- An index that follows another on a ring of N entries. -/
def ringNext (n i : Nat) : Nat := (i + 1) % (2 * n)

/-- A descriptor has been fetched: the head advances past it, or the place of the next fetch of an in-place ring
does (R108, R136). -/
def State.sqFetched (s : State) (p n : Nat) : State :=
  let i := ringNext (s.sqSize p n) (s.sqNext p n)
  if s.sqInPlace p n then { s with fetchNext := setKey 0 s.fetchNext (16 * p + n) i }
  else s.setReg .sqHead (BitVec.ofNat 32 i) p n

/-! ### Requests -/

def State.findReq (s : State) (id : Nat) : Option Req := s.reqs.find? (fun r => r.id = id)

/-- The machine with the request `id` changed by `f`. -/
def State.updReq (s : State) (id : Nat) (f : Req → Req) : State :=
  { s with reqs := s.reqs.map (fun r => if r.id = id then f r else r) }

def State.findTow (s : State) (id : Nat) : Option Tow := s.tows.find? (fun t => t.id = id)

def State.updTow (s : State) (id : Nat) (f : Tow → Tow) : State :=
  { s with tows := s.tows.map (fun t => if t.id = id then f t else t) }

/-- The request has not completed: its entry is not written. -/
def Req.open (r : Req) : Bool := r.phase != .written

/-- The flags of a descriptor (R118). -/
def Desc.flag (d : Desc) (b : Nat) : Bool := d.flags.getLsbD b
def Desc.chain (d : Desc) : Bool := d.flag 0
def Desc.urgent (d : Desc) : Bool := d.flag 1
def Desc.irq (d : Desc) : Bool := d.flag 2
def Desc.holdOut (d : Desc) : Bool := d.flag 4
def Desc.holdIn (d : Desc) : Bool := d.flag 5
def Desc.scrubOnFail (d : Desc) : Bool := d.flag 6

/-- The opcode that a byte names (R124, R126). -/
def Op.ofCode (c : Nat) : Option Op := Op.all.find? (fun o => o.code = c)

def Desc.op (d : Desc) : Option Op := Op.ofCode d.opcode.toNat

/-- FENCE, forced on for the opcode FENCE (R118, R127). -/
def Desc.fence (d : Desc) : Bool := d.flag 3 || d.opcode == 1

/-- A descriptor from its 64 bytes (R117). -/
def Desc.ofBytes (b : Bytes) : Desc :=
  { opcode := BitVec.ofNat 8 (byteAt b 0x00), alg := BitVec.ofNat 8 (byteAt b 0x01), flags := BitVec.ofNat 16 (le16 b 0x02),
    reqTag := BitVec.ofNat 32 (le32 b 0x04), keyH := BitVec.ofNat 32 (le32 b 0x08), berthH := BitVec.ofNat 32 (le32 b 0x0C),
    srcAddr := BitVec.ofNat 64 (le64 b 0x10), srcLen := BitVec.ofNat 32 (le32 b 0x18), auxLen := BitVec.ofNat 32 (le32 b 0x1C),
    dstAddr := BitVec.ofNat 64 (le64 b 0x20), dstLen := BitVec.ofNat 32 (le32 b 0x28), param := BitVec.ofNat 32 (le32 b 0x2C),
    auxAddr := BitVec.ofNat 64 (le64 b 0x30), resultH := BitVec.ofNat 32 (le32 b 0x38), reserved := BitVec.ofNat 32 (le32 b 0x3C) }

/-- Requests of ring n of partition p whose entry is not written. -/
def State.ringReqs (s : State) (p n : Nat) : List Req := s.reqs.filter (fun r => r.ptn = p ∧ r.ring = n ∧ r.open)

/-! ### Completion places (R114 to R116) -/

/-- Slots of a completion ring that are reserved for entries not yet written. -/
def State.cqReserved (s : State) (p c : Nat) : Nat :=
  (s.reqs.filter (fun r => r.ptn = p ∧ r.open ∧ r.place = .ringSlot ∧ s.sqCq p r.ring = c)).length +
  (s.reads.filter (fun x => match x.purpose with
    | .flush q n => q = p ∧ !s.sqInPlace p n ∧ s.sqCq p n = c
    | _ => false)).length

/-- Slots of a completion ring that are free and unreserved. -/
def State.cqRoom (s : State) (p c : Nat) : Nat := s.cqSize p c - (s.cqFill p c + s.cqReserved p c)

/-- Entries of a partition, for one completion ring or for all, whose place is a holding entry and which have been issued to the ring
and are not yet accepted, or wait there for a retry (R140). -/
def State.heldOut (s : State) (p : Nat) (c : Option Nat) : Nat :=
  (s.writes.filter (fun w => match w.purpose with
    | .entry q _ d _ held => !w.dead && held && decide (q = p) && c.all (fun c => d == c)
    | _ => false)).length +
  (s.retries.filter (fun r => decide (r.ptn = p ∧ r.place = .holding) && !r.running && c.all (fun c => r.cq == c))).length

/-- Holding entries of a partition that are reserved or occupied (R115). -/
def State.holdingUsed (s : State) (p : Nat) : Nat :=
  (s.reqs.filter (fun r => r.ptn = p ∧ r.open ∧ r.place = .holding)).length + s.heldOut p none

/-- The entry of ring n of partition p is on its way to host memory: issued and not accepted, or kept for a retry. -/
def State.entriesOut (s : State) (p n : Nat) : Bool :=
  s.writes.any (fun w => match w.purpose with
    | .entry q r _ _ _ => !w.dead && q == p && r == n
    | _ => false) ||
  s.retries.any (fun r => r.ptn == p && r.ring == n)

/-- The place that the next `k`-th admission of ring n would take: `ring` slots and `held` holding entries are taken
before it in the same step. -/
def State.nextPlace (s : State) (p n ring held : Nat) : Option Place :=
  if s.sqInPlace p n then some .inPlace
  else
    let c := s.sqCq p n
    if s.cqState p c = 1 ∧ ring < s.cqRoom p c then some .ringSlot
    else if s.holdingUsed p + held < 256 then some .holding
    else none

/-- Places for `k` members of ring n, reserved in one step, or none at all (R114, R148). -/
def State.places (s : State) (p n : Nat) : Nat → Nat → Nat → Option (List Place)
  | 0, _, _ => some []
  | k + 1, ring, held =>
    match s.nextPlace p n ring held with
    | none => none
    | some pl =>
      (s.places p n k (if pl = .ringSlot then ring + 1 else ring) (if pl = .holding then held + 1 else held)).map (pl :: ·)

/-- Gives each request of a list its place. -/
def State.givePlaces (s : State) : List (Nat × Place) → State
  | [] => s
  | (id, pl) :: rest => (s.updReq id (fun r => if r.place = .none then { r with place := pl } else r)).givePlaces rest

/-! ### The Basin pool (R217, R218, R222 to R224, R237) -/

/-- Banks out of service (BSN_ERR.BANK_OUT). -/
def State.bankOut (s : State) (b : Nat) : Bool := s.regB .bsnErr (24 + b)

/-- The next bank in ascending order from `b`, in service and with a free cell (R218). -/
def State.nextBank (s : State) (free : List Nat) : Nat → Nat → Option Nat
  | 0, _ => none
  | k + 1, b =>
    if !s.bankOut (b % 8) && decide (0 < free.getD (b % 8) 0) then some (b % 8) else s.nextBank free k (b + 1)

/-- Takes `n` cells from the pool: the banks they lie in, the free counts left and the next bank. -/
def State.takeCells (s : State) : Nat → List Nat → Nat → Option (List Nat × List Nat × Nat)
  | 0, free, b => some ([], free, b)
  | n + 1, free, b =>
    match s.nextBank free 8 b with
    | none => none
    | some k =>
      match s.takeCells n (modAt (· - 1) k free) (k + 1) with
      | none => none
      | some (bs, free, b) => some (k :: bs, free, b)

/-- Cells free in banks that are in service. -/
def State.poolFree (s : State) : Nat :=
  ((enumFrom 0 s.basin.free).map (fun (b, n) => if s.bankOut b then 0 else n)).sum

/-- Returns cells to the pool. -/
def State.returnCells (s : State) (banks : List Nat) : State :=
  { s with basin := { s.basin with free := banks.foldl (fun f b => modAt (· + 1) b f) s.basin.free } }

/-- Cells that the requests of a partition hold. -/
def State.cellsOf (s : State) (p : Nat) : Nat :=
  ((s.reqs.filter (fun r => r.ptn = p)).map (fun r => r.bas.inBanks.length + r.bas.outBanks.length)).sum

/-- The reservation entries in force that are valid, as words A and B (R173). -/
def State.rsvEntries (s : State) : List (Nat × W32 × W32) :=
  ((numsFrom 0 256).map (fun n => (n, getKey 0 s.sched.running.rsvA n, getKey 0 s.sched.running.rsvB n))).filter
    (fun e => bitOf e.2.1 31)

/-- The isolated partitions that hold a valid reservation entry (R224). -/
def State.isoHolders (s : State) : List Nat :=
  (numsFrom 0 64).filter (fun p => s.isolated p && s.rsvEntries.any (fun e => fld e.2.1 29 24 = p))

/-- BSN_CFG.ISO_RSV, above 8,192 taken as 8,192. -/
def State.isoRsv (s : State) : Nat := min (s.regF .bsnCfg 13 0) 8192

/-- The share of the isolated reserve that each holder has (R224). -/
def State.isoShare (s : State) : Nat :=
  if s.isoHolders.length = 0 then 0 else s.isoRsv / s.isoHolders.length

/-- Cells free in the isolated reserve (BSN_STATUS.ISO_FREE): the whole of ISO_RSV is kept apart from the shared pool, and a reserve that
was raised takes cells as they are freed (R224, R238). -/
def State.isoFree (s : State) : Nat := min (s.isoRsv - (s.isoHolders.map s.cellsOf).sum) s.poolFree

/-- Cells in the shared pool (BSN_STATUS.FREE). -/
def State.sharedFree (s : State) : Nat := s.poolFree - s.isoFree

/-- A grant of `n` cells to partition p can be made (R222, R224). -/
def State.canGrant (s : State) (p n : Nat) : Bool :=
  if s.isoRsv ≠ 0 ∧ s.isolated p then s.isoHolders.contains p && decide (s.cellsOf p + n ≤ s.isoShare) && decide (n ≤ s.isoFree)
  else decide (n ≤ s.sharedFree)

/-- The engines that work for the block itself under P0's tag, by class and logical instance: the verification of a staged image
(R96) and a curve check (R382). -/
def State.internal (s : State) : List (Nat × Nat) :=
  s.boot.stageUnits ++ (match s.curves.checking with
    | some (_, n) => [(5, n)]
    | none => [])

/-! ### Power domains -/

/-- The state of each domain at reset: OFF 0, RETENTION 1, ON 2, WAKING 3 (R520). -/
def domReset (d : Nat) : Nat := if d < 4 then 2 else if d < 35 then 1 else 0

/-- The state of a domain (R520). -/
def State.domState (s : State) (d : Nat) : Nat := getKey (domReset d) s.power.dom d

def State.setDom (s : State) (d v : Nat) : State :=
  { s with power := { s.power with dom := setKey (domReset d) s.power.dom d v } }

/-- The domain is ON and is not on its way to another state (R520). -/
def State.domOn (s : State) (d : Nat) : Bool := s.domState d == 2 && !(s.power.asked.any (fun e => e.1 = d))

/-! ### Lifetime counters (R537, R539) -/

/-- Increments of a counter wait for the next commit. -/
def State.lifeAdd (s : State) (i n : Nat) : State :=
  { s with life := { s.life with fresh := setKey 0 s.life.fresh i (getKey 0 s.life.fresh i + n) } }

/-! ### The DMA master port (R33 to R36) -/

/-- The physical instance behind a logical one (PWR_MAP, R535). -/
def State.physical (s : State) (cls n : Nat) : Nat := s.regF .pwrMap 5 0 cls n

/-- The power domain of a physical instance (chapter "Partar 3 at a glance", R520). -/
def classDomain (cls n : Nat) : Nat :=
  match cls with
  | 0 => 4 + n
  | 1 => 39 + n / 4
  | 2 => 51 + n / 4
  | 3 => 59 + n
  | 4 => 75 + n
  | 5 => 80 + n
  | 6 => 12 + n
  | 7 => 17 + n
  | 8 => 25 + n
  | _ => 79

/-- The domain of a running instance, by its logical number; Lockkeepers have no map. -/
def State.unitDomain (s : State) (cls n : Nat) : Nat := classDomain cls (if cls = 0 then n else s.physical cls n)

/-- The logical instance n of a PWR_MAP class is out of service; a polynomial engine is too while its recipe memory is
restored (R335). -/
def State.unitOut (s : State) (cls n : Nat) : Bool :=
  s.outMarks.contains (cls, s.physical cls n) || (cls == 3 && (s.plys.getD (s.physical cls n) {}).restoring)

/-- Instance n of a PWR_MAP class is being drained: no new work is given to it (R534). -/
def State.draining (s : State) (cls n : Nat) : Bool :=
  (s.power.drain.map (fun d => decide (d.cls = cls) && decide (d.inst = n))).getD false

/-- The completion unit is out of service (R64). -/
def State.cuOut (s : State) : Bool := s.outMarks.contains (10, 0)

/-- DMA engines that take transactions. -/
def State.dmaInService (s : State) (e : Nat) : Bool := !s.unitOut 6 e && !s.draining 6 e

end Sys2Proof.Machine
end

