-- ==== Sys2Proof/Machine/OpTable.lean ====
section
/-!
DEFINITION. What each opcode uses of its descriptor and which unit serves it, from the opcode tables of the engine
chapters (R119 to R127, R221, and R247 to R464 for the tables).
-/
namespace Sys2Proof.Machine

/-- The type and index of a handle (R122). -/
def handleType (h : W32) : Nat := fld h 31 28
def handleIndex (h : W32) : Nat := fld h 27 0

/-- ALG as a number. -/
def Desc.algN (d : Desc) : Nat := d.alg.toNat

def Desc.opIs (d : Desc) (o : Op) : Bool := d.op == some o

/-- A CMAC pseudorandom function, which runs on a cipher core (R285). -/
def Desc.cmacKdf (d : Desc) : Bool :=
  (d.opIs .kdf108 || d.opIs .kdf56cTwoStep) && decide (0x21 ≤ d.algN ∧ d.algN ≤ 0x23)

/-- The unit class that serves an opcode (R193, R203, R219, R285, R424, R462). -/
def Op.unit : Op → Unit
  | .nop | .fence => .lockkeeper
  | .copy => .dma
  | .getRandom => .rng
  | .encrypt | .decrypt | .aeadSeal | .aeadOpen | .macGenerate | .macVerify => .sym
  | .berthSetup | .berthSealOut | .berthSealIn | .berthRelease => .sym
  | .hash | .xof | .hmacGenerate | .hmacVerify | .kmacGenerate | .kmacVerify => .hsh
  | .hkdf | .hkdfExtract | .hkdfExpand | .kdf108 | .kdf56cOneStep | .kdf56cTwoStep => .hsh
  | .slhdsaKeygen | .slhdsaSign | .slhdsaVerify => .hsh
  | .hssKeygen | .hssSign | .hssVerify | .xmssKeygen | .xmssSign | .xmssVerify => .hsh
  | .mlkemKeygen | .mlkemEncaps | .mlkemDecaps => .ply
  | .mldsaKeygen | .mldsaSign | .mldsaVerify | .mldsaSignMu | .mldsaVerifyMu => .ply
  | .hqcKeygen | .hqcEncaps | .hqcDecaps | .mceImport | .mceEncaps | .mceDecaps | .ckcLoad | .ckcEvict => .cod
  | .modmul | .modexp | .modinv | .rsaPublic | .rsaPrivateCrt | .rsaPssSign | .rsaPssVerify => .bne
  | .rsaOaepEncrypt | .rsaOaepDecrypt | .rsaKeygen | .primeTest => .bne
  | .ecdsaSign | .ecdsaVerify | .ecdh | .ecKeygen | .eddsaSign | .eddsaVerify | .xdh => .bne
  | .keyGenerate | .keyDestroy | .keyDerive | .keyAttrRead => .key
  | .keyImportWrapped | .keyExportWrapped => .sym
  | .ptnInfo | .keyList | .qosRead => .dma

/-- The unit class that serves a descriptor. -/
def Desc.unit (d : Desc) : Option Unit := if d.cmacKdf then some .sym else d.op.map Op.unit

/-- Class 0x3_. -/
def Op.isKdf (o : Op) : Bool := o.code / 16 == 3

/-! ### Buffers (R120, R221) -/

/-- The opcode reads its source buffer; a key derivation and BERTH_SETUP read it for a wrapped blob only (R122). -/
def Desc.usesSrc (d : Desc) : Bool :=
  match d.op with
  | none => false
  | some o =>
    if o.isKdf || o == .berthSetup then decide (handleType d.keyH = 3)
    else !([.nop, .fence, .getRandom, .berthSealOut, .berthRelease, .slhdsaKeygen, .hssKeygen, .xmssKeygen, .mlkemKeygen,
      .mldsaKeygen, .hqcKeygen, .ckcEvict, .rsaKeygen, .ecKeygen, .keyGenerate, .keyDestroy, .keyDerive, .keyAttrRead,
      .keyExportWrapped, .ptnInfo, .keyList, .qosRead].contains o)

/-- The opcode reads its auxiliary buffer; MCE_ENCAPS does when CACHED (R348). -/
def Desc.usesAux (d : Desc) : Bool :=
  match d.op with
  | none => false
  | some .mceEncaps => bitOf d.param 0
  | some o => !([.nop, .fence, .copy, .berthSealOut, .berthSealIn, .berthRelease, .hash, .hmacGenerate, .hmacVerify, .slhdsaKeygen,
      .mlkemDecaps, .mldsaSignMu, .hqcDecaps, .mceDecaps, .ckcLoad, .modmul, .modexp, .modinv, .primeTest, .rsaPrivateCrt,
      .rsaPssSign, .ecdsaSign, .ecdh, .ecKeygen, .xdh, .keyGenerate, .keyDestroy, .keyAttrRead, .keyImportWrapped,
      .keyExportWrapped, .ptnInfo, .keyList, .qosRead].contains o)

/-- The opcode writes to the destination; a derivation, a shared value and a generated key do so under HOLD_OUT only
(R283, R375, R425, R428). -/
def Desc.writesDst (d : Desc) : Bool :=
  match d.op with
  | none => false
  | some o =>
    if o.isKdf || [.ecdh, .xdh, .keyGenerate, .keyDerive].contains o then d.holdOut
    else !([.nop, .fence, .macVerify, .berthSetup, .berthSealIn, .berthRelease, .hmacVerify, .kmacVerify, .slhdsaVerify, .hssVerify,
      .xmssVerify, .mlkemDecaps, .mldsaVerify, .mldsaVerifyMu, .hqcDecaps, .mceDecaps, .ckcEvict, .rsaPssVerify, .ecdsaVerify,
      .eddsaVerify, .keyDestroy, .keyImportWrapped].contains o)

/-! ### Handle fields -/

/-- The handle types that an opcode accepts in each field; none for a field it does not use (R121). -/
structure HandleUse where
  key : Option (List Nat) := none
  berth : Option (List Nat) := none
  result : Option (List Nat) := none
  deriving DecidableEq, Repr

/-- The types of a key that a request takes, and of a slot. -/
def keyTypes : List Nat := [1, 3, 4, 5]
def slotTypes : List Nat := [1, 5]
/-- The types of a result target: a slot, and a slot or a hold. 0 is refused with the target's arrangement. -/
def slotTargets : List Nat := [0, 1, 5]
def targets : List Nat := [0, 1, 4, 5]

/-- The handle fields that a descriptor uses (R254, R261 to R265, R280 to R292, R309 to R319, R342 to R353, R367 to
R374, R400, R424 to R433, R462). -/
def Desc.handles (d : Desc) : HandleUse :=
  match d.op with
  | none => {}
  | some o =>
    match o with
    | .nop | .fence | .copy | .slhdsaVerify | .hssVerify | .xmssVerify | .ckcLoad | .ckcEvict | .rsaPublic | .rsaPssVerify
    | .rsaOaepEncrypt | .primeTest | .ecdsaVerify | .eddsaVerify => {}
    | .getRandom | .ptnInfo | .keyList | .qosRead => { key := some [0], berth := some [0], result := some [0] }
    | .berthSetup => { key := some keyTypes, berth := some [0, 2, 5] }
    | .berthSealOut | .berthRelease => { berth := some [2, 5] }
    | .berthSealIn => { key := some [0], berth := some [0] }
    | .encrypt | .decrypt | .aeadSeal | .aeadOpen | .macGenerate | .macVerify =>
      { key := some (if d.berthH = 0 then keyTypes else [0]), berth := some [0, 2, 5] }
    | .hash | .xof | .modmul | .modexp | .modinv => { key := some [0] }
    | .hmacGenerate | .hmacVerify | .kmacGenerate | .kmacVerify | .slhdsaSign | .ecdsaSign | .eddsaSign => { key := some keyTypes }
    | .hkdf | .hkdfExtract | .hkdfExpand | .kdf108 | .kdf56cOneStep | .kdf56cTwoStep | .ecdh | .xdh =>
      { key := some keyTypes, result := some slotTargets }
    | .slhdsaKeygen | .hssKeygen | .xmssKeygen | .ecKeygen => { result := some slotTargets }
    | .hssSign | .xmssSign => { key := some [1, 3, 5] }
    | .mlkemKeygen | .mlkemEncaps | .hqcKeygen | .hqcEncaps => { key := some [0], result := some targets }
    | .mlkemDecaps | .hqcDecaps => { key := some keyTypes, result := some targets }
    | .mldsaKeygen => { key := some [0], berth := some [0], result := some targets }
    | .mldsaSign | .mldsaSignMu =>
      { key := some (if d.berthH = 0 then keyTypes else [0]), berth := some [0, 2, 5], result := some [0] }
    | .mldsaVerify | .mldsaVerifyMu => { key := some [0], berth := some [0] }
    | .mceImport => { key := some slotTypes, result := some slotTargets }
    | .mceEncaps => { result := some targets }
    | .mceDecaps => { key := some slotTypes, result := some targets }
    | .rsaPrivateCrt | .rsaPssSign | .rsaOaepDecrypt => { key := some [3] }
    | .rsaKeygen | .keyDestroy | .keyAttrRead | .keyExportWrapped => { key := some slotTypes }
    | .keyGenerate => { key := some [0], result := if d.holdOut then none else some slotTargets }
    | .keyDerive => { result := if d.holdOut then none else some slotTargets }
    | .keyImportWrapped => { key := some [3], result := some slotTargets }

/-- A handle field as far as the opcode uses it (R120). -/
def Desc.usedKey (d : Desc) : W32 := if d.handles.key.isSome then d.keyH else 0
def Desc.usedBerth (d : Desc) : W32 := if d.handles.berth.isSome then d.berthH else 0
def Desc.usedResult (d : Desc) : W32 := if d.handles.result.isSome then d.resultH else 0

end Sys2Proof.Machine
end

