-- ==== Sys2Proof/Machine/CheckSym.lean ====
section
/-!
DEFINITION. Checks 2 to 4 of the cipher and berth opcodes (R247 to R254, R261, R264, R265), and the form in which every
opcode states its checks.
-/
namespace Sys2Proof.Machine

/-- PARAM bits under a mask are zero. -/
def Desc.paramClear (d : Desc) (mask : Nat) : Bool := d.param &&& BitVec.ofNat 32 mask == 0

/-! ### Fields of a cipher descriptor (R248) -/

def Desc.mode (d : Desc) : Nat := d.alg.toNat / 16
def Desc.keyCode (d : Desc) : Nat := d.alg.toNat % 16
def Desc.ctrw (d : Desc) : Nat := fld d.param 15 14
def Desc.final (d : Desc) : Bool := bitOf d.param 10
def Desc.init (d : Desc) : Bool := bitOf d.param 9
def Desc.ivgen (d : Desc) : Bool := bitOf d.param 8
def Desc.tagLen (d : Desc) : Nat := fld d.param 4 0

def Desc.isAead (d : Desc) : Bool := d.opIs .aeadSeal || d.opIs .aeadOpen
def Desc.isMac (d : Desc) : Bool := d.opIs .macGenerate || d.opIs .macVerify
/-- The opcode checks a tag at the end of its source. -/
def Desc.verifies (d : Desc) : Bool := d.opIs .aeadOpen || d.opIs .macVerify

/-- Key codes of a mode (R247). -/
def symKeyCode (mode code : Nat) : Bool :=
  if mode = 8 then code == 0
  else if mode = 5 then code == 1 || code == 3
  else decide (mode ≤ 7) && decide (1 ≤ code ∧ code ≤ 3)

/-- Key bytes of an ALG of class 0x1_ (R254). -/
def symKeyLen (alg : Nat) : Nat :=
  let n := match alg % 16 with
    | 1 => 16
    | 2 => 24
    | _ => 32
  if alg / 16 = 5 then 2 * n else if alg / 16 = 8 then 32 else n

/-- ALG of the class 0x1_ opcodes (R247). -/
def symAlgOk (op : Op) (alg : Nat) : Bool :=
  let m := alg / 16
  let code := symKeyCode m (alg % 16)
  match op with
  | .encrypt | .decrypt => code && [0, 1, 2, 5].contains m
  | .aeadSeal | .aeadOpen => code && [3, 4, 8].contains m
  | .macGenerate | .macVerify => code && [6, 7].contains m
  | .berthSetup => code
  | _ => alg == 0

/-- Tag lengths of a mode (R253). -/
def tagLenOk (mode n : Nat) : Bool :=
  match mode with
  | 3 => [4, 8, 12, 13, 14, 15, 16].contains n
  | 7 => [4, 8, 12, 13, 14, 15, 16].contains n
  | 4 => [4, 6, 8, 10, 12, 14, 16].contains n
  | 6 => decide (8 ≤ n ∧ n ≤ 16)
  | 8 => n == 16
  | _ => true

/-- PARAM of the data opcodes (R248, R249, R253). -/
def symParamOk (d : Desc) : Bool :=
  match d.op with
  | some .berthSetup | some .berthSealOut | some .berthSealIn | some .berthRelease => true
  | _ =>
    d.paramClear 0xFFFF38E0 && !(d.mode == 2 && d.ctrw == 3) && !(d.ivgen && (!d.opIs .aeadSeal || !d.init)) &&
    (d.berthH != 0 || (d.init && d.final && !d.ivgen)) &&
    (!(d.mode == 4 || d.mode == 5) || (d.init && d.final)) &&
    (!d.final || d.opIs .encrypt || d.opIs .decrypt || tagLenOk d.mode d.tagLen)

/-- Bytes of IV block and AAD in the auxiliary buffer (R250). -/
def Desc.ivLen (d : Desc) : Nat := if d.init ∧ d.mode ≠ 0 ∧ d.mode ≠ 6 ∧ !d.ivgen then 16 else 0
def Desc.aadLen (d : Desc) : Nat := if d.init ∧ d.isAead then d.auxLen.toNat - d.ivLen else 0

/-- Bytes of tag in the source and in the output (R252). -/
def Desc.srcTag (d : Desc) : Nat := if d.final ∧ d.verifies then d.tagLen else 0
def Desc.outTag (d : Desc) : Nat := if d.final ∧ (d.opIs .aeadSeal || d.opIs .macGenerate) then d.tagLen else 0

/-- Bytes that a data opcode writes for `n` bytes of data (R252). -/
def Desc.symOut (d : Desc) (n : Nat) : Nat :=
  match d.op with
  | some .encrypt | some .decrypt | some .aeadOpen => n
  | some .aeadSeal => (if d.init ∧ d.ivgen then 12 else 0) + n + d.outTag
  | some .macGenerate => d.outTag
  | _ => 0

/-- Lengths of a data opcode whose source holds `n` bytes after any blob (R249, R252, R253). -/
def symDataLenOk (d : Desc) (n : Nat) : Bool :=
  let data := n - d.srcTag
  decide (d.srcTag ≤ n) &&
  (d.final || decide (data % (if d.mode = 8 then 64 else 16) = 0)) &&
  (!(d.mode == 0 || d.mode == 1) || decide (data % 16 = 0)) &&
  (!(d.mode == 5) || decide (16 ≤ data ∧ data ≤ 16777216)) &&
  decide (d.symOut data ≤ d.dstLen.toNat)

/-- AUX_LEN of a data opcode (R250). -/
def symAuxOk (d : Desc) : Bool :=
  if d.init ∧ d.isAead then decide (d.ivLen ≤ d.auxLen.toNat) else d.auxLen.toNat == d.ivLen

/-- Lengths of the class 0x1_ opcodes; with a blob in the source, its data are measured when it is opened. -/
def symLenOk (d : Desc) : Bool :=
  match d.op with
  | some .berthSetup => d.auxLen == 0 || d.auxLen == 32
  | some .berthSealOut => decide (304 ≤ d.dstLen.toNat)
  | some .berthSealIn => d.srcLen == 304
  | some .berthRelease => true
  | _ => symAuxOk d && (decide (handleType d.keyH = 3) || symDataLenOk d d.srcLen.toNat)

end Sys2Proof.Machine
end

