-- ==== Sys2Proof/Machine/CheckHash.lean ====
section
/-!
DEFINITION. Checks 2 and 4 of R121 for the hash cluster: classes 0x2_, 0x3_ and 0x5_ (R280 to R292).
-/
namespace Sys2Proof.Machine

/-- Digest bytes of a hash code; for 0x07 the t of PARAM (R125, R280). -/
def hashLen (alg t : Nat) : Nat :=
  match alg with
  | 0x01 => 28
  | 0x02 => 32
  | 0x03 => 48
  | 0x04 => 64
  | 0x05 => 28
  | 0x06 => 32
  | 0x07 => t / 8
  | 0x11 => 28
  | 0x12 => 32
  | 0x13 => 48
  | 0x14 => 64
  | 0x18 => 32
  | 0x19 => 64
  | _ => 0

/-- The hash codes of HMAC and of the signature opcodes. -/
def isHash (alg : Nat) : Bool := decide (1 ≤ alg ∧ alg ≤ 6) || decide (0x11 ≤ alg ∧ alg ≤ 0x14)
def isKmac (alg : Nat) : Bool := alg == 0x1C || alg == 0x1D
def isCmac (alg : Nat) : Bool := decide (0x21 ≤ alg ∧ alg ≤ 0x23)

/-- ALG of classes 0x2_, 0x3_ and 0x5_ (R280, R284, R285, R292). -/
def hashAlgOk (o : Op) (d : Desc) : Bool :=
  let a := d.algN
  match o with
  | .hash => isHash a || a == 7
  | .xof => decide (0x18 ≤ a ∧ a ≤ 0x1B)
  | .hmacGenerate | .hmacVerify | .hkdf | .hkdfExtract | .hkdfExpand => isHash a
  | .kmacGenerate | .kmacVerify => isKmac a
  | .kdf108 => isHash a || isKmac a || isCmac a
  | .kdf56cOneStep => if fld d.param 31 30 ≤ 1 then isHash a else fld d.param 31 30 == 2 && isKmac a
  | .kdf56cTwoStep => isHash a || isCmac a
  | .slhdsaKeygen | .slhdsaSign | .slhdsaVerify => decide (1 ≤ a ∧ a ≤ 0x0C)
  | .hssKeygen | .hssSign | .hssVerify => a == 0x20 || a == 0x21
  | .xmssKeygen | .xmssSign | .xmssVerify => a == 0x30 || a == 0x31
  | _ => false

/-! ### Classes 0x2_ and 0x3_ -/

/-- Tag bytes of a MAC opcode (R280). -/
def Desc.macLen (d : Desc) : Nat :=
  if d.opIs .hmacGenerate || d.opIs .hmacVerify then
    (if fld d.param 7 0 = 0 then hashLen d.algN 0 else fld d.param 7 0)
  else if fld d.param 15 0 = 0 then (if d.algN = 0x1C then 32 else 64) else fld d.param 15 0

/-- Output bytes of a request of classes 0x2_ and 0x3_ (R280, R283, R284). -/
def Desc.hashOut (d : Desc) : Nat :=
  match d.op with
  | some .hash => hashLen d.algN (fld d.param 8 0)
  | some .xof => d.param.toNat
  | some .hkdfExtract => hashLen d.algN 0
  | some o => if o.isKdf then fld d.param 9 0 else d.macLen
  | none => 0

/-- Output bytes of a pseudorandom function. -/
def prfLen (alg : Nat) : Nat := if isCmac alg then 16 else hashLen alg 0

/-- MODE, R and NOCTR of SP 800-108 expansion (R284, R285). -/
def kdfModeOk (d : Desc) : Bool :=
  let mode := fld d.param 31 30
  if isKmac d.algN then d.paramClear 0xF8000000
  else
    mode != 3 &&
    (mode != 0 || (!bitOf d.param 27 &&
      decide (ceilDiv (fld d.param 9 0) (prfLen d.algN) ≤ 2 ^ (8 * (fld d.param 29 28 + 1)) - 1)))

def hashParamOk (o : Op) (d : Desc) : Bool :=
  match o with
  | .hash =>
    if d.algN = 7 then
      let t := fld d.param 8 0
      d.paramClear 0xFFFFFE00 && decide (t % 8 = 0 ∧ 8 ≤ t ∧ t ≤ 504 ∧ t ≠ 384)
    else d.param == 0
  | .xof => d.param != 0
  | .hmacGenerate | .hmacVerify =>
    let t := fld d.param 7 0
    d.paramClear 0xFFFFFF00 && (t == 0 || decide (4 ≤ t ∧ t ≤ hashLen d.algN 0))
  | .kmacGenerate | .kmacVerify => d.paramClear 0x7FFF0000 && !decide (1 ≤ fld d.param 15 0 ∧ fld d.param 15 0 ≤ 3)
  | .hkdf | .hkdfExpand => d.paramClear 0xFFFFFC00
  | .hkdfExtract => d.param == 0
  | .kdf108 | .kdf56cTwoStep => d.paramClear 0x07FFFC00 && kdfModeOk d
  | .kdf56cOneStep => d.paramClear 0x3FFFFC00
  | _ => true

/-- One target and no more (R283). -/
def kdfTargetOk (d : Desc) : Bool := d.holdOut != (d.resultH != 0)

def hashLenOk (o : Op) (d : Desc) : Bool :=
  let n := d.hashOut
  let cs := d.opIs .xof && decide (0x1A ≤ d.algN)
  let verify := o == .hmacVerify || o == .kmacVerify
  if o.isKdf then
    (if d.resultH ≠ 0 then decide (16 ≤ n ∧ n ≤ 64) else decide (1 ≤ n ∧ n ≤ 512))
  else
    decide (d.auxLen.toNat ≤ 4096) && !(cs && d.auxLen == 1) &&
    (cs || o == .kmacGenerate || o == .kmacVerify || d.auxLen == 0) &&
    (if verify then decide (handleType d.keyH = 3) || decide (n ≤ d.srcLen.toNat) else decide (n ≤ d.dstLen.toNat))

/-! ### Class 0x5_ -/

/-- n of an SLH-DSA parameter set, and its signature bytes (R288, R290). -/
def slhN (alg : Nat) : Nat :=
  match (alg - 1) % 6 / 2 with
  | 0 => 16
  | 1 => 24
  | _ => 32
def slhSig (alg : Nat) : Nat :=
  match (alg - 1) % 6 with
  | 0 => 7856
  | 1 => 17088
  | 2 => 16224
  | 3 => 35664
  | 4 => 29792
  | _ => 49856

/-- The pre-hash functions of R289. -/
def isPreHash (ph : Nat) : Bool := isHash ph || ph == 0x18 || ph == 0x19

/-- CTXLEN, PH, INTERNAL, PREHASH, HEDGED and CORES (R289, R315). -/
def Desc.ctxLen (d : Desc) : Nat := fld d.param 23 16
def Desc.ph (d : Desc) : Nat := fld d.param 15 8
def Desc.internal (d : Desc) : Bool := bitOf d.param 2
def Desc.prehash (d : Desc) : Bool := bitOf d.param 1
def Desc.hedged (d : Desc) : Bool := bitOf d.param 0

/-- CORES + 1: the hash cores of a divided operation (R290, R292). -/
def Desc.cores (d : Desc) : Nat :=
  if [Op.slhdsaSign, .hssKeygen, .xmssKeygen].any d.opIs then fld d.param 30 28 + 1 else 1

/-- The rules on PH, PREHASH, INTERNAL and CTXLEN that SLH-DSA and ML-DSA share (R289, R315). -/
def prehashOk (s : State) (d : Desc) : Bool :=
  (if d.prehash then isPreHash d.ph else d.ph == 0) &&
  (!d.internal || (!d.prehash && d.ctxLen == 0 && s.testFunctions))

/-- Instances of a class that partition p has reserved. -/
def State.rsvInstances (s : State) (p cls : Nat) : Nat :=
  ((numsFrom 0 64).filter (fun i => s.rsvEntries.any (fun e =>
    fld e.2.1 29 24 = p ∧ fld e.2.1 19 16 = cls ∧ fld e.2.1 5 0 = i))).length

def hbsParamOk (s : State) (p : Nat) (o : Op) (d : Desc) : Bool :=
  (match o with
  | .slhdsaKeygen => d.param == 0
  | .slhdsaSign => d.paramClear 0x8F0000F8 && prehashOk s d
  | .slhdsaVerify => d.paramClear 0xFF0000F9 && prehashOk s d
  | .hssKeygen | .xmssKeygen => d.paramClear 0x8FFFFFFF
  | .hssSign | .xmssSign => d.param == 0
  | _ => true) &&
  (!s.isolated p || decide (d.cores = 1) || decide (d.cores ≤ s.rsvInstances p 2))

/-- Length of what is signed or verified after `before` bytes of the source (R289). -/
def signedLenOk (d : Desc) (n before : Nat) : Bool :=
  if d.prehash then n == before + hashLen d.ph 0 else decide (before ≤ n)

def hbsLenOk (o : Op) (d : Desc) : Bool :=
  let n := slhN d.algN
  let blob := decide (handleType d.keyH = 3)
  match o with
  | .slhdsaKeygen => d.auxLen == 0 && d.srcLen == 0 && decide (2 * n ≤ d.dstLen.toNat)
  | .slhdsaSign =>
    d.auxLen.toNat == d.ctxLen && (blob || signedLenOk d d.srcLen.toNat 0) && decide (slhSig d.algN ≤ d.dstLen.toNat)
  | .slhdsaVerify => d.auxLen.toNat == 2 * n + d.ctxLen && signedLenOk d d.srcLen.toNat (slhSig d.algN)
  | .hssKeygen => d.auxLen.toNat % 8 == 4 && decide (12 ≤ d.auxLen.toNat ∧ d.auxLen.toNat ≤ (if d.algN = 0x21 then 12 else 68))
  | .xmssKeygen => d.auxLen == 4
  | .hssVerify | .xmssVerify => decide (d.param.toNat ≤ d.srcLen.toNat)
  | _ => true

end Sys2Proof.Machine
end

