-- ==== Sys2Proof/Machine/Recipes.lean ====
section
/-!
DEFINITION. Recipes: the fields of a set descriptor, which engine supports a descriptor, and checks 2 and 4 of R121 for
class 0x4_ (R309 to R319, R329 to R333).
-/
namespace Sys2Proof.Machine

/-- Fields of a set descriptor (R330). -/
def rsAlg (b : RecipeSet) : Nat := byteAt b 0x00
def rsFamily (b : RecipeSet) : Nat := byteAt b 0x01
def rsOrders (b : RecipeSet) : Nat := byteAt b 0x02
def rsAreas (b : RecipeSet) : Nat := byteAt b 0x03
def rsN (b : RecipeSet) : Nat := le16 b 0x04
def rsK (b : RecipeSet) : Nat := byteAt b 0x06
def rsL (b : RecipeSet) : Nat := byteAt b 0x07
def rsQ (b : RecipeSet) : Nat := le32 b 0x08
def rsPk (b : RecipeSet) : Nat := le16 b 0x0C
def rsCt (b : RecipeSet) : Nat := le16 b 0x0E
def rsSeed (b : RecipeSet) : Nat := byteAt b 0x10
def rsIterMax (b : RecipeSet) : Nat := le16 b 0x12
def rsEntry (b : RecipeSet) (e : Nat) : Nat := le16 b (0x14 + 2 * e)
def rsConstOff (b : RecipeSet) : Nat := le16 b 0x68
def rsConstLen (b : RecipeSet) : Nat := le16 b 0x6A

/-- The entry of a set that serves an opcode (R330). -/
def Op.plyEntry : Op → Nat
  | .mlkemKeygen | .mldsaKeygen => 0
  | .mlkemEncaps | .mldsaSign => 1
  | .mlkemDecaps | .mldsaVerify => 2
  | .mldsaSignMu => 3
  | .mldsaVerifyMu => 4
  | _ => 6

/-- Class 0x4_ opcodes of the KEM family. -/
def Op.isKem (o : Op) : Bool := o.code / 4 == 0x10

def State.ply (s : State) (n : Nat) : Ply := s.plys.getD (s.physical 3 n) {}
def State.updPly (s : State) (n : Nat) (f : Ply → Ply) : State := { s with plys := modAt f (s.physical 3 n) s.plys }

/-- The set of a recipe memory for an ALG with an entry for the opcode (R333). -/
def Recipes.find (m : Recipes) (o : Op) (alg : Nat) : Option RecipeSet :=
  m.sets.find? (fun b => rsAlg b == alg && rsFamily b == (if o.isKem then 1 else 2) && rsEntry b o.plyEntry != 0xFFFF)

/-- ALG values that a fixed verification recipe serves (R333). -/
def fixedRecipe (o : Op) (alg : Nat) : Bool := o == .mldsaVerify && (alg == 0x12 || alg == 0x13)

/-- SHA3-256. -/
def sha3 (b : Bytes) : Bytes := fit 32 (Config.std .hash [0x12 :: toLe 2 0, b])

/-- The header of a PLY_RECIPES section, its set descriptors and its words (R329). -/
def recipeSets (b : Bytes) : Nat := le16 b 2
def recipeWords (b : Bytes) : Nat := le32 b 4
def recipeSet (b : Bytes) (k : Nat) : RecipeSet := slice b (0x10 + 128 * k) 128
def recipeWord (b : Bytes) (i : Nat) : W32 := BitVec.ofNat 32 (le32 b (0x10 + 128 * recipeSets b + 4 * i))

/-- The recipe memory that a section fills (R329). -/
def recipesOf (b : Bytes) : Recipes :=
  { tag := BitVec.ofNat 32 (le32 (sha3 b) 0),
    sets := (numsFrom 0 (recipeSets b)).map (recipeSet b),
    words := ((numsFrom 0 (recipeWords b)).map (fun i => (i, recipeWord b i))).filter (fun e => e.2 ≠ 0) }

/-- The recipes that engine n works with when it is next on: an engine that is off receives those that wait at its wake (R99). -/
def State.nextRcp (s : State) (n : Nat) : Recipes :=
  match (s.ply n).waiting with
  | some b => if s.domState (59 + s.physical 3 n) = 0 then recipesOf b else (s.ply n).rcp
  | none => (s.ply n).rcp

/-- Engine n holds a recipe for a descriptor (R333). -/
def State.plyHolds (s : State) (n : Nat) (o : Op) (alg : Nat) : Bool :=
  ((s.nextRcp n).find o alg).isSome || fixedRecipe o alg

/-- ALG of class 0x4_: listed for the opcode's family, and served by an engine in service (R125, R126, R333). -/
def plyAlgOk (s : State) (o : Op) (d : Desc) : Bool :=
  (if o.isKem then decide (1 ≤ d.algN ∧ d.algN ≤ 3) || decide (0x80 ≤ d.algN ∧ d.algN ≤ 0xBF)
   else decide (0x11 ≤ d.algN ∧ d.algN ≤ 0x13) || decide (0x80 ≤ d.algN ∧ d.algN ≤ 0xBF)) &&
  (numsFrom 0 16).any (fun n => !s.unitOut 3 n && s.plyHolds n o d.algN)

/-- PK_LEN and CT_LEN of a set: ek or pk, and ciphertext or signature; those of the fixed verification recipes without one (R312, R317,
R330). -/
def setLens (b : Option RecipeSet) (alg : Nat) : Nat × Nat :=
  match b with
  | some b => (rsPk b, rsCt b)
  | none => if alg = 0x12 then (1952, 3309) else (2592, 4627)

/-- CACHE, FIXED and BOUND (R315). -/
def Desc.cache (d : Desc) : Bool := bitOf d.param 30
def Desc.fixed (d : Desc) : Bool := bitOf d.param 31
def Desc.bound (d : Desc) : Nat := fld d.param 29 24

def plyParamOk (s : State) (o : Op) (d : Desc) : Bool :=
  match o with
  | .mlkemKeygen | .mlkemEncaps => d.paramClear 0xFFFFFFFE && (!bitOf d.param 0 || s.testFunctions)
  | .mlkemDecaps => d.param == 0
  | .mldsaKeygen => d.paramClear 0xFFFFFFFB && (!d.internal || s.testFunctions)
  | .mldsaSign | .mldsaSignMu =>
    d.paramClear 0x000000F8 && (d.fixed || d.bound == 0) && prehashOk s d &&
    (o != .mldsaSignMu || d.paramClear 0x00FFFF06) &&
    (!d.cache || d.berthH != 0 || decide (0x11 ≤ d.algN ∧ d.algN ≤ 0x13))
  | .mldsaVerify | .mldsaVerifyMu =>
    d.paramClear 0xFF0000F9 && prehashOk s d && (o != .mldsaVerifyMu || d.paramClear 0x00FFFF06)
  | _ => true

/-- The buffers have the lengths of a set with these PK_LEN and CT_LEN (R311, R316). -/
def plyLensOk (o : Op) (d : Desc) (lens : Nat × Nat) : Bool :=
  let (pk, ct) := lens
  let aux := d.auxLen.toNat
  let src := d.srcLen.toNat
  let dst := d.dstLen.toNat
  let blob := decide (handleType d.keyH = 3)
  match o with
  | .mlkemKeygen => aux == (if bitOf d.param 0 then 64 else 0) && src == 0 && decide (pk ≤ dst)
  | .mlkemEncaps => aux == (if bitOf d.param 0 then 32 else 0) && src == pk && decide (ct ≤ dst)
  | .mlkemDecaps => aux == 0 && (blob || src == ct)
  | .mldsaKeygen => aux == (if d.internal then 32 else 0) && src == 0 && decide (pk ≤ dst)
  | .mldsaSign => aux == d.ctxLen && (blob || signedLenOk d src 0) && decide (ct ≤ dst)
  | .mldsaVerify => aux == pk + d.ctxLen && signedLenOk d src ct
  | .mldsaSignMu => aux == 0 && (blob || src == 64) && decide (ct ≤ dst)
  | .mldsaVerifyMu => aux == pk && src == ct + 64
  | _ => true

/-- Engine n holds a recipe for the descriptor whose own lengths its buffers have (R330). -/
def State.plyServes (s : State) (n : Nat) (o : Op) (d : Desc) : Bool :=
  s.plyHolds n o d.algN && plyLensOk o d (setLens ((s.nextRcp n).find o d.algN) d.algN)

/-- The lengths of check 4: an engine in service has a recipe that they fit. -/
def plyLenOk (s : State) (o : Op) (d : Desc) : Bool := (numsFrom 0 16).any (fun n => !s.unitOut 3 n && s.plyServes n o d)

end Sys2Proof.Machine
end

