-- ==== Sys2Proof/Machine/CheckPub.lean ====
section
/-!
DEFINITION. Checks 2 and 4 of R121 for the code engines and the big-number engines: classes 0x6_, 0x7_ and 0x8_
(R341 to R354, R367 to R380).
-/
namespace Sys2Proof.Machine

/-! ### Class 0x6_ -/

/-- EK_LEN, CT_LEN and the bytes of m of an HQC set (R341). -/
def hqcLens (alg : Nat) : Nat × Nat × Nat :=
  match alg with
  | 1 => (2241, 4433, 16)
  | 2 => (4514, 8978, 24)
  | _ => (7237, 14421, 32)

/-- A Classic McEliece set: PK_LEN, SK_LEN, CT_LEN, public and private granules (R345). -/
structure MceSet where
  pk : Nat
  sk : Nat
  ct : Nat
  pubGran : Nat
  privGran : Nat
  deriving DecidableEq, Repr

def mceSet (alg : Nat) : MceSet :=
  match (alg - 0x11) / 2 with
  | 0 => ⟨261120, 6492, 96, 64, 2⟩
  | 1 => ⟨524160, 13608, 156, 128, 4⟩
  | 2 => ⟨1044992, 13932, 208, 256, 4⟩
  | 3 => ⟨1047319, 13948, 194, 256, 4⟩
  | _ => ⟨1357824, 14120, 208, 332, 4⟩

def isMce (alg : Nat) : Bool := decide (0x11 ≤ alg ∧ alg ≤ 0x1A)

def Op.isHqc (o : Op) : Bool := o == .hqcKeygen || o == .hqcEncaps || o == .hqcDecaps

def isHqcAlg (alg : Nat) : Bool := decide (1 ≤ alg ∧ alg ≤ 3)

/-- ALG 0x01–0x03, which the class lists, is a finding of MCE_IMPORT (R126, R346). -/
def codAlgOk (o : Op) (d : Desc) : Bool :=
  if o.isHqc then isHqcAlg d.algN else isMce d.algN || (decide (o = .mceImport) && isHqcAlg d.algN)

/-- CACHED (R348). -/
def Desc.cached (d : Desc) : Bool := bitOf d.param 0

/-- The request works on the code key cache: all of class 0x6_ but HQC and a streamed encapsulation (R357). -/
def Desc.usesCache (d : Desc) : Bool :=
  match d.op with
  | some .mceImport | some .mceDecaps | some .ckcLoad | some .ckcEvict => true
  | some .mceEncaps => d.cached
  | _ => false

def codParamOk (s : State) (p : Nat) (o : Op) (d : Desc) : Bool :=
  match o with
  | .hqcKeygen | .hqcEncaps => d.paramClear 0xFFFFFFFE && (!bitOf d.param 0 || s.testFunctions)
  | .hqcDecaps | .mceImport | .ckcLoad => d.param == 0
  | .mceEncaps => d.paramClear 0xFFFFFFFE && (d.cached || !s.isolated p)
  | _ => true

def codLenOk (o : Op) (d : Desc) : Bool :=
  let aux := d.auxLen.toNat
  let src := d.srcLen.toNat
  let dst := d.dstLen.toNat
  let (ek, ct, m) := hqcLens d.algN
  let k := mceSet d.algN
  match o with
  | .hqcKeygen => aux == (if bitOf d.param 0 then 32 else 0) && src == 0 && decide (ek ≤ dst)
  | .hqcEncaps => aux == (if bitOf d.param 0 then m + 16 else 0) && src == ek && decide (ct ≤ dst)
  | .hqcDecaps => aux == 0 && (decide (handleType d.keyH = 3) || src == ct)
  -- DESIGN CHOICE: an envelope under ALG 0x01–0x03 has no length of its own and is as long as the source; log entry 135.
  | .mceImport => aux == 48 && (if isMce d.algN then src == k.sk + 28 else decide (28 ≤ src)) && decide (32 ≤ dst)
  | .mceEncaps => (if d.cached then aux == 32 && src == 0 else src == k.pk) && decide (k.ct ≤ dst)
  | .mceDecaps => src == k.ct
  | .ckcLoad => src == k.pk && decide (32 ≤ dst)
  | .ckcEvict => aux == 32
  | _ => true

/-! ### Classes 0x7_ and 0x8_ -/

/-- The curve table entry of an ALG. -/
def curveEntry (alg : Nat) : Option Nat := if 0x40 ≤ alg ∧ alg ≤ 0x4F then some (alg - 0x40) else none

def isWeier (alg : Nat) : Bool := decide (1 ≤ alg ∧ alg ≤ 6) || (curveEntry alg).isSome
def isEdwards (alg : Nat) : Bool := alg == 0x10 || alg == 0x11
def isMont (alg : Nat) : Bool := alg == 0x18 || alg == 0x19


/-- Bit length of p of a curve (R373, R381). -/
def State.curveBits (s : State) (alg : Nat) : Nat :=
  match alg with
  | 0x01 => 256
  | 0x02 => 384
  | 0x03 => 521
  | 0x04 => 256
  | 0x05 => 384
  | 0x06 => 512
  | 0x10 => 255
  | 0x11 => 448
  | 0x18 => 255
  | 0x19 => 448
  | _ => le16 (getKey [] s.curves.entries (alg - 0x40)) 2

/-- L of a curve (R373). -/
def State.curveLen (s : State) (alg : Nat) : Nat := if alg = 0x11 then 57 else ceilDiv (s.curveBits alg) 8

/-- The curve is built in, or its entry has been loaded (R126). -/
def State.curveThere (s : State) (alg : Nat) : Bool :=
  match curveEntry alg with
  | some e => (lookupKey e s.curves.entries).isSome
  | none => true

/-- ALG of classes 0x7_ and 0x8_ (R125, R369, R374). -/
def bneAlgOk (s : State) (o : Op) (d : Desc) : Bool :=
  let a := d.algN
  match o with
  | .rsaPssSign | .rsaPssVerify | .rsaOaepEncrypt | .rsaOaepDecrypt => isHash a
  | .ecdsaSign | .ecdsaVerify | .ecdh => isWeier a && s.curveThere a
  | .ecKeygen => (isWeier a || isEdwards a || isMont a) && s.curveThere a
  | .eddsaSign | .eddsaVerify => isEdwards a
  | .xdh => isMont a
  | _ => a == 0

/-- B of PARAM[13:0], and its bytes. -/
def Desc.modBits (d : Desc) : Nat := fld d.param 13 0
def Desc.modBytes (d : Desc) : Nat := d.modBits / 8
/-- R of PRIME_TEST: 0 selects the count of FIPS 186-5 table B.1 (R372). -/
def Desc.rounds (d : Desc) : Nat := if fld d.param 23 16 = 0 then Config.size .primeTest [toLe 4 d.modBits] else fld d.param 23 16
def modBitsOk (b lo : Nat) : Bool := decide (b % 64 = 0 ∧ lo ≤ b ∧ b ≤ 8192)
def rsaSizes : List Nat := [2048, 3072, 4096, 6144, 8192]

/-- sLen and DIGEST of the PSS opcodes; DIGEST of ECDSA (R369, R376). -/
def Desc.saltLen (d : Desc) : Nat := fld d.param 23 16
def Desc.pssDigest (d : Desc) : Bool := bitOf d.param 24
def Desc.ecDigest (d : Desc) : Bool := bitOf d.param 0
/-- The operation needs a hash core for part of its work (R358). -/
def Desc.hashPart (d : Desc) : Bool :=
  match d.op with
  | some .rsaPssSign | some .rsaPssVerify | some .rsaOaepEncrypt | some .rsaOaepDecrypt => true
  | some .ecdsaSign | some .ecdsaVerify => !d.ecDigest
  | some .eddsaSign | some .eddsaVerify => true
  | some .ecKeygen => isEdwards d.algN
  | _ => false

/-- CTXLEN and VARIANT of the EdDSA opcodes (R378). -/
def Desc.edCtx (d : Desc) : Nat := fld d.param 15 8
def Desc.variant (d : Desc) : Nat := fld d.param 1 0

def bneParamOk (o : Op) (d : Desc) : Bool :=
  let h := hashLen d.algN 0
  match o with
  | .modmul | .modexp | .modinv => d.paramClear 0xFFFFC000 && modBitsOk d.modBits 256
  | .rsaPublic | .rsaOaepEncrypt => d.paramClear 0xFFFFC000 && modBitsOk d.modBits 1024
  | .rsaPrivateCrt | .rsaOaepDecrypt => d.param == 0
  | .rsaPssSign => d.paramClear 0xFE00FFFF && decide (d.saltLen ≤ h)
  | .rsaPssVerify => d.paramClear 0xFE00C000 && modBitsOk d.modBits 1024 && decide (d.saltLen ≤ h)
  | .rsaKeygen => d.paramClear 0xFFFCC000 && rsaSizes.contains d.modBits && decide (fld d.param 17 16 ≤ 1)
  | .primeTest => d.paramClear 0xFF00C000 && modBitsOk d.modBits 256 && decide (fld d.param 23 16 ≤ 64)
  | .ecdsaSign => d.paramClear 0xFFFF00FC && isHash (fld d.param 15 8)
  | .ecdsaVerify => d.paramClear 0xFFFF00FE && isHash (fld d.param 15 8)
  | .eddsaSign | .eddsaVerify =>
    d.paramClear 0xFFFF00FC && d.variant != 3 && !(d.algN == 0x10 && d.variant == 0 && d.edCtx != 0)
  | _ => true

/-- The arrangement of R375, and a result slot of EC_KEYGEN (R374, R420). -/
def bneTargetOk (o : Op) (d : Desc) : Bool :=
  match o with
  | .ecdh | .xdh => (d.holdOut && d.resultH == 0) || (!d.holdOut && d.resultH != 0 && d.dstLen == 0)
  | .ecKeygen => d.resultH != 0
  | _ => true

/-- Bytes of a public key (R373). -/
def State.pubLen (s : State) (alg : Nat) : Nat := if isWeier alg then 1 + 2 * s.curveLen alg else s.curveLen alg

/-- Length of an ECDSA message or digest after `before` bytes (R376). -/
def ecMsgOk (d : Desc) (n before : Nat) : Bool :=
  if d.ecDigest then decide (before + 1 ≤ n ∧ n ≤ before + 64) else decide (before ≤ n)
def edMsgOk (d : Desc) (n before : Nat) : Bool := if d.variant = 2 then n == before + 64 else decide (before ≤ n)

def bneLenOk (s : State) (o : Op) (d : Desc) : Bool :=
  let aux := d.auxLen.toNat
  let src := d.srcLen.toNat
  let dst := d.dstLen.toNat
  let k := d.modBytes
  let h := hashLen d.algN 0
  let l := s.curveLen d.algN
  let blob := decide (handleType d.keyH = 3)
  match o with
  | .modmul | .modexp => src == 3 * k && decide (k ≤ dst)
  | .modinv => src == 2 * k && decide (k ≤ dst)
  | .rsaPublic => aux == k + 32 && src == k && decide (k ≤ dst)
  | .rsaPssVerify => aux == k + 32 && (if d.pssDigest then src == k + h else decide (k ≤ src))
  | .rsaOaepEncrypt => decide (k + 32 ≤ aux) && decide (src + 2 * h + 2 ≤ k) && decide (k ≤ dst)
  | .rsaKeygen => aux == 32 && decide (k + 48 + (7 * d.modBits / 16 + 32) ≤ dst)
  | .primeTest => src == k && decide (1 ≤ dst)
  | .ecdsaSign => (blob || ecMsgOk d src 0) && decide (2 * l ≤ dst)
  | .ecdsaVerify => aux == 1 + 2 * l && ecMsgOk d src (2 * l)
  | .ecdh => (blob || src == 1 + 2 * l) && (!d.holdOut || decide (l ≤ dst))
  | .xdh => (blob || src == l) && (!d.holdOut || decide (l ≤ dst))
  | .ecKeygen => decide (s.pubLen d.algN ≤ dst)
  | .eddsaSign => aux == d.edCtx && (blob || edMsgOk d src 0) && decide (2 * l ≤ dst)
  | .eddsaVerify => aux == l + d.edCtx && edMsgOk d src (2 * l)
  | _ => true

end Sys2Proof.Machine
end

