-- ==== Sys2Proof/Machine/Checks.lean ====
section
/-!
DEFINITION. Checks 1 to 4 of R121 on a fetched descriptor: reserved bits, opcode and algorithm, handles and hold flags,
PARAM, the result's target and the lengths; with the tables of classes 0x0_, 0x9_ and 0xE_ (R127, R400, R424 to R433,
R462).
-/
namespace Sys2Proof.Machine

/-- A reserved bit of R120 is set. -/
def Desc.reservedSet (d : Desc) : Bool :=
  decide (2 ^ 7 ≤ d.flags.toNat) || d.reserved != 0 || (d.holdIn && decide (8 ≤ d.srcAddr.toNat)) ||
    (d.holdOut && decide (8 ≤ d.dstAddr.toNat))

/-! ### Classes 0x0_, 0x9_ and 0xE_ -/

/-- The attribute word of R424 has no reserved bit and no reserved USAGE or ORDER. -/
def attrWordOk (w : W32) : Bool :=
  decide (fld w 10 8 = 0) && decide (1 ≤ fld w 30 28 ∧ fld w 30 28 ≤ 6) && decide (fld w 27 26 ≤ 2)

def keyParamOk (o : Op) (d : Desc) : Bool :=
  match o with
  | .getRandom => d.paramClear 0xFFFFFFFE
  | .keyGenerate => d.holdOut || attrWordOk d.param
  | .keyDerive => d.paramClear 0x9FFFFFFF
  | .ptnInfo | .qosRead => d.param == 0
  | .keyList => d.paramClear 0xFFFFE000
  | _ => true

def keyTargetOk (o : Op) (d : Desc) : Bool :=
  match o with
  | .keyDerive => d.holdOut || d.resultH != 0
  | _ => true

def keyLenOk (o : Op) (d : Desc) : Bool :=
  let dst := d.dstLen.toNat
  let len := fld d.param 7 0
  match o with
  | .copy => decide (d.srcLen.toNat ≤ dst)
  | .getRandom => decide (d.auxLen.toNat ≤ 48) && d.srcLen == 0 && decide (1 ≤ dst ∧ dst ≤ 65536)
  | .keyGenerate => if d.holdOut then decide (1 ≤ len ∧ len ≤ 64) else decide (1 ≤ len ∧ len ≤ 128)
  | .keyDerive => decide (d.auxLen.toNat ≤ 256) && (!d.holdOut || decide (16 ≤ dst ∧ dst ≤ 64))
  | .keyAttrRead => decide (16 ≤ dst)
  | .ptnInfo | .qosRead => decide (32 ≤ dst)
  | .keyList => decide (8 ≤ dst)
  | _ => true

/-- What R462 asks of a class 0xE_ descriptor. -/
def reportDescOk (d : Desc) : Bool :=
  d.alg == 0 && d.keyH == 0 && d.berthH == 0 && d.resultH == 0 && d.srcLen == 0 && d.auxLen == 0 && !d.holdIn && !d.holdOut

/-! ### Check 2 -/

/-- The ALG is listed for the opcode and served (R125, R126). -/
def State.algOk (s : State) (o : Op) (d : Desc) : Bool :=
  match o.code / 16 with
  | 1 => symAlgOk o d.algN
  | 2 | 3 | 5 => hashAlgOk o d
  | 4 => plyAlgOk s o d
  | 6 => codAlgOk o d
  | 7 | 8 => bneAlgOk s o d
  | 14 => true
  | _ => d.algN == 0

/-! ### Check 3 -/

/-- Stage one of check 3: reserved type, bits above the index, an index out of range, and a hold or tow result that
R123 refuses; `pos` is the request's position in its tow, if it is in one. -/
def handleBad (h : W32) (pos : Option Nat) : Bool :=
  let i := handleIndex h
  match handleType h with
  | 0 => i != 0
  | 1 => decide (8192 ≤ i)
  | 2 => decide (16384 ≤ i)
  | 3 => decide (8192 ≤ i)
  | 4 => decide (8 ≤ i) || pos.isNone
  | 5 => (match pos with
    | some k => decide (k ≤ i)
    | none => true)
  | _ => true

/-- One handle field: the status of R123, or BAD_DESCRIPTOR for a type that the opcode does not accept (R121). -/
def handleFault (h : W32) (use : Option (List Nat)) (pos : Option Nat) (bad : Status) : Option Status :=
  match use with
  | none => none
  | some ts =>
    if handleBad h pos then some bad
    else if ts.contains (handleType h) then none
    else some .badDescriptor

/-- Check 3 of R121. -/
def handlesFault (d : Desc) (pos : Option Nat) : Option Status :=
  ((handleFault d.keyH d.handles.key pos .keyHandleInvalid).or (handleFault d.berthH d.handles.berth pos .berthInvalid)).or
    (((handleFault d.resultH d.handles.result pos .keyHandleInvalid).or
      (if d.opIs .keyExportWrapped then handleFault d.param (some [1]) pos .keyHandleInvalid else none)).or
        (if (d.holdIn || d.holdOut) && pos.isNone then some .badDescriptor else none))

/-! ### Check 4 -/

def State.paramOk (s : State) (p : Nat) (o : Op) (d : Desc) : Bool :=
  match o.code / 16 with
  | 1 => symParamOk d
  | 2 | 3 => hashParamOk o d
  | 4 => plyParamOk s o d
  | 5 => hbsParamOk s p o d
  | 6 => codParamOk s p o d
  | 7 | 8 => bneParamOk o d && (!d.hashPart || !s.isolated p || decide (s.rsvInstances p 2 ≠ 0))
  | _ => keyParamOk o d

/-- The arrangement of the result's target (R283, R310, R375, R420). -/
def targetOk (o : Op) (d : Desc) : Bool :=
  match o with
  | .mlkemKeygen | .mlkemEncaps | .mlkemDecaps | .mldsaKeygen | .hqcKeygen | .hqcEncaps | .hqcDecaps | .mceImport | .mceEncaps
  | .mceDecaps | .slhdsaKeygen | .hssKeygen | .xmssKeygen => d.resultH != 0
  | _ => if o.isKdf then kdfTargetOk d else bneTargetOk o d && keyTargetOk o d

/-- Lengths that reach beyond a hold (R119). -/
def holdLenOk (d : Desc) : Bool :=
  !(d.holdIn && d.usesSrc && decide (512 < d.srcLen.toNat)) && !(d.holdOut && d.writesDst && decide (512 < d.dstLen.toNat))

def State.lenOk (s : State) (o : Op) (d : Desc) : Bool :=
  holdLenOk d &&
  (match o.code / 16 with
  | 1 => symLenOk d
  | 2 | 3 => hashLenOk o d
  | 4 => plyLenOk s o d
  | 5 => hbsLenOk o d
  | 6 => codLenOk o d
  | 7 | 8 => bneLenOk s o d
  | _ => keyLenOk o d)

/-- The first of checks 1 to 4 that a descriptor of partition p fails (R121); `pos` is its position in a tow. -/
def State.descFault (s : State) (p : Nat) (d : Desc) (pos : Option Nat) : Option Status :=
  if d.reservedSet then some .badDescriptor
  else
    match d.op with
    | none => some .unsupportedOp
    | some o =>
      if o.code / 16 = 14 ∧ !reportDescOk d then some .badDescriptor
      else if !s.algOk o d then some .unsupportedOp
      else
        match handlesFault d pos with
        | some st => some st
        | none =>
          if !s.paramOk p o d then some .paramInvalid
          else if !targetOk o d then some .keyPolicy
          else if !s.lenOk o d then some .badLength
          else none

/-- Checks 1 to 4 of R121 on a request. -/
def State.verdictOf (s : State) (r : Req) : Option Status :=
  s.descFault r.ptn r.desc (r.tow.map (fun _ => r.pos))

end Sys2Proof.Machine
end

