-- ==== Sys2Proof/Machine/HbsTypes.lean ====
section
/-!
DEFINITION. The types of the stateful schemes (R291, R292): the codes of RFC 8554, RFC 8391 and SP 800-208, what they say of heights,
lengths and hash functions, and the types that a signature names. PRESUMED: the spec names the types and leaves their codes and the layout
of keys and signatures to those standards; log entry 85.
-/
namespace Sys2Proof.Machine

/-- A big-endian 4-byte value. -/
def be32 (b : Bytes) (off : Nat) : Nat := leNat (slice b off 4).reverse

/-- n bytes of the hash of a family: 0 SHA256 M32, 1 SHA256 M24, 2 SHAKE M32, 3 SHAKE M24. -/
def familyLen (f : Nat) : Nat := if f % 2 = 0 then 32 else 24

/-! ### LMS and LM-OTS -/

/-- The family and height of an LMS type: H5, H10, H15, H20 and H25 of each family. -/
def lmsFamily (t : Nat) : Nat := (t - 5) / 5
def lmsHeight (t : Nat) : Nat := 5 * ((t - 5) % 5 + 1)
/-- The family of an LM-OTS type, W1, W2, W4 and W8 of each, and the chains of its signature. -/
def otsFamily (t : Nat) : Nat := (t - 1) / 4
def otsChains (t : Nat) : Nat :=
  (if familyLen (otsFamily t) = 32 then [265, 133, 67, 34] else [200, 101, 51, 26]).getD ((t - 1) % 4) 0

/-- An LMS type and an LM-OTS type that R291 lists, of one hash and length. -/
def lmsListed (t o : Nat) : Bool := decide (5 ≤ t ∧ t ≤ 0x18) && decide (1 ≤ o ∧ o ≤ 0x10) && lmsFamily t == otsFamily o

/-- Bytes of an LMS signature: index, LM-OTS signature, type and path. -/
def lmsSigLen (t o : Nat) : Nat := 12 + familyLen (lmsFamily t) * (1 + otsChains o + lmsHeight t)

/-- Bytes of an LMS public key. -/
def lmsPubLen (t : Nat) : Nat := 24 + familyLen (lmsFamily t)

/-- What is wrong with the types and the length of a signature of `more` levels below the one whose key has the types `t` and `o`. -/
inductive HbsFlaw where
  | unlisted | mismatch
  deriving DecidableEq, Repr

def lmsFlaw : Nat → Nat → Nat → Bytes → Option HbsFlaw
  | more, t, o, sig =>
    let n := lmsSigLen t o
    if sig.length < n ∨ be32 sig 4 ≠ o ∨ be32 sig (8 + familyLen (lmsFamily t) * (1 + otsChains o)) ≠ t then some .mismatch
    else
      let rest := sig.drop n
      match more with
      | 0 => if rest.isEmpty then none else some .mismatch
      | k + 1 =>
        let t' := be32 rest 0
        let o' := be32 rest 4
        if lmsListed t' o' then lmsFlaw k t' o' (rest.drop (lmsPubLen t')) else some .unlisted

/-! ### XMSS and XMSS^MT -/

/-- An OID of RFC 8391 or SP 800-208, and of SP 800-208 alone: 0x30 XMSS, 0x31 XMSS^MT. -/
def xmssListed (alg oid : Nat) : Bool := decide (1 ≤ oid ∧ oid ≤ (if alg = 0x30 then 0x15 else 0x38))
def xmssApproved (alg oid : Nat) : Bool :=
  xmssListed alg oid && (if alg = 0x30 then decide (oid ≤ 3 ∨ 0x0D ≤ oid) else decide (oid ≤ 8 ∨ 0x21 ≤ oid))

/-- n, height and layers of an OID. -/
def xmssN (alg oid : Nat) : Nat := [32, 64, 32, 64, 24, 32, 24].getD ((oid - 1) / (if alg = 0x30 then 3 else 8)) 32
def xmssTree (alg oid : Nat) : Nat × Nat :=
  if alg = 0x30 then ([10, 16, 20].getD ((oid - 1) % 3) 0, 1)
  else [(20, 2), (20, 4), (40, 2), (40, 4), (40, 8), (60, 3), (60, 6), (60, 12)].getD ((oid - 1) % 8) (0, 1)

/-- Bytes of a signature: index, randomness, and for each layer a WOTS+ signature of 2n + 3 chains and a path. -/
def xmssSigLen (alg oid : Nat) : Nat :=
  let n := xmssN alg oid
  let (h, d) := xmssTree alg oid
  (if alg = 0x30 then 4 else (h + 7) / 8) + n * (1 + h + d * (2 * n + 3))

/-! ### Keys (R292) -/

/-- LMS type and LM-OTS type of each level in the parameter codes of a key. -/
def hbsLevels (params : Bytes) : List (Nat × Nat) := (numsFrom 0 (be32 params 0)).map (fun i => (be32 params (4 + 8 * i), be32 params (8 + 8 * i)))

/-- ALG names LMS or HSS. -/
def isLms (alg : Nat) : Bool := alg == 0x20 || alg == 0x21

/-- n of a key. -/
def hbsN (alg : Nat) (params : Bytes) : Nat :=
  if isLms alg then familyLen (lmsFamily (be32 params 4)) else xmssN alg (be32 params 0)

/-- Bytes of a private key: SEED ‖ I, or SK_SEED ‖ SK_PRF ‖ PUB_SEED ‖ root. -/
def hbsKeyLen (alg : Nat) (params : Bytes) : Nat := if isLms alg then hbsN alg params + 16 else 4 * hbsN alg params

/-- Bytes of it that are drawn: all but the root. -/
def hbsSeedLen (alg : Nat) (params : Bytes) : Nat := if isLms alg then hbsN alg params + 16 else 3 * hbsN alg params

/-- htotal of a key (R296). -/
def hbsHeight (alg : Nat) (params : Bytes) : Nat :=
  if isLms alg then ((hbsLevels params).map (fun e => lmsHeight e.1)).sum else (xmssTree alg (be32 params 0)).1

/-- Bytes of a signature of a key. -/
def hbsSigLen (alg : Nat) (params : Bytes) : Nat :=
  if isLms alg then
    (if alg = 0x20 then 4 else 0) + ((hbsLevels params).map (fun e => lmsSigLen e.1 e.2)).sum +
      ((hbsLevels params).drop 1 |>.map (fun e => lmsPubLen e.1)).sum
  else xmssSigLen alg (be32 params 0)

/-- Keys may be made with the codes: listed types, one hash function and one length at every level; of XMSS the sets of SP 800-208. -/
def hbsMakes (alg : Nat) (params : Bytes) : Bool :=
  if isLms alg then (hbsLevels params).all (fun e => lmsListed e.1 e.2 && lmsFamily e.1 == lmsFamily (be32 params 4))
  else xmssApproved alg (be32 params 0)

/-- A public key names listed types, and its bytes. -/
def hbsPubListed (alg : Nat) (pub : Bytes) : Bool :=
  if alg = 0x20 then decide (1 ≤ be32 pub 0 ∧ be32 pub 0 ≤ 8) && lmsListed (be32 pub 4) (be32 pub 8)
  else if alg = 0x21 then lmsListed (be32 pub 0) (be32 pub 4)
  else xmssListed alg (be32 pub 0)
def hbsPubLen (alg : Nat) (pub : Bytes) : Nat :=
  if alg = 0x20 then 4 + lmsPubLen (be32 pub 4) else if alg = 0x21 then lmsPubLen (be32 pub 0) else 4 + 2 * xmssN alg (be32 pub 0)

/-- What is wrong with the types and the length of a signature under a public key. -/
def hbsSigFlaw (alg : Nat) (pub sig : Bytes) : Option HbsFlaw :=
  if alg = 0x20 then
    (if be32 sig 0 + 1 ≠ be32 pub 0 then some .mismatch else lmsFlaw (be32 sig 0) (be32 pub 4) (be32 pub 8) (sig.drop 4))
  else if alg = 0x21 then lmsFlaw 0 (be32 pub 0) (be32 pub 4) sig
  else if sig.length ≠ xmssSigLen alg (be32 pub 0) then some .mismatch else none

/-! ### Public keys and KEY_ID (R292, R296) -/

/-- The root of a key's top tree, from what of its private key was drawn. -/
def hbsRoot (alg : Byte) (params seed : Bytes) : Bytes := fit (hbsN alg.toNat params) (Config.std .hbsRoot [[alg], params, seed])

/-- The public key of a private key under its parameter codes, as its RFC encodes it, and KEY_ID (R292, R296). -/
def hbsPublicKey (alg : Byte) (key params : Bytes) : Bytes :=
  let n := hbsN alg.toNat params
  if isLms alg.toNat then
    (if alg = 0x20 then slice params 0 4 else []) ++ slice params 4 8 ++ slice key n 16 ++ hbsRoot alg params key
  else slice params 0 4 ++ slice key (3 * n) n ++ slice key (2 * n) n
def hbsKeyId (pub : Bytes) : Bytes := (sha3 pub).take 16

end Sys2Proof.Machine
end

