-- ==== Sys2Proof/Machine/Kdf.lean ====
section
/-!
DEFINITION. The hash functions, XOFs, MACs and key derivation functions as functions of byte strings: the constructions of
R281 to R285 over the primitives of the standards.
-/
namespace Sys2Proof.Machine

/-! ### Primitives -/

/-- The digest of a hash code; `t` is that of SHA-512/t (R281). -/
def hashFn (alg t : Nat) (m : Bytes) : Bytes := fit (hashLen alg t) (Config.std .hash [BitVec.ofNat 8 alg :: toLe 2 t, m])

/-- SHAKE or cSHAKE: with both N and S empty, cSHAKE equals SHAKE (R281). -/
def xofFn (alg len : Nat) (n custom m : Bytes) : Bytes :=
  let alg := if 0x1A ≤ alg ∧ n.isEmpty ∧ custom.isEmpty then alg - 2 else alg
  fit len (Config.std .xof [[BitVec.ofNat 8 alg], toLe 4 len, n, custom, m])

/-- HMAC with a hash code. -/
def hmacFn (alg : Nat) (key m : Bytes) : Bytes := fit (hashLen alg 0) (Config.std .hmac [[BitVec.ofNat 8 alg], key, m])

/-- KMAC, or KMACXOF, of `len` bytes with customization string S. -/
def kmacFn (alg : Nat) (xof : Bool) (len : Nat) (key m custom : Bytes) : Bytes :=
  fit len (Config.std .kmac [[BitVec.ofNat 8 alg, BitVec.ofNat 8 (b2n xof)] ++ toLe 4 len, key, m, custom])

/-- AES-CMAC; the key's length selects the cipher. -/
def cmacFn (key m : Bytes) : Bytes := fit 16 (Config.std .cmac [key, m])

/-! ### Key derivation (R284, R285) -/

/-- What a key derivation asks of its MAC or hash: the messages of each step in turn. The output of a step's last message is its part
of the result. -/
abbrev KdfSteps := List (List Bytes)

/-- The steps of RFC 5869 expansion from step i on. -/
def hkdfSteps (prf : Bytes → Bytes) (info : Bytes) : Nat → Nat → Bytes → KdfSteps
  | 0, _, _ => []
  | k + 1, i, prev =>
    let m := prev ++ info ++ toBe 1 i
    [m] :: hkdfSteps prf info k (i + 1) (prf m)

/-- The steps of SP 800-108 from step i on, with a counter of c bytes: counter, feedback or double-pipeline mode; `a` is A(i − 1)
(R285). -/
def kdfSteps (prf : Bytes → Bytes) (mode c : Nat) (fixed : Bytes) : Nat → Nat → Bytes → Bytes → KdfSteps
  | 0, _, _, _ => []
  | k + 1, i, prev, a =>
    let ctr := toBe c i
    match mode with
    | 0 => [ctr ++ fixed] :: kdfSteps prf mode c fixed k (i + 1) [] []
    | 1 => let m := prev ++ ctr ++ fixed
           [m] :: kdfSteps prf mode c fixed k (i + 1) (prf m) []
    | _ => let a' := prf a
           [a, a' ++ ctr ++ fixed] :: kdfSteps prf mode c fixed k (i + 1) [] a'

/-- The steps of the one-step KDF: a 32-bit counter, Z and FixedInfo (R285). -/
def oneSteps (z fixed : Bytes) (n : Nat) : KdfSteps := (numsFrom 1 n).map (fun i => [toBe 4 i ++ z ++ fixed])

/-- The bytes that the steps give. -/
def stepsOut (prf : Bytes → Bytes) (st : KdfSteps) : Bytes := st.flatMap (fun ms => (ms.getLast?.map prf).getD [])

/-- Bytes of a hash block: the default salt of an HMAC (R285). -/
def hashBlock (alg : Nat) : Nat :=
  match alg with
  | 0x01 | 0x02 => 64
  | 0x11 => 144
  | 0x12 | 0x19 | 0x1B | 0x1D => 136
  | 0x13 => 104
  | 0x14 => 72
  | 0x18 | 0x1A | 0x1C => 168
  | _ => 128

/-- The pseudorandom function of an ALG under a key. -/
def prfFn (alg : Nat) (key : Bytes) : Bytes → Bytes := if isCmac alg then cmacFn key else hmacFn alg key

/-- The two parts of an auxiliary buffer after its two length fields, and what follows them (R284). -/
def kdfParts (aux : Bytes) : Bytes × Bytes × Bytes :=
  let a := le16 aux 0
  let b := le16 aux 2
  (slice aux 4 a, slice aux (4 + a) b, aux.drop (4 + a + b))

/-- The counter's bytes of SP 800-108; none with NOCTR. -/
def Desc.kdfCtr (d : Desc) : Nat := if bitOf d.param 27 then 0 else fld d.param 29 28 + 1

/-- SP 800-108 expansion under a pseudorandom function of `h` bytes. -/
def Desc.expand (d : Desc) (prf : Bytes → Bytes) (h : Nat) (iv fixed : Bytes) : KdfSteps :=
  kdfSteps prf (fld d.param 31 30) d.kdfCtr fixed (ceilDiv d.hashOut h) 1 iv fixed

/-- The salt of an extraction: an empty one is the default salt (R285). -/
def kdfSalt (alg : Nat) (salt : Bytes) : Bytes :=
  if !salt.isEmpty then salt
  else if isCmac alg then zeros (symKeyLen (alg % 16))
  else if alg = 0x1C then zeros 164
  else if alg = 0x1D then zeros 132
  else zeros (hashBlock alg)

/-- The output of a class 0x3_ request from its input key and auxiliary buffer (R284, R285). A CMAC extraction gives an AES-128 key. -/
def kdfFn (o : Op) (d : Desc) (key aux : Bytes) : Bytes :=
  let alg := d.algN
  let h := prfLen alg
  let (x, y, z) := kdfParts aux
  fit d.hashOut (match o with
    | .hkdf =>
      let prf := hmacFn alg (hmacFn alg (if x.isEmpty then zeros h else x) key)
      stepsOut prf (hkdfSteps prf (y ++ z) (ceilDiv d.hashOut h) 1 [])
    | .hkdfExtract => hmacFn alg (if aux.isEmpty then zeros h else aux) key
    | .hkdfExpand =>
      let prf := hmacFn alg key
      stepsOut prf (hkdfSteps prf aux (ceilDiv d.hashOut h) 1 [])
    | .kdf108 =>
      if isKmac alg then kmacFn alg false d.hashOut key (y ++ z) x
      else stepsOut (prfFn alg key) (d.expand (prfFn alg key) h x (y ++ z))
    | .kdf56cOneStep =>
      match fld d.param 31 30 with
      | 0 => stepsOut (hashFn alg 0) (oneSteps key (y ++ z) (ceilDiv d.hashOut h))
      | 1 => stepsOut (hmacFn alg (kdfSalt alg x)) (oneSteps key (y ++ z) (ceilDiv d.hashOut h))
      | _ => kmacFn alg false d.hashOut (kdfSalt alg x) (toBe 4 1 ++ key ++ y ++ z) ("KDF".toList.map (fun c => BitVec.ofNat 8 c.toNat))
    | _ =>
      let k := prfFn alg (kdfSalt alg x) key
      stepsOut (prfFn alg k) (d.expand (prfFn alg k) h y z))

end Sys2Proof.Machine
end

