-- ==== Sys2Proof/Machine/Flags.lean ====
section
/-!
DEFINITION. Every flag computation of the Lockkeeper instructions (R197, R198).
-/
namespace Sys2Proof.Machine

/-- A sum with carry-in: result, carry out of bit 31, signed overflow (R198). -/
def lkAdd (a b : W32) (cin : Bool) : W32 × Bool × Bool :=
  let r := a + b + BitVec.ofNat 32 (b2n cin)
  (r, decide (2 ^ 32 ≤ a.toNat + b.toNat + b2n cin), a.msb == b.msb && r.msb != a.msb)

/-- A difference a − b − (1 − cin): result, C set when no borrow occurs, signed overflow (R198). -/
def lkSub (a b : W32) (cin : Bool) : W32 × Bool × Bool :=
  let borrow := 1 - b2n cin
  let r := a - b - BitVec.ofNat 32 borrow
  (r, decide (b.toNat + borrow ≤ a.toNat), a.msb != b.msb && r.msb != a.msb)

/-- Z and N of a 32-bit result (R198). -/
def Ctx.zn32 (c : Ctx) (r : W32) : Ctx := { c with fZ := r == 0, fN := r.msb }

/-- Z and N of a 16-bit result (R198). -/
def Ctx.zn16 (c : Ctx) (r : W16) : Ctx := { c with fZ := r == 0, fN := r.msb }

/-- All four flags of a sum or difference. -/
def Ctx.znvc (c : Ctx) (p : W32 × Bool × Bool) : Ctx := { c.zn32 p.1 with fC := p.2.1, fV := p.2.2 }

/-- Z and N of a logic result, C and V cleared (R197). -/
def Ctx.logic (c : Ctx) (r : W32) : Ctx := { c.zn32 r with fC := false, fV := false }

/-- CMP of a 16-bit register: Z, N and C of the 16-bit difference, V cleared (R197, R198). -/
def Ctx.cmp16 (c : Ctx) (r : W16) (i : Byte) : Ctx :=
  { c.zn16 (r - i.setWidth 16) with fC := decide (i.toNat ≤ r.toNat), fV := false }

/-- The kinds of shift of class 0xC. -/
inductive LkShift where
  | shl | shr | asr | rol | ror
  deriving DecidableEq, Repr

/-- A shifted or rotated by n: the result and the last bit shifted out or carried round (R198); n ≥ 1. -/
def lkShift (k : LkShift) (a : W32) (n : Nat) : W32 × Bool :=
  match k with
  | .shl => (a <<< n, a.getLsbD (32 - n))
  | .shr => (a >>> n, a.getLsbD (n - 1))
  | .asr => (a.sshiftRight n, a.getLsbD (n - 1))
  | .rol => (a.rotateLeft n, a.getLsbD (32 - n))
  | .ror => (a.rotateRight n, a.getLsbD (n - 1))

/-- The context after a shift: with count 0, A and C stay and Z and N are taken from A; V is cleared (R197, R198). -/
def Ctx.shift (c : Ctx) (k : LkShift) (n : Nat) : Ctx :=
  if n = 0 then { c.zn32 c.a with fV := false }
  else
    let (r, out) := lkShift k c.a n
    { c.zn32 r with a := r, fC := out, fV := false }

/-- The flags as EMU_STAT saves them: [3:0] N, Z, C, V, high to low (R194). -/
def Ctx.flagBits (c : Ctx) : Nat := b2n c.fN * 8 + b2n c.fZ * 4 + b2n c.fC * 2 + b2n c.fV

/-- The flags restored from EMU_STAT (R207). -/
def Ctx.restoreFlags (c : Ctx) : Ctx :=
  { c with fN := c.emuStat.getLsbD 3, fZ := c.emuStat.getLsbD 2, fC := c.emuStat.getLsbD 1, fV := c.emuStat.getLsbD 0 }

end Sys2Proof.Machine
end

