-- ==== Sys2Proof/Machine/LkDecode.lean ====
section
/-!
DEFINITION. The encoding of Lockkeeper instructions (R195 to R197, R199): decoding a word and its extension word, and
the words of an instruction. A word that decodes to nothing is reserved.
-/
namespace Sys2Proof.Machine

/-- The field [hi:lo] of a program word. -/
def wf (w : W16) (hi lo : Nat) : Nat := (w.toNat / 2 ^ lo) % 2 ^ (hi + 1 - lo)

/-- The operand of classes 0x1, 0x2 and 0x4–0xB: the word's mode, H and byte, and the extension word (R196). -/
def lkOperand (w ext : W16) : LkOperand :=
  let h := w.getLsbD 8
  let b := BitVec.ofNat 8 w.toNat
  match wf w 11 9 with
  | 0 => .short b h
  | 1 => .long ext h
  | 2 => .page b h
  | 3 => .ctrl b h
  | 4 => .abs ext h
  | 5 => .absX ext h
  | 6 => .absY ext h
  | _ => .ptrY b h

/-- Words of an operand form (R196). -/
def LkOperand.words : LkOperand → Nat
  | .long _ _ | .abs _ _ | .absX _ _ | .absY _ _ => 2
  | _ => 1

def LkOperand16.words : LkOperand16 → Nat
  | .long _ | .abs _ => 2
  | _ => 1

/-- The operand of class 0x3 (R196). -/
def lkOperand16 (w ext : W16) : Option LkOperand16 :=
  let b := BitVec.ofNat 8 w.toNat
  match wf w 9 8 with
  | 0 => if wf w 7 0 = 0 then some (.long ext) else none
  | 1 => some (.page b)
  | 2 => some (.ctrl b)
  | _ => if wf w 7 0 = 0 then some (.abs ext) else none

/-- The instruction that a word and the word after it encode; none for a reserved word (R197, R199). -/
def lkDecode (w ext : W16) : Option LkInstr :=
  let b := BitVec.ofNat 8 w.toNat
  let op := lkOperand w ext
  match wf w 15 12 with
  | 0x0 =>
    match wf w 11 8 with
    | 0 =>
      match wf w 7 0 with
      | 0x00 => some .nop
      | 0x01 => some .endCtx
      | 0x02 => some .yield
      | 0x03 => some .rts
      | 0x04 => some .rte
      | 0x08 => some .clrC
      | 0x09 => some .setC
      | 0x0A => some .clrV
      | _ => none
    | 1 =>
      match wf w 7 0 with
      | 0x00 => some .movXA
      | 0x01 => some .movAX
      | 0x02 => some .movYA
      | 0x03 => some .movAY
      | 0x04 => some .movYX
      | 0x05 => some .movXY
      | 0x08 => some .incX
      | 0x09 => some .decX
      | 0x0A => some .incY
      | 0x0B => some .decY
      | _ => none
    | 2 => some (.cmpX b)
    | 3 => some (.cmpY b)
    | 4 => some (.addX b)
    | 5 => some (.addY b)
    | 6 => some (.trap b)
    | _ => none
  | 0x1 => some (.ldA op)
  | 0x2 => if 2 ≤ wf w 11 9 then some (.stA op) else none
  | 0x3 =>
    match wf w 11 10, lkOperand16 w ext with
    | 0, some o => some (.ldX o)
    | 1, some o => some (.ldY o)
    | 2, some o => if wf w 9 8 = 0 then none else some (.stX o)
    | 3, some o => if wf w 9 8 = 0 then none else some (.stY o)
    | _, _ => none
  | 0x4 => some (.addA op)
  | 0x5 => some (.adcA op)
  | 0x6 => some (.subA op)
  | 0x7 => some (.sbcA op)
  | 0x8 => some (.andA op)
  | 0x9 => some (.orA op)
  | 0xA => some (.xorA op)
  | 0xB => some (.cmpA op)
  | 0xC =>
    if wf w 7 5 ≠ 0 then none
    else
      let c := if w.getLsbD 8 then LkCount.fromX else .imm (BitVec.ofNat 5 w.toNat)
      match wf w 11 9 with
      | 0 => some (.shl c)
      | 1 => some (.shr c)
      | 2 => some (.asr c)
      | 3 => some (.rol c)
      | 4 => some (.ror c)
      | _ => none
  | 0xD =>
    match wf w 11 8 with
    | 0 => some (.beq b)
    | 1 => some (.bne b)
    | 2 => some (.bcs b)
    | 3 => some (.bcc b)
    | 4 => some (.bmi b)
    | 5 => some (.bpl b)
    | 6 => some (.bvs b)
    | 7 => some (.bvc b)
    | 8 => some (.bra b)
    | _ => none
  | 0xE =>
    match wf w 11 8 with
    | 0 => if wf w 7 0 = 0 then some (.jmp ext) else none
    | 1 => if wf w 7 0 = 0 then some (.jsr ext) else none
    | 2 => if wf w 7 0 = 0 then some (.jmpX ext) else none
    | 3 => if wf w 7 0 = 0 then some (.jsrX ext) else none
    | 4 => if h : wf w 7 0 < 4 then some (.issue ⟨_, h⟩) else none
    | 5 => if h : wf w 7 0 < 4 then some (.waite ⟨_, h⟩) else none
    | 6 => if h : wf w 7 0 < 4 then some (.polle ⟨_, h⟩) else none
    | _ => none
  | _ => none

/-- Words an instruction takes (R196, R197). -/
def LkInstr.words : LkInstr → Nat
  | .ldA o | .stA o | .addA o | .adcA o | .subA o | .sbcA o | .andA o | .orA o | .xorA o | .cmpA o => o.words
  | .ldX o | .ldY o | .stX o | .stY o => o.words
  | .jmp _ | .jsr _ | .jmpX _ | .jsrX _ => 2
  | _ => 1

/-- Mode, H and byte of an operand, and its extension word, as bits [11:0] of the first word (R196). -/
def LkOperand.bits : LkOperand → Nat × Option W16
  | .short b h => (0x000 + b2n h * 256 + b.toNat, none)
  | .long w h => (0x200 + b2n h * 256, some w)
  | .page b h => (0x400 + b2n h * 256 + b.toNat, none)
  | .ctrl b h => (0x600 + b2n h * 256 + b.toNat, none)
  | .abs w h => (0x800 + b2n h * 256, some w)
  | .absX w h => (0xA00 + b2n h * 256, some w)
  | .absY w h => (0xC00 + b2n h * 256, some w)
  | .ptrY b h => (0xE00 + b2n h * 256 + b.toNat, none)

def LkOperand16.bits : LkOperand16 → Nat × Option W16
  | .long w => (0x000, some w)
  | .page b => (0x100 + b.toNat, none)
  | .ctrl b => (0x200 + b.toNat, none)
  | .abs w => (0x300, some w)

def LkCount.bits : LkCount → Nat
  | .imm n => n.toNat
  | .fromX => 0x100

/-- A first word and its extension. -/
def lkWords (cls : Nat) (p : Nat × Option W16) : List W16 :=
  BitVec.ofNat 16 (cls * 0x1000 + p.1) :: p.2.toList

/-- The words of an instruction (R195 to R197). -/
def lkEncode : LkInstr → List W16
  | .ldA o => lkWords 0x1 o.bits
  | .stA o => lkWords 0x2 o.bits
  | .addA o => lkWords 0x4 o.bits
  | .adcA o => lkWords 0x5 o.bits
  | .subA o => lkWords 0x6 o.bits
  | .sbcA o => lkWords 0x7 o.bits
  | .andA o => lkWords 0x8 o.bits
  | .orA o => lkWords 0x9 o.bits
  | .xorA o => lkWords 0xA o.bits
  | .cmpA o => lkWords 0xB o.bits
  | .ldX o => lkWords 0x3 (0x000 + o.bits.1, o.bits.2)
  | .ldY o => lkWords 0x3 (0x400 + o.bits.1, o.bits.2)
  | .stX o => lkWords 0x3 (0x800 + o.bits.1, o.bits.2)
  | .stY o => lkWords 0x3 (0xC00 + o.bits.1, o.bits.2)
  | .nop => [0x0000]
  | .endCtx => [0x0001]
  | .yield => [0x0002]
  | .rts => [0x0003]
  | .rte => [0x0004]
  | .clrC => [0x0008]
  | .setC => [0x0009]
  | .clrV => [0x000A]
  | .movXA => [0x0100]
  | .movAX => [0x0101]
  | .movYA => [0x0102]
  | .movAY => [0x0103]
  | .movYX => [0x0104]
  | .movXY => [0x0105]
  | .incX => [0x0108]
  | .decX => [0x0109]
  | .incY => [0x010A]
  | .decY => [0x010B]
  | .cmpX i => [BitVec.ofNat 16 (0x0200 + i.toNat)]
  | .cmpY i => [BitVec.ofNat 16 (0x0300 + i.toNat)]
  | .addX i => [BitVec.ofNat 16 (0x0400 + i.toNat)]
  | .addY i => [BitVec.ofNat 16 (0x0500 + i.toNat)]
  | .trap n => [BitVec.ofNat 16 (0x0600 + n.toNat)]
  | .shl c => [BitVec.ofNat 16 (0xC000 + c.bits)]
  | .shr c => [BitVec.ofNat 16 (0xC200 + c.bits)]
  | .asr c => [BitVec.ofNat 16 (0xC400 + c.bits)]
  | .rol c => [BitVec.ofNat 16 (0xC600 + c.bits)]
  | .ror c => [BitVec.ofNat 16 (0xC800 + c.bits)]
  | .beq o => [BitVec.ofNat 16 (0xD000 + o.toNat)]
  | .bne o => [BitVec.ofNat 16 (0xD100 + o.toNat)]
  | .bcs o => [BitVec.ofNat 16 (0xD200 + o.toNat)]
  | .bcc o => [BitVec.ofNat 16 (0xD300 + o.toNat)]
  | .bmi o => [BitVec.ofNat 16 (0xD400 + o.toNat)]
  | .bpl o => [BitVec.ofNat 16 (0xD500 + o.toNat)]
  | .bvs o => [BitVec.ofNat 16 (0xD600 + o.toNat)]
  | .bvc o => [BitVec.ofNat 16 (0xD700 + o.toNat)]
  | .bra o => [BitVec.ofNat 16 (0xD800 + o.toNat)]
  | .jmp a => [0xE000, a]
  | .jsr a => [0xE100, a]
  | .jmpX a => [0xE200, a]
  | .jsrX a => [0xE300, a]
  | .issue s => [BitVec.ofNat 16 (0xE400 + s.val)]
  | .waite s => [BitVec.ofNat 16 (0xE500 + s.val)]
  | .polle s => [BitVec.ofNat 16 (0xE600 + s.val)]

/-- The instruction has an encoding: ST A takes no immediate, ST X and ST Y no LONG (R199). -/
def LkInstr.wellFormed : LkInstr → Bool
  | .stA (.short _ _) | .stA (.long _ _) => false
  | .stX (.long _) | .stY (.long _) => false
  | _ => true

end Sys2Proof.Machine
end

