-- ==== Sys2Proof/Machine/Faults.lean ====
section
/-!
DEFINITION. The fault collector's own part of an event: counting, promotion, the status bit, the record, the
interrupt, the error pin and T1 (R507, R508, R511 to R515). What CONTAIN does to a unit stands in Contain.lean.
-/
namespace Sys2Proof.Machine

/-- Source numbers of R507. -/
def srcLkMemCorr : Nat := 0x00
def srcLkMemUncorr : Nat := 0x01
def srcLkTrap : Nat := 0x02
def srcLkHeartbeat : Nat := 0x03
def srcBsnCorr : Nat := 0x04
def srcBsnUncorr : Nat := 0x05
def srcBsnAudit : Nat := 0x06
def srcBrtCorr : Nat := 0x07
def srcBrtUncorr : Nat := 0x08
def srcKeyCorr : Nat := 0x09
def srcKeyUncorr : Nat := 0x0A
def srcKeyIntegrity : Nat := 0x0B
def srcPlyMemCorr : Nat := 0x0C
def srcPlyMemUncorr : Nat := 0x0D
def srcPlyRcpCopy : Nat := 0x0E
def srcCodMemCorr : Nat := 0x0F
def srcCodMemUncorr : Nat := 0x10
def srcCkcCorr : Nat := 0x11
def srcCkcUncorr : Nat := 0x12
def srcBneMemCorr : Nat := 0x13
def srcBneMemUncorr : Nat := 0x14
def srcSymEngine : Nat := 0x15
def srcHshEngine : Nat := 0x16
def srcPlyEngine : Nat := 0x17
def srcCodEngine : Nat := 0x18
def srcBneEngine : Nat := 0x19
def srcTowpath : Nat := 0x1A
def srcCtlDup : Nat := 0x1B
def srcDmaFabric : Nat := 0x1C
def srcDmaTimeout : Nat := 0x1D
def srcDmaPoison : Nat := 0x1E
def srcSqFetchFault : Nat := 0x1F
def srcCqWriteFault : Nat := 0x20
def srcRngA : Nat := 0x21
def srcRngTotalFail : Nat := 0x24
def srcTmpDisagree : Nat := 0x25
def srcLoadStep : Nat := 0x26
def srcPmHandshake : Nat := 0x27
def srcCfgParity : Nat := 0x28
def srcManifestRejected : Nat := 0x29
def srcMfsAppend : Nat := 0x2A
def srcOtpProg : Nat := 0x2B
def srcKeepAccess : Nat := 0x2C
def srcLifeSat : Nat := 0x2D
def srcPowerCap : Nat := 0x2E
def srcCollectorSelf : Nat := 0x3F

/-- Sources that name no unit (R507). -/
def srcNoUnit (src : Nat) : Bool := [0x06, 0x1F, 0x20, 0x26, 0x29, 0x2A, 0x2B, 0x2D, 0x2E].contains src

/-- Sources that can be promoted by count (R507, R511). -/
def srcPromotable (src : Nat) : Bool := [0x07, 0x09, 0x1D, 0x21, 0x22, 0x23, 0x25].contains src

/-- Domains without a replacement: CONTAIN acts as CRITICAL (R509). -/
def domNoReplacement (d : Nat) : Bool := [0, 1, 2, 3, 16].contains d

/-- The severity configured for a source: 0x29 fixed at NOTIFY, above 4 taken as 4 (R508). -/
def State.severity (s : State) (src : Nat) : Nat :=
  if src = srcManifestRejected then 2
  else if src = srcCollectorSelf then 4
  else min (s.regF .fltSrcCfg 31 29 src) 4

/-- The calendar in seconds (R536): the value it was last set to and the time since. -/
def State.calBase (s : State) : Nat := (s.reg .lifCalLo).toNat + 2 ^ 32 * (s.reg .lifCalHi).toNat
def State.seconds (s : State) : Nat := s.calBase + Config.elapsed s.free

/-- The phase is an end phase of start-up (R74). -/
def State.endPhase (s : State) : Bool := decide (phReady ≤ s.phase)

/-- T1 starts at a CRITICAL event, or waits for the end phase of start-up (R513, R514, R516). -/
def State.startT1 (s : State) : State :=
  if s.regB .fltEsc 29 ∨ s.safe ∨ s.regF .fltT1 16 0 = 0 then s
  else if s.endPhase then s.setB .fltEsc 31 true
  else { s with flt := { s.flt with t1Waits := true } }

/-- Drives flt_err_n low and restarts its minimum low time (R512). -/
def State.pinLow (s : State) : State :=
  let s := s.setB .fltEsc 25 true
  { s with pins := { s.pins with fltErrN := false }, flt := { s.flt with pinHold := true, pinWanted := false } }

/-- The status bit of a source (R515). -/
def State.statusBit (s : State) (src : Nat) : Bool :=
  if src < 32 then s.regB .fltStatusLo src else s.regB .fltStatusHi (src - 32)

/-- The severity of a source's status bit: the highest that its events were handled at since the bit was set; 0 while the bit
is clear (R508, R511, R512). -/
def State.statusSev (s : State) (src : Nat) : Nat := if s.statusBit src then getKey 0 s.flt.sevs src else 0

/-- Sets the status bit of a source and writes its record into the ring of 16 (R515). -/
def State.record (s : State) (src sev unit detail : Nat) (promoted injected : Bool) : State :=
  let n := s.regF .fltRecPtr 3 0
  let a := src * 2 ^ 26 + sev * 2 ^ 23 + b2n promoted * 2 ^ 22 + b2n injected * 2 ^ 21 + unit % 128 * 2 ^ 14
  let s : State := { s with flt := { s.flt with sevs := setKey 0 s.flt.sevs src (max (s.statusSev src) sev) } }
  let s := if src < 32 then s.setB .fltStatusLo src true else s.setB .fltStatusHi (src - 32) true
  let s := s.setReg .fltRecA (BitVec.ofNat 32 a) n
  let s := s.setReg .fltRecB (BitVec.ofNat 32 (detail % 2 ^ 16)) n
  let s := (s.setReg .fltRecC (BitVec.ofNat 32 s.seconds) n).drawn
  let s := s.setF .fltRecPtr 3 0 (n + 1)
  s.setF .fltRecPtr 31 16 (satAdd 0xFFFF (s.regF .fltRecPtr 31 16) 1)

/-- The promotion window of a source with this event counted (R511): the machine, and whether the event completes it. -/
def State.promote (s : State) (src : Nat) : State × Bool :=
  let n := s.regF .fltSrcCfg 23 16 src
  if srcPromotable src ∧ 1 ≤ n then
    let w := s.regF .fltSrcCount 15 8 src + 1
    if n ≤ w then (s.setF .fltSrcCount 15 8 0 src, true) else (s.setF .fltSrcCount 15 8 w src, false)
  else (s, false)

/-- The severity an event is handled at (R509, R511). -/
def State.applied (s : State) (src unit : Nat) (promoted : Bool) : Nat :=
  let sev := s.severity src
  let sev := if promoted then max sev (if s.regF .fltSrcCfg 28 26 src = 4 then 4 else 3) else sev
  if srcNoUnit src then (if sev = 3 then 2 else sev)
  else if sev = 3 ∧ domNoReplacement unit then 4
  else sev

/-- Records a fault event and takes every action but containment, which it leaves to the end of the command (R508).
Answers the severity applied. -/
def State.recordEvent (s : State) (src unit detail : Nat) (injected : Bool := false) : State × Nat :=
  let s := s.setF .fltSrcCount 31 16 (satAdd 0xFFFF (s.regF .fltSrcCount 31 16 src) 1) src
  let unit' := if srcNoUnit src ∧ !injected then s.pick % 96 else unit
  let s := if srcNoUnit src ∧ !injected then s.drawn else s
  let s := s.setF .fltSrcCount 6 0 unit' src
  let (s, promoted) := s.promote src
  let sev := s.applied src unit' promoted
  let s := if 1 ≤ sev then s.record src sev unit' detail promoted injected else s
  let s := if 2 ≤ sev ∧ s.regB .fltCfg 31 then s.fireVec 0 (s.regF .fltCfg 28 24) else s
  let s := if sev = 4 then s.pinLow.startT1 else s
  let s : State := if 3 ≤ sev ∧ !srcNoUnit src then { s with toContain := s.toContain ++ [(unit', detail)] } else s
  (s, sev)

/-- Raises a fault event (R508). -/
def State.event (s : State) (src unit detail : Nat) : State := (s.recordEvent src unit detail).1

/-- flt_irq: a status bit of severity NOTIFY or above is set and unmasked (R44). -/
def State.fltIrq (s : State) : Bool :=
  (numsFrom 0 64).any (fun i =>
    decide (2 ≤ s.statusSev i) && !(if i < 32 then s.regB .fltMaskLo i else s.regB .fltMaskHi (i - 32)))

/-- A status bit of severity CRITICAL is set (R512). -/
def State.criticalSet (s : State) : Bool := (numsFrom 0 64).any (fun i => decide (s.statusSev i = 4))

end Sys2Proof.Machine
end

