-- ==== Sys2Proof/Machine/Abort.lean ====
section
/-!
DEFINITION. Berths as the rest of the block meets them, and what an engine does to its own state when the request it runs
is aborted (R137 step 3, R160 step 2, R260, R263, R274).
-/
namespace Sys2Proof.Machine

def State.berth (s : State) (i : Nat) : Berth := getKey {} s.berths i
def State.setBerth (s : State) (i : Nat) (b : Berth) : State := { s with berths := setKey {} s.berths i b }

/-- Clears the round keys that cores cached from a slot or a berth (R246). -/
def State.clearRoundKeys (s : State) (berth : Bool) (i : Nat) : State :=
  { s with roundKeys := s.roundKeys.filterMap (fun (c, l) =>
      let l := l.filter (fun e => !(e.berth == berth && e.index == i))
      if l.isEmpty then none else some (c, l)) }

/-- The cache areas that a berth links to become free (R320, R322). -/
def State.freeAreas (s : State) (i : Nat) : State :=
  { s with plys := s.plys.map (fun p => { p with areas := p.areas.filter (fun e => e.2.berth ≠ i) }) }

/-- LINK of a linked berth cleared (R320, R322). -/
def State.clearLink (s : State) (i : Nat) : State :=
  let b := s.berth i
  if b.state = .free then s else s.setBerth i { b with auxk := b.auxk.take 16 ++ zeros 16 }

/-- Zeroizes and frees a berth; its generation moves on (R257, R263). -/
def State.freeBerth (s : State) (i : Nat) : State :=
  let g := (s.berth i).gen
  { ((s.setBerth i {}).clearRoundKeys true i).freeAreas i with berthGens := setKey 0 s.berthGens i (g + 1) }

/-- A berth that a suspended or aborted request leaves returns to its committed state (R260, R274). -/
def State.restoreBerth (s : State) (i : Nat) (init : Bool) : State :=
  let b := s.berth i
  if b.state = .suspended then
    s.setBerth i { b with state := if init then .idle else .openMsg, susp := [] }
  else s

/-- The request works on berth i: what the berth holds before it is kept until the request ends (R260, R264). -/
def State.keepBefore (s : State) (rid i : Nat) : State :=
  s.updReq rid (fun r => { r with berth := some i, before := some { s.berth i with gen := getKey 0 s.berthGens i } })

/-- The request rewrites the whole of a berth: BERTH_SETUP, BERTH_SEAL_IN and BERTH_RELEASE. -/
def Desc.wholeBerth (d : Desc) : Bool := d.op == some .berthSetup || d.op == some .berthSealIn || d.op == some .berthRelease

/-- A request that ends with another status than OK or VERIFY_FAILED leaves the message state of its berth as it was before it began,
and a berth that it set up or released as it was; the generation has moved on (R257, R260). -/
def State.unwriteBerth (s : State) (r : Req) (st : Status) : State :=
  match r.berth, r.before with
  | some i, some b =>
    let c := s.berth i
    if st = .ok ∨ st = .verifyFailed then s
    else if r.desc.wholeBerth then
      if getKey 0 s.berthGens i ≠ b.gen + 1 then s
      else if b.state = .free then s.freeBerth i
      else (s.setBerth i { b with gen := b.gen + 1 }).clearRoundKeys true i
    else if c.gen ≠ b.gen ∨ c.state = .free ∨ c.state = .invalid then s
    else s.setBerth i { c with state := b.state, cb := b.cb, acc := b.acc, accTop := b.accTop, auxk := b.auxk, msgBlocks := b.msgBlocks,
                               aadBytes := b.aadBytes }
  | _, _ => s

/-- The polynomial engine that runs a request zeroizes its working memory, slots 0–31; its cache region stays (R334). -/
def State.clearWork (s : State) (id : Nat) : State :=
  { s with
    plys := s.plys.map (fun p =>
      if p.run.map (·.req) = some id then { p with run := none, slots := p.slots.filter (fun e => decide (32 ≤ e.1)), shares := p.shares.filter (fun e => decide (32 ≤ e.1)) } else p)
    operands := (s.sealGroup id).operands }

/-- A code engine zeroizes its working memory (R356). -/
def State.clearCode (s : State) (r : Req) : State :=
  if r.unit = .cod ∧ r.phase = .running then s.zeroWork (s.physical 4 r.inst) else s

/-- The engine of a request clears its working state as its chapter states. What an operation commits, it commits when
it produces its result, so an abort before that leaves a suspended berth to restore and working memory to zeroize. -/
def State.abortEngine (s : State) (r : Req) : State :=
  let s := (s.clearWork r.id).clearCode r
  match r.berth with
  | some i => s.restoreBerth i (r.desc.param.getLsbD 9)
  | none => s

end Sys2Proof.Machine
end

