-- ==== Sys2Proof/Machine/DmaIssue.lean ====
section
/-!
DEFINITION. The reservation words, and the issue of bursts on the DMA master port: tags, engines, identifiers, and the precedence of
function resets (R33 to R36, R173, R469).
-/
namespace Sys2Proof.Machine

/-! ### Reservation words -/

/-- The first-choice class code of a reservation entry (QOS_RSV_A.CLASS). -/
def rsvClass (a : W32) : Nat := fld a 19 16
def rsvPtn (a : W32) : Nat := fld a 29 24
def rsvInst (a : W32) : Nat := fld a 5 0
def rsvLending (a : W32) : Bool := bitOf a 30
def rsvLength (b : W32) : Nat := fld b 25 16
def rsvOffset (b : W32) : Nat := fld b 9 0

/-! ### Tags (R34) -/

/-- The first number of a list that `used` does not hold. -/
def firstFree (used : Nat → Bool) (l : List Nat) : Option Nat := l.find? (fun n => !used n)

/-- The DMA engine that takes the next read, with its read tag (R34). -/
def State.readTag (s : State) : Option (Nat × Nat) :=
  match firstFree (fun t => s.reads.any (fun x => x.tag = t)) (numsFrom 0 256) with
  | none => none
  | some t =>
    ((numsFrom 0 4).find? (fun e => s.dmaInService e &&
      decide ((s.reads.filter (fun x => x.engine = e)).length < 128))).map (fun e => (e, t))

/-- The DMA engine that takes the next write, with its write tag (R34). -/
def State.writeTag (s : State) : Option (Nat × Nat) :=
  match firstFree (fun t => s.writes.any (fun x => x.tag = t)) (numsFrom 0 128) with
  | none => none
  | some t =>
    ((numsFrom 0 4).find? (fun e => s.dmaInService e &&
      decide ((s.writes.filter (fun x => x.engine = e)).length < 64))).map (fun e => (e, t))

/-- Bytes of a buffer of `len` bytes at `addr` that one burst may carry: none crosses a 4 KiB boundary (R34). -/
def burstLen (addr len : Nat) : Nat := min len (4096 - addr % 4096)

/-- The identifier of a read: an unlock record is fetched under 0 in phase LIMITED (R35, R497). -/
def State.readAsid (s : State) (f : ReadFor) (p : Nat) : Nat := if f = .unlock ∧ s.phase = phLimited then 0 else s.asid p

/-! ### Precedence of a function reset (R469) -/

/-- A function reset of the partition is under way (R466). -/
def State.resetOf (s : State) (p : Nat) : Bool := s.resets.any (fun r => r.ptn = p)

/-- A completion ring has an unreserved slot and no entry waits for it (R116, R137 step 5). -/
def State.cqTakes (s : State) (p c : Nat) : Bool :=
  decide (s.cqState p c = 1 ∧ 0 < s.cqRoom p c) && !s.cu.any (fun e => e.ptn == p && e.cq == c)

/-- Ring n of a partition under reset: 0 nothing is left to flush, 1 its next descriptor can be fetched, 2 a fetch is under way or
earlier entries are written first, 3 its completion ring has no free entry (R468). -/
def State.flushState (s : State) (p n : Nat) : Nat :=
  if s.sqState p n ≠ 2 ∨ s.flushEnded.contains (p, n) then 0
  else if s.reads.any (fun x => x.purpose = .flush p n) then 2
  else if s.sqAvail p n = 0 then 0
  else if s.sqInPlace p n ∨ s.cqTakes p (s.sqCq p n) then 1
  else if s.cqState p (s.sqCq p n) = 1 ∧ 0 < s.cqRoom p (s.sqCq p n) then 2
  else 3

/-- The lowest ring of a partition under reset that is not flushed. -/
def State.flushRing (s : State) (p : Nat) : Option Nat := (numsFrom 0 16).find? (fun n => s.flushState p n ≠ 0)

/-- A function reset waits to read a descriptor: no other read goes before it. -/
def State.resetReads (s : State) : Bool :=
  s.resets.any (fun r => r.begun && decide ((s.flushRing r.ptn).map (s.flushState r.ptn) = some 1))

/-- A finished request without a slot of its own takes, where its completion ring has no unreserved slot left, the slot of another
request, and that one its place: entries are written in the order they finished (R116, R140). DESIGN CHOICE; log entry 95. -/
def State.tradePlace (s : State) (p c : Nat) (r : Req) : State :=
  if r.place = .ringSlot ∨ 0 < s.cqRoom p c then s
  else
    match s.reqs.find? (fun x => x.ptn = p ∧ x.open ∧ x.place = .ringSlot ∧ s.sqCq p x.ring = c) with
    | none => s
    | some x => (s.updReq x.id (fun x => { x with place := r.place })).updReq r.id (fun r => { r with place := .ringSlot })

/-- The entry of a completion ring that finished first among those that wait, with its request and the machine in which that has a
place to go. -/
def State.writable (s : State) (p c : Nat) : Option (State × Entry × Req) :=
  match s.cu.find? (fun e => e.ptn = p ∧ e.cq = c) with
  | none => none
  | some e =>
    match (s.findReq e.req).map (s.tradePlace p c) with
    | none => none
    | some t => ((t.findReq e.req).filter (fun r => r.place = .ringSlot ∨ 0 < t.cqRoom p c)).map (fun r => (t, e, r))

/-- A function reset waits to write an entry that has a place to go, its own or a free one, to write one again, or to write one in place:
no other write goes before it. -/
def State.resetWrites (s : State) : Bool :=
  !s.cuOut &&
  (s.cu.any (fun e => s.resetOf e.ptn && decide (s.cqState e.ptn e.cq = 1 ∧ s.cqFill e.ptn e.cq < s.cqSize e.ptn e.cq) &&
      (s.writable e.ptn e.cq).isSome) ||
    s.retries.any (fun r => s.resetOf r.ptn && r.wanted) ||
    s.reqs.any (fun r => s.resetOf r.ptn && r.phase == .finished && s.sqInPlace r.ptn r.ring &&
      (r.inPlaceStage == 0 || r.inPlaceStage == 2 || r.inPlaceStage == 5)))

/-- A transaction of partition p's function reset may use slots of CLOSED shares of its direction, class 6 or 7; which ones is a free
value (R469). -/
def State.lendSlots (s : State) (p cls : Nat) : State :=
  (s.rsvEntries.filter (fun e => rsvClass e.2.1 = cls ∧ rsvPtn e.2.1 ≠ p ∧ !rsvLending e.2.1)).foldl (fun s e =>
    ({ s with sched := { s.sched with
        rsvFlag := setKey false s.sched.rsvFlag (rsvPtn e.2.1) (getKey false s.sched.rsvFlag (rsvPtn e.2.1) || s.pick % 2 == 1) } } : State).drawn) s

/-- A descriptor read, and a completion write. -/
def ReadFor.isFlush : ReadFor → Bool
  | .flush _ _ => true
  | _ => false
def WriteFor.isEntry : WriteFor → Bool
  | .entry _ _ _ _ _ | .inPlaceBody _ | .inPlaceStatus _ => true
  | _ => false

/-! ### Issue -/

/-- Issues a read burst of `len` bytes at `addr` under partition p's identifier (R35), if a tag is free and no function reset goes
before it (R469). -/
def State.issueRead (s : State) (f : ReadFor) (p addr len : Nat) : Option State :=
  let own := f.isFlush && s.resetOf p
  if !own && s.resetReads then none
  else
    let s' := if own then s.lendSlots p 6 else s
    s.readTag.map (fun (e, t) =>
      { s' with reads := s.reads ++ [{ tag := t, engine := e, purpose := f, ptn := p, asid := s.readAsid f p, addr := addr, len := len }] })

/-- Issues a write burst under partition p's identifier, if a tag is free and no function reset goes before it (R469). -/
def State.issueWrite (s : State) (f : WriteFor) (p addr : Nat) (data : Bytes) : Option State :=
  let own := f.isEntry && s.resetOf p
  if !own && s.resetWrites then none
  else
    let s' := if own then s.lendSlots p 7 else s
    s.writeTag.map (fun (e, t) =>
      { s' with writes := s.writes ++ [{ tag := t, engine := e, purpose := f, ptn := p, asid := s.asid p, addr := addr, data := data }] })

/-- Issues the bursts that carry `data` to `addr`, at most two of them when `data` is one cell. -/
def State.issueWrites (s : State) (f : WriteFor) (p addr : Nat) (data : Bytes) : Option State :=
  let n := burstLen addr data.length
  match s.issueWrite f p addr (data.take n) with
  | none => none
  | some s' => if n = data.length then some s' else s'.issueWrite f p (addr + n) (data.drop n)

/-- The writes of a request that have no response yet. -/
def State.reqWrites (s : State) (id : Nat) : Nat :=
  (s.writes.filter (fun w => !w.dead && (match w.purpose with
    | .output r => r = id
    | .scrub r => r = id
    | _ => false))).length

end Sys2Proof.Machine
end

