-- ==== Sys2Proof/Machine/PmPort.lean ====
section
/-!
DEFINITION. Requests on the pm port that a power domain change its state (R62, R63, R520).
-/
namespace Sys2Proof.Machine

/-- Moves waiting domain requests to the port: at most four outstanding, each for another domain; wakes wait while the draw
is over a lowered cap (R62, R65). -/
def State.pumpPm : Nat → State → State
  | 0, s => s
  | n + 1, s =>
    if 4 ≤ s.power.asked.length then s
    else
      match s.power.queue.find? (fun e => !s.power.asked.any (fun a => a.1 = e.1) && !(e.2 == 2 && s.power.capWait)) with
      | none => s
      | some e =>
        let s : State := { s with power := { s.power with asked := s.power.asked ++ [e], queue := s.power.queue.erase e } }
        let s : State := if e.2 = 2 ∧ s.domState e.1 = 0 then
            { s with power := { s.power with fromOff := s.power.fromOff ++ [e.1] } } else s
        State.pumpPm n (if e.2 = 2 then s.setDom e.1 3 else s)

/-- Requests that a domain go to a state: 0 OFF, 1 RETENTION, 2 ON. -/
def State.askDom (s : State) (d op : Nat) : State :=
  if s.power.asked.contains (d, op) ∨ s.power.queue.contains (d, op) then s
  else State.pumpPm 4 { s with power := { s.power with queue := s.power.queue ++ [(d, op)] } }

/-- Wakes a domain that is not ON (R520). -/
def State.wake (s : State) (d : Nat) : State := if s.domOn d then s else s.askDom d 2

def State.wakeAll (s : State) (ds : List Nat) : State := ds.foldl State.wake s

/-- The domain of the engine that holds lines: PD59–74 and PD75–78. -/
def State.lineDomain (s : State) (e : Nat) : Nat := if e < 16 then 59 + s.physical 3 e else 75 + s.physical 4 (e - 16)

/-- An access to holds wakes the domains of their lines that are in retention (R158). -/
def State.wakeLines (s : State) (hs : List Hold) : State := s.wakeAll (hs.filterMap (fun h => h.line.map (fun l => s.lineDomain l.1)))

end Sys2Proof.Machine
end

