-- ==== Sys2Proof/Machine/Complete.lean ====
section
/-!
DEFINITION. How a request ends: posting its result, the scrub, its completion entry, tow failure, the end of a tow and
the end of a ring stop (R22, R128 to R131, R137, R160, R161, R203, R227, R235, R557).
-/
namespace Sys2Proof.Machine

/-- A request whose entry stands in the completion unit or is written has completed (R156, R163). -/
def Req.completed (r : Req) : Bool := r.phase == .finished || r.phase == .written

/-- The request runs on an engine. -/
def Req.onEngine (r : Req) : Bool := r.phase == .running || r.phase == .suspended || r.phase == .paused

/-- The FLAGS byte of an entry, PHASE 0 (R129). -/
def entryFlags (r : Req) (res : Result) : Nat :=
  let tow := r.tow.isSome || r.inTow
  2 + b2n res.iterOverrun * 4 + b2n tow * 8 + b2n (tow && !r.desc.chain) * 16 +
    b2n res.scrubbed * 32 + b2n res.detail.isSome * 64

/-- The completion entry of a request (R128 to R131). -/
def entryOf (s : State) (r : Req) (res : Result) : Entry :=
  { req := r.id, ptn := r.ptn, ring := r.ring, cq := s.sqCq r.ptn r.ring, reqTag := r.desc.reqTag, status := res.status,
    flags := entryFlags r res, unit := res.unit.code, inst := res.inst,
    outLen := res.detail.getD (BitVec.ofNat 32 res.outLen), resultH := res.resultH, irq := r.desc.irq }

/-- The word at offset 0x4 of an entry, and the status word of an in-place completion (R128, R134). -/
def Entry.word (e : Entry) (phase : Nat) : W32 :=
  BitVec.ofNat 32 (e.status.code + (e.flags + phase) * 2 ^ 8 + e.inst % 256 * 2 ^ 16 + e.unit * 2 ^ 24)

/-- The 16 bytes of an entry with its PHASE (R128, R110). -/
def Entry.bytes (e : Entry) (phase : Nat) : Bytes :=
  toLe 4 e.reqTag.toNat ++ toLe 4 (e.word phase).toNat ++ toLe 4 e.outLen.toNat ++ toLe 4 e.resultH.toNat

/-- Bytes 0x30–0x3B of an in-place completion (R134). -/
def Entry.body (e : Entry) : Bytes :=
  toLe 4 e.reqTag.toNat ++ toLe 4 e.outLen.toNat ++ toLe 4 e.resultH.toNat

/-- The address of the descriptor slot of a request (R104, R105). -/
def State.slotAddr (s : State) (r : Req) : Nat := s.sqBase r.ptn r.ring + 64 * (r.index % s.sqSize r.ptn r.ring)

/-! ### Lockkeeper side of a completion -/

def State.updLk (s : State) (n : Nat) (f : Lk → Lk) : State := { s with lks := modAt f n s.lks }

def Lk.updCtx (l : Lk) (c : Nat) (f : Ctx → Ctx) : Lk := { l with ctxs := modAt f c l.ctxs }

def Lk.updFrame (l : Lk) (n : Nat) (f : Frame → Frame) : Lk := { l with frames := modAt f n l.frames }

/-- Every frame that holds a request, changed. -/
def State.updFramesOf (s : State) (id : Nat) (f : Frame → Frame) : State :=
  { s with lks := s.lks.map (fun l =>
      { l with frames := l.frames.map (fun fr => if fr.valid ∧ fr.req = id then f fr else fr) }) }

/-- A context that waits in WAITE on a slot becomes READY once the slot is DONE (R203). -/
def Ctx.wake (c : Ctx) (slot : Nat) : Ctx :=
  if c.state = .waitSlot slot then { c with state := .ready } else c

/-- A kept slot receives a copy of the entry (R193, R203). -/
def State.slotDone (s : State) (r : Req) (e : Entry) : State :=
  match r.keep with
  | none => s
  | some k =>
    s.updLk k.lk (fun l => l.updCtx k.ctx (fun c =>
      { c with slots := modAt (fun sl =>
          { sl with result := e.word 0, outLen := e.outLen, resultH := e.resultH, state := 3 }) k.slot c.slots }.wake k.slot))

/-! ### Cells and reads of a request -/

/-- Returns every cell and credit of a request to the pool; beats still to come are discarded (R229), and what its input queue held
is gone (R19). -/
def State.freeCells (s : State) (id : Nat) : State :=
  match s.findReq id with
  | none => s
  | some r =>
    let k := if s.reads.any (fun x => x.purpose = .input id && !x.discard && !x.dead) then
        ceilDiv r.bas.asked 128 - r.bas.input.length / 128 else 0
    let keep := r.bas.inBanks.length - k
    let s := s.returnCells (r.bas.inBanks.take keep ++ r.bas.outBanks)
    let s := s.updReq id (fun r => { r with bas := { r.bas with inBanks := [], outBanks := [], credited := 0, creditedOut := 0, input := [], early := [], badIn := [], badOut := [] } })
    { s with reads := s.reads.map (fun x =>
        if x.purpose = .input id && !x.discard && !x.dead then { x with discard := true, held := r.bas.inBanks.drop keep }
        else x) }

/-! ### Entries -/

/-- Issues the first part of an in-place completion (R135), if a write tag is free. -/
def State.inPlaceBody (s : State) (r : Req) (e : Entry) : State :=
  if s.cuOut then s else
  match s.issueWrite (.inPlaceBody r.id) r.ptn (s.slotAddr r + 0x30) e.body with
  | none => s
  | some s => s.updReq r.id (fun r => { r with inPlaceStage := 1 })

/-- Hands the entry of a request to the completion unit. The request has completed, and does so once (R23). A request that no place was
reserved for takes one now if there is one (R144). -/
def State.appendEntry (s : State) (id : Nat) (res : Result) : State :=
  match s.findReq id with
  | none => s
  | some r =>
    if r.completed then s else
    let place := if r.place = .none then (s.nextPlace r.ptn r.ring 0 0).getD .none else r.place
    let e := entryOf s r res
    let s := ((s.unwriteBerth r res.status).freeCells id).updReq id (fun r => { r with phase := .finished, result := some res, place := place })
    let s := s.updFramesOf id (fun f => { f with completed := true, doneStatus := res.status.code })
    let s := s.slotDone r e
    let s := if res.status = .entropyHalted ∨ res.status = .entropyNotReady then
        s.setF .rngPtnStatus 31 16 (s.regF .rngPtnStatus 31 16 r.ptn + 1) r.ptn
      else s
    if s.sqInPlace r.ptn r.ring then s.inPlaceBody r e else { s with cu := s.cu ++ [e] }

/-- The result of a request that never reached an engine, or whose engine's result is not used. -/
def plainResult (st : Status) (u : Unit) (inst : Nat) : Result := { status := st, unit := u, inst := inst }

/-! ### Ending a request -/

/-- The destination buffer lies in host memory. -/
def Req.hostDst (r : Req) : Bool := !r.desc.holdOut && r.desc.writesDst && decide (0 < r.desc.dstLen.toNat)

/-- Issues the next scrub write of a request, one burst at a time (R227 step 2, R228). -/
def State.scrubNext (s : State) (id : Nat) : State :=
  match s.findReq id with
  | none => s
  | some r =>
    match r.scrub with
    | .upTo done =>
      let left := r.desc.dstLen.toNat - done
      if left = 0 then s.updReq id (fun r => { r with scrub := .finished })
      else
        let a := r.desc.dstAddr.toNat + done
        let n := burstLen a left
        match s.issueWrite (.scrub id) r.ptn a (zeros n) with
        | none => s
        | some s => s.updReq id (fun r => { r with scrub := .upTo (done + n) })
    | _ => s

/-- Sets poison in a request's tag (R18). -/
def State.poisonTag (s : State) (id : Nat) : State := s.updReq id (fun r => { r with poison := true })

/-- Poison is set in a request's tag by now. -/
def State.poisoned (s : State) (r : Req) : Bool := ((s.findReq r.id).map (·.poison)).getD r.poison

/-- What a request reports that ends without its engine's result, and whether its destination is scrubbed: a poisoned one
DATA_POISONED, whatever ends it but a zeroize; one that was issued is scrubbed, and an object that it committed before stays named (R18,
R235, R493). -/
def Req.ended (r : Req) (res : Result) : Result × Bool :=
  if r.poison && res.status != .tamperAbort && res.status != .dataPoisoned then
    let issued := r.phase != .fetched && r.phase != .admitted
    ({ res with
        status := .dataPoisoned, out := [], outLen := 0, detail := none, iterOverrun := false, scrubbed := issued,
        resultH := (r.result.map (·.resultH)).getD 0 },
      issued && r.hostDst)
  else (res, false)

/-- An earlier member of the tow has not completed, and its entry stands first: those of a zeroize, and TOW_SKIPPED, are written in
member order (R160 step 4, R162). -/
def State.orderWaits (s : State) (r : Req) (res : Result) : Bool :=
  r.tow.isSome &&
  s.reqs.any (fun m => m.tow == r.tow && decide (m.pos < r.pos) && m.phase == .posted &&
    (res.status == .tamperAbort || (res.status == .towSkipped &&
      ((m.result.map (·.status)) == some .towSkipped || (m.result.map (·.status)) == some .dataPoisoned))))

/-- Ends a request without its engine's result. Its entry waits for the writes that it has outstanding (R22), for its scrub, and for
the entries that stand before it. -/
def State.endWith (s : State) (id : Nat) (res : Result) : State :=
  match s.findReq id with
  | none => s
  | some r =>
    if r.completed then s
    else
      let (res, scrub) := r.ended res
      if scrub ∨ s.reqWrites id ≠ 0 ∨ s.orderWaits r res then
        let s := (s.freeCells id).updReq id (fun r =>
          { r with phase := .posted, result := some res, scrub := if scrub then .upTo 0 else .none })
        if s.reqWrites id = 0 ∧ scrub then s.scrubNext id else s
      else s.appendEntry id res

/-- Zeroizes the eight holds of a tow (R160 step 3). SECRET stays set for the life of the tow (R153). -/
def State.zeroHolds (s : State) (tow : Nat) : State :=
  (s.wakeLines ((s.findTow tow).map (·.holds) |>.getD [])).updTow tow (fun t =>
    { t with holds := t.holds.map (fun h => { h with bytes := zeros h.bytes.length, len := 0, mem := 0 }) })

/-- The requests named, still listed. -/
def State.reqsOf (s : State) (ids : List Nat) : List Req := ids.filterMap s.findReq

/-- Step 4 of R160 for one member after the failed one: it has neither completed nor produced its result. DESIGN CHOICE: one that has
not reached an engine names the completion unit, class 0x0E; log entry 120. -/
def State.skipMember (s : State) (r : Req) : State :=
  match r.phase with
  | .running | .suspended | .paused => s.endWith r.id (plainResult .towSkipped r.unit r.inst)
  | .fetched | .admitted | .queued => s.endWith r.id (plainResult .towSkipped .completion 0)
  | .produced | .posted | .finished | .written => s

/-- What follows the entry of a member that failed (R160 steps 2 to 4). -/
def State.towFail (s : State) (r : Req) : State :=
  match r.tow with
  | none => s
  | some t =>
    match s.findTow t with
    | none => s
    | some tow =>
      let later := (s.reqsOf tow.members).filter (fun m => decide (r.pos < m.pos))
      let s := (later.filter Req.onEngine).foldl State.abortEngine s
      let s := (s.zeroHolds t).updTow t (fun t => { t with failed := true })
      later.foldl State.skipMember s

/-- What follows the entry of a request: a berth sealed out is freed once its blob is written (R264), and a member that failed fails
its tow. -/
def State.afterEntry (s : State) (r : Req) (st : Status) : State :=
  let s := match r.desc.op, r.berth with
    | some .berthSealOut, some i =>
      if st = .ok ∧ r.before.any (fun b => b.gen == getKey 0 s.berthGens i) then s.freeBerth i else s
    | _, _ => s
  if st = .ok then s else s.towFail r

/-- A request whose writes are all accepted completes. -/
def State.closeReq (s : State) (id : Nat) (res : Result) : State :=
  match s.findReq id with
  | none => s
  | some r => if r.completed then s else (s.appendEntry id res).afterEntry r res.status

/-- Ends a request without its engine's result: its entry, and the failure of its tow unless the status is OK. -/
def State.finishReq (s : State) (id : Nat) (res : Result) : State :=
  match s.findReq id with
  | none => s
  | some r =>
    let s := s.endWith id res
    match (s.findReq id).filter Req.completed with
    | none => s
    | some r' => if r.completed then s else s.afterEntry r ((r'.result.map (·.status)).getD res.status)

/-- Ends a request that never reached an engine, in the name of a unit. -/
def State.endReq (s : State) (id : Nat) (st : Status) (u : Unit) (inst : Nat := 0) : State :=
  s.finishReq id (plainResult st u inst)

/-! ### Posting a result -/

/-- Output bytes that no write carries any more are dropped: only what was released stays (R227 step 1). -/
def Req.dropOutput (r : Req) (res : Result) : Result := { res with out := res.out.take r.bas.released }

/-- What a posted request reports, and whether its destination is scrubbed: poison (R18, R235), a DMA fault (R557), a failed tag or
MAC (R227), or the engine's result as it stands. A failed check or a read fault scrubs once some output has been released. -/
def Req.outcome (r : Req) (res : Result) : Result × Bool :=
  if r.poison then
    ({ r.dropOutput res with
        status := .dataPoisoned, detail := none, iterOverrun := false,
        scrubbed := true, outLen := 0 }, r.hostDst)
  else if r.dmaFault ≠ 0 then
    let scrub := decide (r.dmaFault = 1) && r.desc.scrubOnFail && r.hostDst && decide (0 < r.bas.released)
    ({ r.dropOutput res with
        status := .dmaFault, detail := none, resultH := res.resultH, iterOverrun := false,
        scrubbed := scrub, outLen := if scrub then 0 else r.bas.acked }, scrub)
  else if res.status = .verifyFailed ∧ (r.desc.op = some .aeadOpen ∨ r.desc.op = some .macVerify ∨
      r.desc.op = some .hmacVerify ∨ r.desc.op = some .kmacVerify) then
    let scrub := r.desc.scrubOnFail && r.hostDst && decide (0 < r.bas.released)
    ({ r.dropOutput res with scrubbed := scrub, outLen := if scrub then 0 else r.bas.released }, scrub)
  else (res, false)

/-- A posted request's entry goes to the completion unit once all its writes are accepted (R22, R227 step 3). -/
def State.settle (s : State) (id : Nat) : State :=
  match s.findReq id with
  | none => s
  | some r =>
    match r.phase, r.result with
    | .posted, some res =>
      if s.reqWrites id = 0 ∧ !s.orderWaits r res then
        match r.scrub with
        | .none => if r.bas.released < res.out.length then s else s.closeReq id res
        | .upTo done =>
          if done < r.desc.dstLen.toNat then s.scrubNext id else s.closeReq id res
        | .finished => s.closeReq id res
      else s
    | _, _ => s

/-- Posted requests go on: scrubs that found no tag, and entries that waited for another's. -/
def State.settleAll (s : State) : State :=
  ((s.reqs.filter (fun r => r.phase == .posted)).map (·.id)).foldl State.settle s

/-- A request reports another outcome than its result: its output not yet released is dropped, and its cells return. -/
def State.reportAs (s : State) (r : Req) (old res : Result) (scrub : Bool) : State :=
  let less := decide (res.out.length < max old.out.length r.bas.early.length)
  let s := if less then s.returnCells r.bas.outBanks else s
  (s.updReq r.id (fun r' =>
    { r' with
      phase := .posted, result := some res, scrub := if scrub then .upTo 0 else r.scrub,
      bas := if less then { r'.bas with outBanks := [] } else r'.bas })).settle r.id

/-- An engine posts a request's result to the completion unit; the engine is free. -/
def State.postResult (s : State) (id : Nat) : State :=
  match s.findReq id with
  | none => s
  | some r =>
    match r.phase, r.result with
    | .produced, some res => s.reportAs r res (r.outcome res).1 (r.outcome res).2
    | _, _ => s

/-- A posted request that has become poisoned reports so, unless a zeroize has ended it (R18, R235, R493). -/
def State.reportPoison (s : State) (id : Nat) : State :=
  match s.findReq id with
  | none => s
  | some r =>
    match r.phase, r.result with
    | .posted, some res =>
      if res.status = .tamperAbort then s else s.reportAs r res (r.outcome res).1 (r.outcome res).2
    | _, _ => s

/-! ### After an entry is written -/

/-- The frames that hold any of the requests become free (R161, R192). -/
def State.freeFrames (s : State) (ids : List Nat) : State :=
  { s with lks := s.lks.map (fun l =>
      { l with frames := l.frames.map (fun f => if f.valid ∧ ids.contains f.req then {} else f) }) }

/-- A tow ends once the last member's entry is written: holds zeroized, lines, tow entry and frames freed (R161). -/
def State.endTow (s : State) (t : Nat) : State :=
  match s.findTow t with
  | none => s
  | some tow =>
    if (s.reqsOf tow.members).all (fun m => m.phase == .written) then
      let s := s.freeFrames tow.members
      { s with tows := s.tows.filter (fun x => x.id ≠ t), reqs := s.reqs.filter (fun r => !tow.members.contains r.id) }
    else s

/-- A ring in STOPPING becomes STOPPED when every entry of the stop is written and accepted and the flush has ended (R137 step 6,
R144). DESIGN CHOICE: a completion ring in FAULT with no entry of the ring does not hold it back; log entry 123. -/
def State.checkStopped (s : State) (p n : Nat) : State :=
  if s.sqState p n = 2 ∧ (s.ringReqs p n).isEmpty ∧ !s.entriesOut p n ∧
      !(s.reads.any (fun x => x.purpose = .flush p n)) ∧ (s.sqHead p n = s.sqTail p n ∨ s.flushEnded.contains (p, n)) then
    (({ s with flushEnded := s.flushEnded.filter (· ≠ (p, n)) }).setSqState p n 3).ringEvent p n
  else s

/-- The entry of a request has been written: its place and lane are free, and its tow may end. -/
def State.entryWritten (s : State) (id : Nat) : State :=
  match s.findReq id with
  | none => s
  | some r =>
    let s := match r.tow with
      | none => { s with reqs := s.reqs.filter (fun x => x.id ≠ id) }
      | some t => (s.updReq id (fun r => { r with phase := .written, place := .none,
                                                  bas := { r.bas with lane := none } })).endTow t
    s.checkStopped r.ptn r.ring

end Sys2Proof.Machine
end

