-- ==== Sys2Proof/Machine/Tows.lean ====
section
/-!
DEFINITION. Tows: dependencies between members, the SECRET attribute of holds, hold lines, and the admission of a
single descriptor or of a tow as a whole (R148 to R159, R190, R191).
-/
namespace Sys2Proof.Machine

/-- The hold a handle of type 0x4 names. -/
def handleHold (h : W32) : Option Nat := if handleType h = 4 then some (handleIndex h % 8) else none

/-- The tow position a handle of type 0x5 names. -/
def handleTow (h : W32) : Option Nat := if handleType h = 5 then some (handleIndex h % 32) else none

/-- The hold that a handle in a tow names: directly, or as the RESULT_H of the member that a tow result names (R151, R155). No chain
of tow results is longer than a tow. -/
def namedHold (ms : List Req) : Nat → W32 → Option Nat
  | 0, _ => none
  | k + 1, h =>
    match handleTow h with
    | none => handleHold h
    | some i => (ms.find? (fun m => m.pos = i)).bind (fun m => namedHold ms k m.desc.usedResult)

/-- The hold that a handle field names; none where the field accepts no hold (R155). -/
def fieldHold (ms : List Req) (accepted : Option (List Nat)) (h : W32) : Option Nat :=
  if (accepted.getD []).contains 4 then namedHold ms 32 h else none

/-- The hold that a member takes its key from, and the hold that it writes through RESULT_H, among the members of its tow. -/
def keyHold (ms : List Req) (d : Desc) : Option Nat := fieldHold ms d.handles.key d.usedKey
def resultHold (ms : List Req) (d : Desc) : Option Nat := fieldHold ms d.handles.result d.usedResult

/-- Holds that a member reads: under HOLD_IN and through KEY_H (R151). -/
def holdReads (ms : List Req) (d : Desc) : List Nat :=
  (if d.holdIn && d.usesSrc then [d.srcAddr.toNat % 8] else []) ++ (keyHold ms d).toList

/-- Holds that a member writes: under HOLD_OUT and through RESULT_H (R151). -/
def holdWrites (ms : List Req) (d : Desc) : List Nat :=
  (if d.holdOut && d.writesDst then [d.dstAddr.toNat % 8] else []) ++ (resultHold ms d).toList

/-- Tow positions whose result a member names (R155). -/
def towResults (d : Desc) : List Nat :=
  (handleTow d.usedKey).toList ++ (handleTow d.usedBerth).toList ++ (handleTow d.usedResult).toList

/-- Member `i` is the latest before `j` that writes hold `h`. -/
def latestWriter (ms : List Req) (i j h : Nat) : Bool :=
  ms.any (fun m => m.pos = i ∧ (holdWrites ms m.desc).contains h) &&
  !(ms.any (fun m => i < m.pos ∧ m.pos < j ∧ (holdWrites ms m.desc).contains h))

/-- Member j depends on an earlier member i (R156). -/
def dependsOn (ms : List Req) (j i : Req) : Bool :=
  decide (i.pos < j.pos) &&
  ((holdReads ms j.desc).any (fun h => latestWriter ms i.pos j.pos h) ||
   (holdWrites ms j.desc).any (fun h => (holdReads ms i.desc).contains h || (holdWrites ms i.desc).contains h) ||
   (towResults j.desc).contains i.pos || j.desc.fence)

/-- The members of a request's tow, in ring order. -/
def State.towMembers (s : State) (r : Req) : List Req :=
  match r.tow.bind s.findTow with
  | some t => s.reqsOf t.members
  | none => []

/-- Every member that a request depends on has completed (R156). -/
def State.depsDone (s : State) (r : Req) : Bool :=
  let ms := s.towMembers r
  ms.all (fun m => !dependsOn ms r m || m.completed)

/-- An index lies before another among the outstanding descriptors of a ring, seen from its head (R105). -/
def ringBefore (n head i j : Nat) : Bool := decide (ringSub n head j < ringSub n head i)

/-- A request has been dispatched to its unit class: issued, and its dependencies met. -/
def Req.dispatched (r : Req) : Bool :=
  r.phase != .fetched && r.phase != .admitted && (r.phase != .queued || r.ready)

/-- FENCE that acts on the ring: on a single descriptor or on position 0 of a tow (R163). -/
def Req.ringFence (r : Req) : Bool := r.desc.fence && (r.tow.isNone || r.pos == 0)

/-- The entry of a request is written, into its completion ring or into the holding area (R163). -/
def Req.entryOut (r : Req) : Bool := r.phase == .written || (r.phase == .finished && r.place == .holding)

/-- The fences of its ring let a request be dispatched: a fenced one waits until the entry of every earlier
descriptor is written, and none goes before an earlier fenced one (R163). -/
def State.fenceOpen (s : State) (r : Req) : Bool :=
  let earlier := (s.ringReqs r.ptn r.ring).filter (fun q => decide (q.id < r.id))
  (!r.ringFence || earlier.all Req.entryOut) && earlier.all (fun q => !q.ringFence || q.dispatched)

/-! ### SECRET (R153, R154) -/

/-- The opcode makes every hold it writes SECRET (R153, and R370 for RSA_OAEP_DECRYPT). -/
def Op.secret (o : Op) : Bool :=
  (0x30 ≤ o.code && o.code < 0x40) || (0x90 ≤ o.code && o.code < 0xA0) ||
  [0x11, 0x13, 0x42, 0x61, 0x62, 0x65, 0x66, 0x78, 0x82, 0x86].contains o.code

/-- Member `d` of a tow makes the holds it writes SECRET, given the holds that are SECRET before it (R153). -/
def makesSecret (ms : List Req) (d : Desc) (secret : List Nat) : Bool :=
  (d.op.map Op.secret).getD false || (keyHold ms d).isSome ||
  (d.holdIn && d.usesSrc && secret.contains (d.srcAddr.toNat % 8))

/-- The SECRET holds after a member; a write through RESULT_H is always SECRET (R153). -/
def secretAfter (ms : List Req) (d : Desc) (secret : List Nat) : List Nat :=
  secret ++ (if makesSecret ms d secret then holdWrites ms d else (resultHold ms d).toList)

/-- A member would write output derived from a SECRET hold to host memory (R154, R127). -/
def leaksSecret (d : Desc) (secret : List Nat) : Bool :=
  d.holdIn && d.usesSrc && secret.contains (d.srcAddr.toNat % 8) && !d.holdOut && d.writesDst

/-- The first member of the tow `ms` that fails R152 or R154, with its status; `written` are the holds written before it. -/
def holdFault (ms : List Req) : List Req → List Nat → List Nat → Option (Nat × Status)
  | [], _, _ => none
  | m :: rest, written, secret =>
    if (holdReads ms m.desc).any (fun h => !written.contains h) then some (m.pos, .badDescriptor)
    else if leaksSecret m.desc secret then some (m.pos, .keyPolicy)
    else holdFault ms rest (written ++ holdWrites ms m.desc) (secretAfter ms m.desc secret)

/-- The SECRET holds of a whole tow (R154). -/
def secretHolds (ms : List Req) : List Req → List Nat → List Nat
  | [], secret => secret
  | m :: rest, secret => secretHolds ms rest (secretAfter ms m.desc secret)

/-! ### Hold lines (R157 to R159) -/

/-- Lines of engine e: 32 in each of PLY0–15, 128 in each of COD0–3 (e = 16–19). -/
def holdLines (e : Nat) : Nat := if e < 16 then 32 else 128

/-- The lines in use. -/
def State.linesUsed (s : State) : List (Nat × Nat) := s.tows.flatMap (fun t => t.holds.filterMap (·.line))

def State.linesOf (s : State) (p : Nat) : Nat :=
  ((s.tows.filter (fun t => t.ptn = p)).map (fun t => (t.holds.filterMap (·.line)).length)).sum

/-- HOLD_QUOTA of a partition, taken into 8–1,024 (R159). -/
def State.holdQuota (s : State) (p : Nat) : Nat :=
  clampN 8 1024 (fld (getKey (RegId.qosPtnLim.resetVal p 0) s.sched.running.ptnLim p) 26 16)


/-- Lines are allocated in engines that are in service (R180). -/
def State.lineEngineOk (s : State) (e : Nat) : Bool :=
  if e < 16 then !s.unitOut 3 e else !s.unitOut 4 (e - 16)

/-- A free line, in engines whose domains are on if one has one (R158). -/
def State.freeLine (s : State) (taken : List (Nat × Nat)) : Option (Nat × Nat) :=
  let used := s.linesUsed ++ taken
  let ok := (numsFrom 0 20).filter s.lineEngineOk
  let order := ok.filter (fun e => s.domOn (s.lineDomain e)) ++ ok.filter (fun e => !s.domOn (s.lineDomain e))
  order.findSome? (fun e => ((numsFrom 0 (holdLines e)).find? (fun l => !used.contains (e, l))).map (fun l => (e, l)))

/-- `n` free lines, or none at all. -/
def State.takeLines (s : State) : Nat → List (Nat × Nat) → Option (List (Nat × Nat))
  | 0, taken => some taken
  | n + 1, taken =>
    match s.freeLine taken with
    | none => none
    | some l => s.takeLines n (taken ++ [l])

/-- The distinct holds that any of the members `run` of the tow `ms` write, in hold order. -/
def holdsWritten (ms run : List Req) : List Nat :=
  (numsFrom 0 8).filter (fun h => run.any (fun m => (holdWrites ms m.desc).contains h))

/-- Gives each hold written its line. -/
def giveLines : List Nat → List (Nat × Nat) → List Hold → List Hold
  | h :: hs, l :: ls, holds => giveLines hs ls (modAt (fun x => { x with line := some l }) h holds)
  | _, _, holds => holds

/-- Tows in flight of a partition. -/
def State.towsOf (s : State) (p : Nat) : Nat := (s.tows.filter (fun t => t.ptn = p ∧ t.admitted)).length

/-! ### Admission -/

/-- Marks requests admitted, and ADMITTED on their frames (R191). -/
def State.markAdmitted (s : State) (ids : List Nat) : State :=
  ids.foldl (fun s id =>
    (s.updReq id (fun r => if r.phase = .fetched then { r with phase := .admitted } else r)).updFramesOf id
      (fun f => { f with admitted := true })) s

/-- Admits a single descriptor (R191), if its place can be reserved. -/
def State.admitSingle (s : State) (r : Req) : Option State :=
  match s.places r.ptn r.ring 1 0 0 with
  | none => none
  | some pls => some ((s.givePlaces ([r.id].zip pls)).markAdmitted [r.id])

/-- The first member whose descriptor arrived poisoned, as the member that fails (R139, R150, R210). -/
def poisonFail (ms : List Req) : Option (Nat × Result) :=
  (ms.find? (fun m => m.poison)).map (fun m => (m.pos, plainResult .dataPoisoned .lockkeeper m.lk))

/-- The last member of a tow still has CHAIN set: the rest did not arrive, or it stands at position 31 (R146, R147). -/
def chainFail (ms : List Req) : Option (Nat × Result) :=
  (ms.getLast?.filter (fun m => m.desc.chain)).map (fun m => (m.pos, plainResult .badDescriptor .lockkeeper m.lk))

/-- The earlier of two failures. -/
def earlierFail : Option (Nat × Result) → Option (Nat × Result) → Option (Nat × Result)
  | none, b => b
  | a, none => a
  | some a, some b => if a.1 < b.1 then some a else some b

/-- The member that fails whatever firmware does. -/
def towFault (ms : List Req) : Option (Nat × Result) := earlierFail (poisonFail ms) (chainFail ms)

/-- The first member that fails checks 1 to 4, with its status (R121, R150). -/
def verdictFail (ms : List Req) : Option (Nat × Result) :=
  ms.findSome? (fun m => m.verdict.map (fun st => (m.pos, plainResult st .lockkeeper m.lk)))

/-- Reserves places, a tow entry and lines for a tow in one step, and admits its members up to the first that fails:
the one that R152 or R154 refuses, the first that fails checks 1 to 4, or `failAt`. The domains of its lines wake (R158). None while a reservation cannot be made (R148, R150, R190, R191). -/
def State.admitTow (s : State) (t : Tow) (failAt : Option (Nat × Result)) : Option State :=
  let ms := s.reqsOf t.members
  let failAt := earlierFail (earlierFail (verdictFail ms) (towFault ms)) failAt
  let before := match failAt with
    | some (k, _) => ms.filter (fun m => decide (m.pos < k))
    | none => ms
  let fail : Option (Nat × Result) := match holdFault ms before [] [] with
    | some (k, st) => some (k, plainResult st .lockkeeper ((ms.head?.map (·.lk)).getD 0))
    | none => failAt
  let run := match fail with
    | some (k, _) => ms.filter (fun m => decide (m.pos < k))
    | none => ms
  match s.places t.ptn t.ring ms.length 0 0 with
  | none => none
  | some pls =>
    let hs := holdsWritten ms run
    if 256 ≤ s.towsOf t.ptn ∨ s.holdQuota t.ptn < s.linesOf t.ptn + hs.length then none
    else
      match s.takeLines hs.length [] with
      | none => none
      | some ls =>
        let s := s.givePlaces (t.members.zip pls)
        let sec := secretHolds ms run []
        let s := s.updTow t.id (fun t => { t with admitted := true,
                                                  holds := (enumFrom 0 (giveLines hs ls t.holds)).map (fun (i, h) =>
                                                    { h with secret := h.secret || sec.contains i }) })
        let s := (s.markAdmitted (run.map (·.id))).wakeAll (ls.map (fun l => s.lineDomain l.1))
        match fail with
        | none => some s
        | some (k, res) =>
          match ms.find? (fun m => m.pos = k) with
          | none => some s
          | some m =>
            let s := s.finishReq m.id res
            -- Firmware may end an unadmitted tow with a member that is OK (R190).
            some (if res.status = .ok then (ms.filter (fun x => decide (k < x.pos))).foldl State.skipMember s else s)

/-- Admits the tow of a request, or the single descriptor (R191). -/
def State.admitWith (s : State) (r : Req) : Option State :=
  match r.tow.bind s.findTow with
  | none => s.admitSingle r
  | some t => if t.admitted then some s else s.admitTow t none

end Sys2Proof.Machine
end

