-- ==== Sys2Proof/Machine/LkOps.lean ====
section
/-!
DEFINITION. The hardware around a Lockkeeper: choosing the running context, halts, the end of a context, drains, the
windows of the data address space, FRM_DONE and FRM_ADMIT (R183 to R194, R204, R208, R214).
-/
namespace Sys2Proof.Machine

def State.lk (s : State) (n : Nat) : Lk := s.lks.getD n {}
def Lk.ctx (l : Lk) (c : Nat) : Ctx := l.ctxs.getD c {}
def Lk.frame (l : Lk) (f : Nat) : Frame := l.frames.getD f {}

/-- The power domain of a Lockkeeper (chapter "How a request crosses the block"). -/
def lkDomain (n : Nat) : Nat := 4 + n

/-- A Lockkeeper in service executes its contexts. -/
def Lk.serves (l : Lk) : Bool := l.state == .running || l.state == .draining

/-! ### Contexts -/

/-- The READY context that runs next: ascending number after the last one run (R183). -/
def Lk.nextReady (l : Lk) : Option Nat :=
  (numsFrom 1 8).findSome? (fun k =>
    let c := (l.last + k) % 8
    if (l.ctx c).state = .ready then some c else none)

/-- Runs the next READY context when none runs (R183). -/
def Lk.dispatch (l : Lk) : Lk :=
  match l.cur with
  | some _ => l
  | none =>
    match l.nextReady with
    | none => l
    | some c => { l.updCtx c (fun x => { x with state := .running }) with cur := some c, last := c }

/-- The running context gives way in the state named; the next READY context runs (R183). -/
def Lk.switch (l : Lk) (c : Nat) (st : CtxState) : Lk :=
  { l.updCtx c (fun x => { x with state := st }) with cur := if l.cur = some c then none else l.cur }.dispatch

/-- A context at a vector: registers, flags and stack cleared but X and Y as given (R184, R185). -/
def startCtx (pc x y : W16) (st : CtxState) : Ctx :=
  { state := st, pc := pc, x := x, y := y, first := x, count := y }

/-- Frames that a context holds. -/
def Lk.heldBy (l : Lk) (c : Nat) : List (Nat × Frame) :=
  (enumFrom 0 l.frames).filter (fun (_, f) => f.valid && decide (f.ctx = some c))

/-- The contexts that are gone hold no frame any more (R183). -/
def Lk.leave (l : Lk) (gone : Nat → Bool) : Lk :=
  { l with frames := l.frames.map (fun f => { f with ctx := f.ctx.filter (fun c => !gone c) }) }

/-- Frames held that are neither issued nor completed, in ascending order. -/
def Lk.unissued (l : Lk) : List Frame := l.frames.filter (fun f => f.valid && !f.issued && !f.completed && !f.killed)

/-- Frees the frames of singles that have completed or been issued; a tow's frames stay until its last entry, and a frame that is
KILLED while its context runs stays until that ends (R192, R202, R210). -/
def Lk.releaseFrames (l : Lk) : Lk :=
  { l with frames := l.frames.map (fun f =>
      if f.valid ∧ !f.tow ∧ (f.issued ∨ (f.completed ∧ !(f.killed && f.ctx.isSome))) then {} else f) }

/-- The kept slots of contexts are freed: their requests keep no slot (R204). -/
def State.freeSlots (s : State) (n : Nat) (gone : Nat → Bool) : State :=
  { s with reqs := s.reqs.map (fun r =>
      match r.keep with
      | some k => if k.lk = n ∧ gone k.ctx then { r with keep := none } else r
      | none => r) }

/-- The state of a kept slot: RUNNING while its request runs (R193). -/
def State.slotState (s : State) (n c k : Nat) : Nat :=
  let sl := ((s.lk n).ctx c).slots.getD k {}
  if sl.state = 1 ∧ s.reqs.any (fun r => r.keep = some { lk := n, ctx := c, slot := k } ∧ r.phase ≠ .queued ∧ !r.completed) then 2
  else sl.state

/-- The section that waits is an LK_EMULATION. -/
def AfterDrain.emulation : AfterDrain → Bool
  | .load e _ => e
  | .nothing => false

/-- A Lockkeeper that comes to rest: it loads the section that waits for it (R99, R214, R216). -/
def Lk.rest (l : Lk) (st : LkState) : Lk :=
  { l with state := if l.after = .nothing ∨ (st = .halted ∧ l.after.emulation) then st else .loading }

/-- Completes frames' descriptors with a status in the name of Lockkeeper n; within a tow the first of them is the
member that fails (R208, R214). -/
def State.endFrames (s : State) (n : Nat) (st : Status) (fs : List Frame) : State :=
  fs.foldl (fun s f => s.endReq f.req st .lockkeeper n) s

/-- A new request for a descriptor that was fetched (R185). -/
def State.newReq (s : State) (r : Req) : State :=
  { s with reqs := s.reqs ++ [{ r with id := s.nextReq }], nextReq := s.nextReq + 1 }

/-- The beats of a Lockkeeper's descriptor fetch are discarded when they arrive. -/
def State.dropFetch (s : State) (n : Nat) : State :=
  { s with reads := s.reads.map (fun x => if x.purpose = .fetch n then { x with discard := true } else x) }

/-- The descriptors that a fetch has brought and no frame holds are requests of their own, and complete with a result (R23); those
gathered for a tow are its members (R161). -/
def State.endGot (s : State) (n : Nat) (f : Fetch) (res : Result) : State :=
  f.got.foldl (fun s (i, b, poison) =>
    let d := Desc.ofBytes b
    let id := s.nextReq
    (s.newReq { id := id, ptn := f.ptn, ring := f.ring, index := i, desc := d, poison := poison, lk := n,
                inTow := decide (1 < f.got.length) || d.chain,
                place := if s.sqInPlace f.ptn f.ring then .inPlace else .none }).endWith id res) s

/-- A fetch of Lockkeeper n is given up: beats still to come are discarded, and what has come completes. -/
def State.giveUpFetch (s : State) (n : Nat) (res : Result) : State :=
  match (s.lk n).fetch with
  | none => s
  | some f => ((s.dropFetch n).updLk n (fun l => { l with fetch := none })).endGot n f res

/-! ### Reservations of a Lockkeeper that leaves service -/

/-- Instances of a reservation class (R173). -/
def rsvCount : Nat → Nat
  | 0 => 8
  | 1 => 48
  | 2 => 32
  | 3 => 16
  | 4 => 4
  | 5 => 8
  | _ => 1

/-- The instance that a reservation entry stands on now; none while it is suspended
(R179), by a moved unit or by the power cap (R530). -/
def State.rsvUnit (s : State) (e : Nat × W32 × W32) : Option Nat :=
  if s.power.capSusp.contains (rsvPtn e.2.1) then none
  else
    match lookupKey e.1 s.sched.moved with
    | none => some (rsvInst e.2.1)
    | some m => if 64 ≤ m then some (m - 64) else none

/-- An instance of a reservation class is in service. A Lockkeeper held in reset is: start-up releases it once the set is in force. -/
def State.rsvServes (s : State) (cls inst : Nat) : Bool :=
  if cls = 0 then ((s.lk inst).serves || (s.lk inst).state == .reset) else if cls = 6 ∨ cls = 7 then true else !s.unitOut cls inst

/-- Moves every reservation of an instance that leaves service to the highest-numbered instance of its class in
service that carries none, or suspends it (R179). -/
def State.moveReservations (s : State) (cls inst : Nat) : State :=
  (s.rsvEntries.filter (fun e => rsvClass e.2.1 = cls ∧ s.rsvUnit e = some inst)).foldl (fun s e =>
    let taken := (s.rsvEntries.filter (fun x => rsvClass x.2.1 = cls)).filterMap s.rsvUnit
    let free := (numsFrom 0 (rsvCount cls)).filter (fun i => i ≠ inst ∧ s.rsvServes cls i ∧ !taken.contains i)
    let v := match free.reverse with
      | [] => 1
      | i :: _ => 64 + i
    { s with sched := { s.sched with
        moved := setKey 0 s.sched.moved e.1 v, rsvFlag := setKey false s.sched.rsvFlag (rsvPtn e.2.1) true } }) s

/-- A draining Lockkeeper whose contexts hold no frame becomes DRAINED (R214), and its reservations move (R179). For an LK_EMULATION
it waits for the contexts that have ACTIVE set as well (R216). -/
def State.checkDrained (s : State) (n : Nat) : State :=
  let l := s.lk n
  if l.state = .draining ∧ l.fetch.isNone ∧
      (enumFrom 0 l.ctxs).all (fun (c, x) =>
        x.state == .idle || ((l.heldBy c).isEmpty && !(l.after.emulation && x.emuStat.getLsbD 4))) then
    ((s.freeSlots n (fun _ => true)).updLk n (fun l =>
      { l with cur := none, ctxs := List.replicate 8 {} }.rest .drained)).moveReservations 0 n
  else s

/-! ### Halts (R208) -/

/-- CTRL_ERR of LK_STATUS: the control write was ignored, or the source of its copy halted (R215, R216). -/
def State.lkCtrlErr (s : State) (n : Nat) : State := s.setB .lkStatus 6 true n

/-- The copies from Lockkeeper n stop: it has halted, and the targets stay HALTED (R216). -/
def State.stopCopies (s : State) (n : Nat) : State :=
  (numsFrom 0 8).foldl (fun s t =>
    if (s.lk t).cloneFrom = some n then (s.updLk t (fun l => { l with cloneFrom := none }.rest .halted)).lkCtrlErr t else s) s

/-- Halts a Lockkeeper: its contexts stop, unissued frames complete with ENGINE_FAULT, its reservations move. The
event named with the cause is raised by the caller. -/
def State.haltCore (s : State) (n c : Nat) (cause : Halt) : State :=
  let l := s.lk n
  if l.state = .halted then s
  else
    let fs := l.unissued
    let stopped : Lk := { l with
      cause := cause.code, haltCtx := c, haltPc := (l.ctx c).pc, cur := none, cloneFrom := none,
      after := if cause = .contained then .nothing else l.after, ctxs := l.ctxs.map (fun x => { x with state := .idle }) }
    let s := (s.freeSlots n (fun _ => true)).updLk n (fun _ => (stopped.rest .halted).leave (fun _ => true))
    let s := s.stopCopies n
    let s := s.giveUpFetch n (plainResult .engineFault .lockkeeper n)
    let s := s.endFrames n .engineFault fs
    let s := s.updLk n Lk.releaseFrames
    s.moveReservations 0 n

/-- The event of a halt cause. -/
def Halt.source : Halt → Nat
  | .heartbeat => srcLkHeartbeat
  | .memory => srcLkMemUncorr
  | _ => srcLkTrap

/-- Halts a Lockkeeper and raises the event of the cause (R208). -/
def State.haltLk (s : State) (n c : Nat) (cause : Halt) : State :=
  ((s.haltCore n c cause).recordEvent cause.source (lkDomain n) cause.code).1

/-! ### The end of a context (R204) -/

/-- END: the context becomes IDLE, frees its kept slots, and frames it abandons complete with ENGINE_FAULT. -/
def State.endCtx (s : State) (n c : Nat) : State :=
  let l := s.lk n
  let gone := (l.heldBy c).filter (fun (_, f) => !f.issued && !f.completed && !f.killed)
  let s := s.freeSlots n (· == c)
  let s := s.updLk n (fun l => ((l.updCtx c (fun x =>
    { x with stack := [], slots := x.slots.map Slot.free })).leave (· == c)).switch c .idle)
  let s := gone.foldl (fun s (_, f) =>
    let s := s.endReq f.req .engineFault .lockkeeper n
    ((s.recordEvent srcLkTrap (lkDomain n) s.pick).1).drawn) s
  (s.updLk n Lk.releaseFrames).checkDrained n

/-! ### Words with bad symbols (R210) -/

/-- The keys of a frame's DESC and FRM_ words. -/
def frameKeys (f : Nat) : List Nat := numsFrom (0x8000 + 0x40 * f) 0x34

/-- The keys of the frames that a context holds. -/
def Lk.heldKeys (l : Lk) (c : Nat) : List Nat := (l.heldBy c).flatMap (fun e => frameKeys e.1)

/-- The key of a word of the data address space that carries the symbol code, as context c reads it. -/
def dataKey (c a : Nat) : List Nat :=
  if a < 0x2000 ∨ (0x4000 ≤ a ∧ a < 0x4800) then [0x4000 + a]
  else if 0x5000 ≤ a ∧ a < 0x5040 then [0x9000 + 0x40 * c + (a - 0x5000)]
  else []

/-- The keys, of those given, whose words have bad symbols. -/
def Lk.flaws (l : Lk) (ks : List Nat) : List Nat := ks.filter (fun k => (lookupKey k l.bad).isSome)

/-- One of the words is uncorrectable. -/
def Lk.lost (l : Lk) (ks : List Nat) : Bool := ks.any (fun k => lookupKey k l.bad == some true)

/-- An uncorrectable word in a frame poisons its request, which completes with DATA_POISONED if it is not issued, and marks the
frame KILLED. -/
def State.poisonFrame (s : State) (n f : Nat) : State :=
  let fr := (s.lk n).frame f
  if !fr.valid ∨ fr.killed then s
  else
    let s := (s.poisonTag fr.req).updLk n (fun l => l.updFrame f (fun x => { x with killed := true, desc := zeros 64 }))
    if fr.issued ∨ fr.completed then s.reportPoison fr.req else s.endReq fr.req .dataPoisoned .lockkeeper n

/-- A word is read: one that can be corrected is, with an event; an uncorrectable one of a frame poisons it. -/
def State.noteWord (s : State) (n k : Nat) : State :=
  match lookupKey k (s.lk n).bad with
  | some false => (s.updLk n (fun l => { l with bad := dropKey k l.bad })).event srcLkMemCorr (lkDomain n) n
  | some true => if 0x8000 ≤ k ∧ k < 0x8800 then s.poisonFrame n ((k - 0x8000) / 0x40) else s
  | none => s

def State.noteWords (s : State) (n : Nat) (ks : List Nat) : State := ks.foldl (fun s k => s.noteWord n k) s

/-! ### FRM_DONE and FRM_ADMIT (R190, R191) -/

/-- The status that a STATUS byte names (R132); any other goes into the entry as it is written (R190). -/
def Status.ofCode (c : Nat) : Status :=
  (([.ok, .verifyFailed, .aborted, .flushed, .towSkipped, .badDescriptor, .badLength, .inputRange, .pointInvalid,
    .resultIdentity, .paramInvalid, .unsupportedOp, .keyHandleInvalid, .keyPolicy, .keySlotBad, .keyNotOwned,
    .rootUnavailable, .resourceBusy, .berthInvalid, .dmaFault, .entropyNotReady, .entropyHalted, .dataPoisoned,
    .engineFault, .tamperAbort, .counterExhausted, .stateExhausted] : List Status).find? (fun s => s.code = c)).getD (.written c)

/-- The completion that a write of `w` to FRM_DONE of frame f asks for (R190). -/
def frmResult (n : Nat) (f : Frame) (w : W16) : Result :=
  { status := .ofCode (w.toNat % 256), unit := .lockkeeper, inst := n, detail := if w.getLsbD 8 then some f.detail else none }

/-- Carries out FRM_DONE for a frame, or answers none while it must wait for places (R190) or for its fence (R163). -/
def State.frmDone (s : State) (n : Nat) (f : Frame) (res : Result) : Option State :=
  match s.findReq f.req with
  | none => some s
  | some r =>
    if res.status = .ok ∧ !s.fenceOpen r then none
    else
      let done (s : State) : State :=
        (s.updLk n (fun l => { l with dispatched := l.dispatched + 1 })).finishReq r.id res
      let s? : Option State :=
        match r.tow.bind s.findTow with
        | none => if r.place = .none then (s.admitSingle r).map done else some (done s)
        | some t => if t.admitted then some (done s) else
            (s.admitTow t (some (r.pos, res))).map
              (fun s => s.updLk n (fun l => { l with dispatched := l.dispatched + 1 }))
      s?.map (fun s => s.updLk n Lk.releaseFrames)

/-- The context of a write to FRM_DONE or FRM_ADMIT waits, or goes on READY once it is carried out. -/
def State.ctxWaits (s : State) (n c : Nat) (st : CtxState) : State := s.updLk n (fun l => l.switch c st)

/-- A write of `w` to FRM_DONE of frame f by context c (R190, R192). DESIGN CHOICE: one of a frame issued or completed is
ignored; log entry 126. -/
def State.writeFrmDone (s : State) (n c f : Nat) (w : W16) : State :=
  let fr := (s.lk n).frame f
  if !fr.valid ∨ fr.ctx ≠ some c then s.haltLk n c .frameState
  else
    let s := s.noteWords n ((s.lk n).heldKeys c)
    let fr := (s.lk n).frame f
    if fr.killed ∨ fr.completed ∨ fr.issued then s
    else
      match s.frmDone n fr (frmResult n fr w) with
      | some s => s
      | none => s.ctxWaits n c (.waitDone f w)

/-- A write of 1 to FRM_ADMIT of frame f by context c; the context is switched (R183, R191, R192). DESIGN CHOICE: as for
FRM_DONE, log entry 126. -/
def State.writeFrmAdmit (s : State) (n c f : Nat) (w : W16) : State :=
  let fr := (s.lk n).frame f
  if !fr.valid ∨ fr.ctx ≠ some c then s.haltLk n c .frameState
  else
    let s := s.noteWords n ((s.lk n).heldKeys c)
    let fr := (s.lk n).frame f
    if fr.killed ∨ fr.completed ∨ fr.issued ∨ !w.getLsbD 0 then s
    else
    match s.findReq fr.req with
    | none => s
    | some r =>
      if fr.admitted then s.ctxWaits n c .ready
      else
        match s.admitWith r with
        | some s => (s.updLk n Lk.releaseFrames).ctxWaits n c .ready
        | none => s.ctxWaits n c (.waitAdmit f)

/-- A context that waits for an admission or for completion places tries again (R148, R190, R191). -/
def State.retryWait (s : State) (n c : Nat) : State :=
  let l := s.lk n
  match (l.ctx c).state with
  | .waitAdmit f =>
    match (s.findReq (l.frame f).req).bind s.admitWith with
    | none => s
    | some s => (s.updLk n Lk.releaseFrames).updLk n (fun l => (l.updCtx c (fun x => { x with state := .ready })).dispatch)
  | .waitDone f w =>
    match s.frmDone n (l.frame f) (frmResult n (l.frame f) w) with
    | none => s
    | some s => s.updLk n (fun l => (l.updCtx c (fun x => { x with state := .ready })).dispatch)
  | _ => s

/-! ### The data address space (R186 to R194) -/

/-- A word of an emulation save or of the control page. -/
def Lk.ctrlRead (l : Lk) (n c off : Nat) : W16 :=
  let x := l.ctx c
  match off with
  | 0x00 => BitVec.ofNat 16 (0x0100 + n)
  | 0x01 => BitVec.ofNat 16 c
  | 0x02 => BitVec.ofNat 16 (b2n l.go)
  | 0x04 => x.first
  | 0x05 => x.count
  | 0x08 => BitVec.ofNat 16 (l.frames.filter (fun f => !f.valid)).length
  | 0x10 => x.emuPc
  | 0x11 => x.emuWord
  | 0x12 => x.emuNext
  | 0x13 => x.emuStat
  | _ => 0

/-- FRM_STATE of a frame (R189). -/
def Frame.stateWord (f : Frame) : W16 :=
  BitVec.ofNat 16 (b2n f.valid * 2 ^ 15 + b2n f.killed * 2 ^ 14 + b2n f.admitted * 2 ^ 13 + f.pos % 32 * 2 ^ 8 +
    b2n f.tow * 2 ^ 7 + f.ptn % 64)

/-- A word of a frame (R189); a frame that is not VALID, and a poisoned one (R210), reads zero in its DESC words. -/
def Frame.read (f : Frame) (off : Nat) : W16 :=
  if off < 0x20 then BitVec.ofNat 16 (le16 f.desc (2 * off))
  else
    match off with
    | 0x20 => f.stateWord
    | 0x21 => BitVec.ofNat 16 (f.ring % 16)
    | 0x22 => BitVec.ofNat 16 f.index
    | 0x23 => BitVec.ofNat 16 (f.index / 2 ^ 16)
    | 0x24 => f.priv
    | 0x25 => BitVec.ofNat 16 (b2n f.rsvd)
    | 0x31 => BitVec.ofNat 16 f.detail.toNat
    | 0x32 => BitVec.ofNat 16 (f.detail.toNat / 2 ^ 16)
    | _ => 0

/-- A word of a command slot whose state is `st` (R193). -/
def Slot.read (sl : Slot) (st off : Nat) : W16 :=
  match off with
  | 0x0 => sl.cmdUnit
  | 0x1 => sl.cmdFrame
  | 0x8 => BitVec.ofNat 16 sl.result.toNat
  | 0x9 => BitVec.ofNat 16 (sl.result.toNat / 2 ^ 16)
  | 0xA => BitVec.ofNat 16 sl.outLen.toNat
  | 0xB => BitVec.ofNat 16 (sl.outLen.toNat / 2 ^ 16)
  | 0xC => BitVec.ofNat 16 sl.resultH.toNat
  | 0xD => BitVec.ofNat 16 (sl.resultH.toNat / 2 ^ 16)
  | 0xE => BitVec.ofNat 16 st
  | _ => 0

/-- LKC_TIME is a free-running count that the model does not keep: its words are free values (R194). -/
def isTime (a : Nat) : Bool := a == 0x7F06 || a == 0x7F07

/-- Reads one data word for context c (R187): the word, or the cause of the halt. An uncorrectable word of a frame reads zero, any other
halts (R210). -/
def State.lkRead (s : State) (n c a : Nat) : Except Halt W16 :=
  let l := s.lk n
  let k := (a - 0x5000) / 16
  if 0x4000 ≤ a ∧ a < 0x4800 then
    .ok (if l.lost (dataKey c a) then 0 else (l.frame ((a - 0x4000) / 64)).read (a % 64))
  else if l.lost (dataKey c a) then .error .memory
  else if a < 0x2000 then .ok (getKey 0 l.data a)
  else if 0x5000 ≤ a ∧ a < 0x5040 then .ok (((l.ctx c).slots.getD k {}).read (s.slotState n c k) (a % 16))
  else if isTime a then .ok (BitVec.ofNat 16 (if a = 0x7F06 then s.pick else s.pick / 2 ^ 16))
  else if 0x7F00 ≤ a ∧ a < 0x8000 then .ok (l.ctrlRead n c (a % 256))
  else .error .badAddr

/-- A store to an address is legal (R187). -/
def lkStorable (a : Nat) : Bool :=
  a < 0x1C00 || (0x4000 ≤ a && a < 0x4800) || (0x5000 ≤ a && a < 0x5040) || (0x7F00 ≤ a && a < 0x8000)

/-- Writes one word for context c. Read-only words ignore it (R188); FRM_DONE, FRM_ADMIT, LKC_GO and LKC_HEARTBEAT
act (R190, R191, R194). -/
def State.lkWrite (s : State) (n c a : Nat) (v : W16) : State :=
  if a < 0x1C00 then s.updLk n (fun l => { l with data := setKey 0 l.data a v, bad := dropKey (0x4000 + a) l.bad })
  else if 0x4000 ≤ a ∧ a < 0x4800 then
    let f := (a - 0x4000) / 64
    let s := if a % 64 = 0x31 ∨ a % 64 = 0x32 then s.updLk n (fun l => { l with bad := dropKey (0x4000 + a) l.bad }) else s
    match a % 64 with
    | 0x30 => s.writeFrmDone n c f v
    | 0x31 => s.updLk n (fun l => l.updFrame f (fun x =>
        { x with detail := BitVec.ofNat 32 (x.detail.toNat / 2 ^ 16 * 2 ^ 16 + v.toNat) }))
    | 0x32 => s.updLk n (fun l => l.updFrame f (fun x =>
        { x with detail := BitVec.ofNat 32 (v.toNat * 2 ^ 16 + x.detail.toNat % 2 ^ 16) }))
    | 0x33 => s.writeFrmAdmit n c f v
    | _ => s
  else if 0x5000 ≤ a ∧ a < 0x5040 then
    let upd (g : Slot → Slot) : State :=
      s.updLk n (fun l => { l with bad := (dataKey c a).foldl (fun b k => dropKey k b) l.bad }.updCtx c (fun x =>
        { x with slots := modAt g ((a - 0x5000) / 16) x.slots }))
    match a % 16 with
    | 0x0 => upd (fun sl => { sl with cmdUnit := v })
    | 0x1 => upd (fun sl => { sl with cmdFrame := v &&& 0x801F })
    | _ => s
  else
    match a with
    | 0x7F03 => s.updLk n (fun l => { l with heart := 0 })
    | 0x7F02 => if v.getLsbD 0 then s.updLk n (fun l => { l with go := true }) else s
    | 0x7F10 => s.updLk n (fun l => l.updCtx c (fun x => { x with emuPc := v }))
    | 0x7F13 => s.updLk n (fun l => l.updCtx c (fun x =>
        { x with emuStat := BitVec.ofNat 16 (x.emuStat.toNat / 16 * 16 + v.toNat % 16) }))
    | _ => s

end Sys2Proof.Machine
end

