-- ==== Sys2Proof/Machine/Operands.lean ====
section
/-!
DEFINITION. Every operand form of the Lockkeeper instructions: effective addresses, loads and stores of 16 and 32 bits
(R187, R188, R196).
-/
namespace Sys2Proof.Machine

/-- Where an operand lies: an immediate, or a data address and its width (true for 16 bits). -/
inductive OpPlace where
  | imm (v : W32)
  | word (a : Nat) (h : Bool)
  deriving DecidableEq, Repr

/-- The place of an operand (R196). All address arithmetic is modulo 2^16 (R188). -/
def State.lkPlace (s : State) (n c : Nat) (op : LkOperand) : Except Halt OpPlace :=
  let x := (s.lk n).ctx c
  match op with
  | .short b sx => .ok (.imm (if sx then b.signExtend 32 else b.setWidth 32))
  | .long w hi => .ok (.imm (BitVec.ofNat 32 (if hi then w.toNat * 2 ^ 16 else w.toNat)))
  | .page b h => .ok (.word b.toNat h)
  | .ctrl b h => .ok (.word (0x7F00 + b.toNat) h)
  | .abs w h => .ok (.word w.toNat h)
  | .absX w h => .ok (.word (w + x.x).toNat h)
  | .absY w h => .ok (.word (w + x.y).toNat h)
  | .ptrY b h =>
    match s.lkRead n c b.toNat with
    | .ok p => .ok (.word (p + x.y).toNat h)
    | .error e => .error e

/-- The value at a place: 16 bits zero-extended, or 32 bits with the low half at a and the high half at a + 1 (R188). -/
def State.lkLoadAt (s : State) (n c : Nat) : OpPlace → Except Halt W32
  | .imm v => .ok v
  | .word a h =>
    match s.lkRead n c a with
    | .error e => .error e
    | .ok lo =>
      if h then .ok (lo.setWidth 32)
      else
        match s.lkRead n c ((a + 1) % 2 ^ 16) with
        | .error e => .error e
        | .ok hi => .ok (BitVec.ofNat 32 (hi.toNat * 2 ^ 16 + lo.toNat))

/-- The value of an operand. -/
def State.lkOperandValue (s : State) (n c : Nat) (op : LkOperand) : Except Halt W32 :=
  match s.lkPlace n c op with
  | .ok p => s.lkLoadAt n c p
  | .error e => .error e

/-- An operand reads the free-running count of R194. -/
def OpPlace.readsTime : OpPlace → Bool
  | .imm _ => false
  | .word a h => isTime a || (!h && isTime ((a + 1) % 2 ^ 16))

/-- The key of the word that holds an operand's pointer, and the keys of the words at its place (R210). -/
def LkOperand.keys : LkOperand → List Nat
  | .ptrY b _ => [0x4000 + b.toNat]
  | _ => []
def OpPlace.keys (c : Nat) : OpPlace → List Nat
  | .imm _ => []
  | .word a h => dataKey c a ++ if h then [] else dataKey c ((a + 1) % 2 ^ 16)

/-- Stores A, or its low half, at a place; either word in unmapped or read-only data space halts (R187, R188). -/
def State.lkStoreAt (s : State) (n c : Nat) (v : W32) : OpPlace → Except Halt State
  | .imm _ => .error .badAddr
  | .word a h =>
    let a' := (a + 1) % 2 ^ 16
    if !lkStorable a ∨ (!h ∧ !lkStorable a') then .error .badAddr
    else
      let s := s.lkWrite n c a (BitVec.ofNat 16 v.toNat)
      if h ∨ (s.lk n).state = .halted then .ok s
      else .ok (s.lkWrite n c a' (BitVec.ofNat 16 (v.toNat / 2 ^ 16)))

/-- The place of a 16-bit operand of class 0x3 (R196). -/
def lkPlace16 : LkOperand16 → OpPlace
  | .long w => .imm (w.setWidth 32)
  | .page b => .word b.toNat true
  | .ctrl b => .word (0x7F00 + b.toNat) true
  | .abs w => .word w.toNat true

end Sys2Proof.Machine
end

