-- ==== Sys2Proof/Machine/LkIssue.lean ====
section
/-!
DEFINITION. The engine group of the Lockkeeper instructions: ISSUE, WAITE and POLLE (R202, R203), with the lanes of
R219 and R220 and what isolation asks of an issued request (R174, R474).
-/
namespace Sys2Proof.Machine

/-- The lanes of a unit class (R219). -/
def classLanes : Unit → List Nat
  | .sym => numsFrom 0 256
  | .hsh => numsFrom 256 256
  | .ply => numsFrom 512 256
  | .cod => numsFrom 768 64
  | .bne => numsFrom 832 96
  | .dma => numsFrom 928 64
  | .rng => numsFrom 992 16
  | .key => numsFrom 1009 8
  | _ => []

/-- The request that a lane carries (R220). -/
def State.laneReq (s : State) (l : Nat) : Option Req := s.reqs.find? (fun r => r.bas.lane = some l)

/-- The lowest free lane of a class (R220). -/
def State.freeLane (s : State) (u : Unit) : Option Nat := (classLanes u).find? (fun l => (s.laneReq l).isNone)

/-- Instances of a class (R124's chapters; chapter "Partar 3 at a glance"). -/
def unitCount : Unit → Nat
  | .sym => 48
  | .hsh => 32
  | .ply => 16
  | .cod => 4
  | .bne => 8
  | .dma => 4
  | _ => 1

/-- A logical instance of a class is in service. -/
def State.inService (s : State) (u : Unit) (n : Nat) : Bool :=
  decide (n < unitCount u) && (decide (6 < u.code) || !s.unitOut u.code n)

/-- Some instance of the class is in service (R509). -/
def State.classServes (s : State) (u : Unit) : Bool := (numsFrom 0 (unitCount u)).any (s.inService u)

/-- The unit classes that reservations know as engine classes (R173). -/
def Unit.reservable : Unit → Bool
  | .sym | .hsh | .ply | .cod | .bne => true
  | _ => false

/-- The reservation entries of a partition on a unit class. -/
def State.rsvOf (s : State) (p : Nat) (u : Unit) : List (Nat × W32 × W32) :=
  s.rsvEntries.filter (fun e => rsvPtn e.2.1 = p ∧ rsvClass e.2.1 = u.code)

/-- What isolation answers an issued request before it is queued (R174, R474). -/
def State.isolationFault (s : State) (p : Nat) (u : Unit) : Option Status :=
  if s.isolated p ∧ u.reservable then
    if (s.rsvOf p u).isEmpty then some .paramInvalid
    else if (s.rsvOf p u).all (fun e => (s.rsvUnit e).isNone) then some .resourceBusy
    else none
  else none

/-- The request completes at once and reaches no engine: it fails checks 1 to 4 (R121), its class does not serve the opcode (R203),
its instance or its whole class is out of service (R203, R509), or isolation refuses it. -/
def State.issueFault (s : State) (r : Req) (u : Unit) (want : Nat) : Option Status :=
  if r.verdict.isSome then r.verdict
  else if r.desc.unit ≠ some u then some .unsupportedOp
  else if s.inForce 3 ∨ (want ≠ 0xFF ∧ !s.inService u want) ∨ !s.classServes u then some .resourceBusy
  else s.isolationFault r.ptn u

/-- BSN_QCFG fields of a queue, taken into range (R239). -/
def State.qLimit (s : State) (q : Nat) : Nat := clampN 1 1024 (s.regF .bsnQcfg 10 0 q)
def State.qWeir (s : State) (q : Nat) : Nat := min (s.regF .bsnQcfg 26 16 q) 1024
def State.qHoldBack (s : State) (q : Nat) : Bool := s.regB .bsnQcfg 31 q

/-- A lane at its binding (R220, R239). -/
def State.bindLane (s : State) (l : Nat) : Lane :=
  { lane := some l, limitIn := s.qLimit (2 * l), limitOut := s.qLimit (2 * l + 1), weir := s.qWeir (2 * l),
    holdBack := s.qHoldBack (2 * l + 1) }

/-- Sets C of a context. -/
def State.setC (s : State) (n c : Nat) (v : Bool) : State :=
  s.updLk n (fun l => l.updCtx c (fun x => { x with fC := v }))

def State.updSlot (s : State) (n c k : Nat) (g : Slot → Slot) : State :=
  s.updLk n (fun l => l.updCtx c (fun x => { x with slots := modAt g k x.slots }))

/-- The command of slot k is accepted for a request (R202): the lane is bound, the frame is issued, the slot is QUEUED,
or FREE if RELEASE is set. -/
def State.acceptIssue (s : State) (n c k f : Nat) (r : Req) (u : Unit) (want : Nat) (lane : Option Nat) (release : Bool) :
    State :=
  let bas := match lane with
    | some l => s.bindLane l
    | none => {}
  let s := s.updReq r.id (fun r => { r with
    phase := .queued, unit := u, want := want, bas := bas, seq := s.nextSeq, plyCfg := s.reg .plyCfg, ptnGen := s.ptnGen r.ptn,
    ready := s.depsDone r && s.fenceOpen r,
    keep := if release then none else some { lk := n, ctx := c, slot := k } })
  let s := { s with nextSeq := s.nextSeq + 1 }
  let s := s.updSlot n c k (fun sl => { sl with state := if release then 0 else 1 })
  let s := s.updLk n (fun l => { l.updFrame f (fun x => { x with issued := true }) with dispatched := l.dispatched + 1 })
  let s := (s.updLk n Lk.releaseFrames).setC n c true
  match s.issueFault r u want with
  | some st => s.endReq r.id st .lockkeeper n
  | none => s

/-- Words of slot k of context c, as keys: CMD_UNIT and CMD_FRAME, and CMD_RESULT and CMD_STATE (R193). -/
def issueKeys (c k : Nat) : List Nat := numsFrom (0x9000 + 0x40 * c + 16 * k) 2
def resultKeys (c k : Nat) : List Nat := [8, 9, 0xE].map (fun i => 0x9000 + 0x40 * c + 16 * k + i)

/-- ISSUE #k by context c of Lockkeeper n (R202): the state, or the cause of the halt. It reads two words of the slot and the frame
(R210). -/
def State.issue (s : State) (n c k : Nat) : Except Halt State :=
  let sl := ((s.lk n).ctx c).slots.getD k {}
  let f := sl.cmdFrame.toNat % 32
  let lost := (s.lk n).lost (issueKeys c k)
  let s := s.noteWords n (issueKeys c k ++ if ((s.lk n).frame f).ctx = some c then frameKeys f else [])
  let fr := (s.lk n).frame f
  match Unit.ofCommand (sl.cmdUnit.toNat / 256) with
  | none => .error (if lost then .memory else .badCmd)
  | some u =>
    if lost then .error .memory
    else if sl.state = 1 ∨ sl.state = 2 ∨ !fr.valid ∨ fr.ctx ≠ some c then .error .badCmd
    else if fr.killed ∨ fr.completed then
      .ok ((s.updSlot n c k (fun sl => { sl with state := 3, result := BitVec.ofNat 32 fr.doneStatus })).setC n c true)
    else if !fr.admitted ∨ fr.issued then .error .frameState
    else
      match s.findReq fr.req with
      | none => .error .frameState
      | some r =>
        let lane := s.freeLane u
        if lane.isNone ∧ !(classLanes u).isEmpty then .ok (s.setC n c false)
        else .ok (s.acceptIssue n c k f r u (sl.cmdUnit.toNat % 256) lane (sl.cmdFrame.getLsbD 15))

/-- Takes the result of a DONE slot: A, Z and C, and the slot is FREE (R203). -/
def State.takeSlot (s : State) (n c k : Nat) : State :=
  let sl := ((s.lk n).ctx c).slots.getD k {}
  s.updLk n (fun l => l.updCtx c (fun x =>
    { x with a := sl.result, fZ := fld sl.result 7 0 == 0, fC := true, slots := modAt Slot.free k x.slots }))

end Sys2Proof.Machine
end

