-- ==== Sys2Proof/Machine/LkExec.lean ====
section
/-!
DEFINITION. What each Lockkeeper instruction does (R197 to R207): fetch, execution, traps and the return from
emulation. A Lockkeeper command runs when the running context fetches exactly that instruction.
-/
namespace Sys2Proof.Machine

/-- A program word; a word beyond program memory, or an uncorrectable one, halts (R186, R210). -/
def Lk.fetchWord (l : Lk) (a : Nat) : Except Halt W16 :=
  if 0x4000 ≤ a then .error .badFetch
  else if lookupKey a l.bad = some true then .error .memory
  else .ok (getKey 0xFFFF l.prog a)

/-- The word after an instruction as EMU_NEXT shows it: 0xFFFF beyond program memory (R194). -/
def Lk.nextWord (l : Lk) (a : Nat) : W16 := if 0x4000 ≤ a then 0xFFFF else getKey 0xFFFF l.prog a

/-- What the running context fetches: the instruction, or its word if it is reserved, or the cause of a halt. -/
def Lk.fetchInstr (l : Lk) (pc : Nat) : Except Halt (W16 × Option LkInstr) :=
  match l.fetchWord pc with
  | .error e => .error e
  | .ok w =>
    match lkDecode w (l.nextWord (pc + 1)) with
    | none => .ok (w, none)
    | some i =>
      if i.words = 1 then .ok (w, some i)
      else
        match l.fetchWord (pc + 1) with
        | .error e => .error e
        | .ok x => .ok (w, lkDecode w x)

def State.updCtx (s : State) (n c : Nat) (f : Ctx → Ctx) : State := s.updLk n (fun l => l.updCtx c f)

/-- Moves the program counter past an instruction. -/
def State.advance (s : State) (n c words : Nat) : State :=
  if (s.lk n).state = .halted then s else s.updCtx n c (fun x => { x with pc := x.pc + BitVec.ofNat 16 words })

/-- A context step that only changes the context. -/
def State.ctxStep (s : State) (n c words : Nat) (f : Ctx → Ctx) : State := (s.updCtx n c f).advance n c words

/-- The keys of the words that an instruction is fetched from. -/
def fetchKeys (pc : Nat) (i : LkInstr) : List Nat := numsFrom pc i.words

/-- An instruction with A and a value operand. -/
def State.aluStep (s : State) (n c : Nat) (op : LkOperand) (f : Ctx → W32 → Ctx) : State :=
  match s.lkPlace n c op with
  | .error e => s.haltLk n c e
  | .ok p =>
    match s.lkLoadAt n c p with
    | .error e => s.haltLk n c e
    | .ok v =>
      let s := if p.readsTime then s.drawn else s
      (s.noteWords n (op.keys ++ p.keys c)).ctxStep n c op.words (fun x => f x v)

/-- A 16-bit load of X or Y. -/
def State.load16 (s : State) (n c : Nat) (op : LkOperand16) (f : Ctx → W16 → Ctx) : State :=
  match s.lkLoadAt n c (lkPlace16 op) with
  | .error e => s.haltLk n c e
  | .ok v =>
    let s := if (lkPlace16 op).readsTime then s.drawn else s
    (s.noteWords n ((lkPlace16 op).keys c)).ctxStep n c op.words (fun x => (f x (v.setWidth 16)).zn16 (v.setWidth 16))

/-- A store. -/
def State.storeStep (s : State) (n c words : Nat) (v : W32) (p : OpPlace) : State :=
  match s.lkStoreAt n c v p with
  | .error e => s.haltLk n c e
  | .ok s => s.advance n c words

/-- Takes a branch of a signed 8-bit offset from the next word (R200). -/
def State.branch (s : State) (n c : Nat) (o : Byte) (taken : Bool) : State :=
  s.updCtx n c (fun x => { x with pc := x.pc + 1 + (if taken then o.signExtend 16 else 0) })

/-- A trap (R205, R206): the context goes on at the emulation vector, or the Lockkeeper halts. -/
def State.trap (s : State) (n c : Nat) (word : W16) (isTrap : Bool) (num : Nat) : State :=
  let l := s.lk n
  let x := l.ctx c
  if !l.emuEn then s.haltLk n c .noHandler
  else if x.emuStat.getLsbD 4 then s.haltLk n c .doubleTrap
  else
    s.updCtx n c (fun x => { x with
      emuPc := x.pc + 1, emuWord := word, emuNext := l.nextWord (x.pc.toNat + 1),
      emuStat := BitVec.ofNat 16 (x.flagBits + 0x10 + b2n isTrap * 0x20 + num % 256 * 256), pc := 0x0010 })

/-- A jump that may push a return address (R201). -/
def State.jump (s : State) (n c words : Nat) (push : Bool) (target : W16) : State :=
  let x := (s.lk n).ctx c
  if push ∧ 16 ≤ x.stack.length then s.haltLk n c .stack
  else s.updCtx n c (fun x => { x with
    stack := if push then (x.pc + BitVec.ofNat 16 words) :: x.stack else x.stack, pc := target })

/-- An indexed jump: the target is the data word at a + X; the indexed JSR pushes first (R197). -/
def State.jumpX (s : State) (n c : Nat) (push : Bool) (a : W16) : State :=
  let x := (s.lk n).ctx c
  if push ∧ 16 ≤ x.stack.length then s.haltLk n c .stack
  else
    match s.lkRead n c (a + x.x).toNat with
    | .error e => s.haltLk n c e
    | .ok t => (s.noteWords n (dataKey c (a + x.x).toNat)).jump n c 2 push t

/-- RTS: the newest return address, or a halt on an empty stack (R201). -/
def State.rts (s : State) (n c : Nat) : State :=
  match ((s.lk n).ctx c).stack with
  | [] => s.haltLk n c .stack
  | t :: rest => s.updCtx n c (fun x => { x with pc := t, stack := rest })

/-- RTE (R207). -/
def State.rte (s : State) (n c : Nat) : State :=
  if ((s.lk n).ctx c).emuStat.getLsbD 4 then
    s.updCtx n c (fun x => { x.restoreFlags with
      emuStat := x.emuStat &&& ~~~(0x10 : W16), pc := x.emuPc })
  else s.haltLk n c .emuState

/-- WAITE and POLLE on slot k (R203), which read its words (R210). -/
def State.waitSlot (s : State) (n c k : Nat) (wait : Bool) : State :=
  if (s.lk n).lost (resultKeys c k) then s.haltLk n c .memory
  else
  let s := s.noteWords n (resultKeys c k)
  match s.slotState n c k with
  | 0 => s.haltLk n c .badCmd
  | 3 => (s.takeSlot n c k).advance n c 1
  | _ =>
    if wait then s.updLk n (fun l => l.switch c (.waitSlot k))
    else (s.setC n c false).advance n c 1

/-- The count of a shift (R197). -/
def LkCount.value (x : Ctx) : LkCount → Nat
  | .imm n => n.toNat
  | .fromX => x.x.toNat % 32

/-- Executes an instruction in context c of Lockkeeper n. -/
def State.lkExecute (s : State) (n c : Nat) (w : W16) : LkInstr → State
  | .ldA op => s.aluStep n c op (fun x v => { x.zn32 v with a := v })
  | .stA op =>
    match s.lkPlace n c op with
    | .error e => s.haltLk n c e
    | .ok p => (s.noteWords n op.keys).storeStep n c op.words ((s.lk n).ctx c).a p
  | .addA op => s.aluStep n c op (fun x v => { x.znvc (lkAdd x.a v false) with a := (lkAdd x.a v false).1 })
  | .adcA op => s.aluStep n c op (fun x v => { x.znvc (lkAdd x.a v x.fC) with a := (lkAdd x.a v x.fC).1 })
  | .subA op => s.aluStep n c op (fun x v => { x.znvc (lkSub x.a v true) with a := (lkSub x.a v true).1 })
  | .sbcA op => s.aluStep n c op (fun x v => { x.znvc (lkSub x.a v x.fC) with a := (lkSub x.a v x.fC).1 })
  | .andA op => s.aluStep n c op (fun x v => { x.logic (x.a &&& v) with a := x.a &&& v })
  | .orA op => s.aluStep n c op (fun x v => { x.logic (x.a ||| v) with a := x.a ||| v })
  | .xorA op => s.aluStep n c op (fun x v => { x.logic (x.a ^^^ v) with a := x.a ^^^ v })
  | .cmpA op => s.aluStep n c op (fun x v => x.znvc (lkSub x.a v true))
  | .ldX op => s.load16 n c op (fun x v => { x with x := v })
  | .ldY op => s.load16 n c op (fun x v => { x with y := v })
  | .stX op => s.storeStep n c op.words (((s.lk n).ctx c).x.setWidth 32) (lkPlace16 op)
  | .stY op => s.storeStep n c op.words (((s.lk n).ctx c).y.setWidth 32) (lkPlace16 op)
  | .nop => s.ctxStep n c 1 id
  | .endCtx => (s.advance n c 1).endCtx n c
  | .yield => (s.advance n c 1).updLk n (fun l => l.switch c .ready)
  | .rts => s.rts n c
  | .rte => s.rte n c
  | .clrC => s.ctxStep n c 1 (fun x => { x with fC := false })
  | .setC => s.ctxStep n c 1 (fun x => { x with fC := true })
  | .clrV => s.ctxStep n c 1 (fun x => { x with fV := false })
  | .movXA => s.ctxStep n c 1 (fun x => { x.zn16 (x.a.setWidth 16) with x := x.a.setWidth 16 })
  | .movAX => s.ctxStep n c 1 (fun x => { x.zn32 (x.x.setWidth 32) with a := x.x.setWidth 32 })
  | .movYA => s.ctxStep n c 1 (fun x => { x.zn16 (x.a.setWidth 16) with y := x.a.setWidth 16 })
  | .movAY => s.ctxStep n c 1 (fun x => { x.zn32 (x.y.setWidth 32) with a := x.y.setWidth 32 })
  | .movYX => s.ctxStep n c 1 (fun x => { x.zn16 x.x with y := x.x })
  | .movXY => s.ctxStep n c 1 (fun x => { x.zn16 x.y with x := x.y })
  | .incX => s.ctxStep n c 1 (fun x => { x.zn16 (x.x + 1) with x := x.x + 1 })
  | .decX => s.ctxStep n c 1 (fun x => { x.zn16 (x.x - 1) with x := x.x - 1 })
  | .incY => s.ctxStep n c 1 (fun x => { x.zn16 (x.y + 1) with y := x.y + 1 })
  | .decY => s.ctxStep n c 1 (fun x => { x.zn16 (x.y - 1) with y := x.y - 1 })
  | .cmpX i => s.ctxStep n c 1 (fun x => x.cmp16 x.x i)
  | .cmpY i => s.ctxStep n c 1 (fun x => x.cmp16 x.y i)
  | .addX i => s.ctxStep n c 1 (fun x => { x.zn16 (x.x + i.signExtend 16) with x := x.x + i.signExtend 16 })
  | .addY i => s.ctxStep n c 1 (fun x => { x.zn16 (x.y + i.signExtend 16) with y := x.y + i.signExtend 16 })
  | .trap k => s.trap n c w true k.toNat
  | .shl k => s.ctxStep n c 1 (fun x => x.shift .shl (k.value x))
  | .shr k => s.ctxStep n c 1 (fun x => x.shift .shr (k.value x))
  | .asr k => s.ctxStep n c 1 (fun x => x.shift .asr (k.value x))
  | .rol k => s.ctxStep n c 1 (fun x => x.shift .rol (k.value x))
  | .ror k => s.ctxStep n c 1 (fun x => x.shift .ror (k.value x))
  | .beq o => s.branch n c o ((s.lk n).ctx c).fZ
  | .bne o => s.branch n c o (!((s.lk n).ctx c).fZ)
  | .bcs o => s.branch n c o ((s.lk n).ctx c).fC
  | .bcc o => s.branch n c o (!((s.lk n).ctx c).fC)
  | .bmi o => s.branch n c o ((s.lk n).ctx c).fN
  | .bpl o => s.branch n c o (!((s.lk n).ctx c).fN)
  | .bvs o => s.branch n c o ((s.lk n).ctx c).fV
  | .bvc o => s.branch n c o (!((s.lk n).ctx c).fV)
  | .bra o => s.branch n c o true
  | .jmp a => s.jump n c 2 false a
  | .jsr a => s.jump n c 2 true a
  | .jmpX a => s.jumpX n c false a
  | .jsrX a => s.jumpX n c true a
  | .issue k =>
    match s.issue n c k.val with
    | .error e => s.haltLk n c e
    | .ok s => s.advance n c 1
  | .waite k => s.waitSlot n c k.val true
  | .polle k => s.waitSlot n c k.val false

/-- Lockkeeper n executes: it is in service, and neither a zeroize nor the safe state holds it (R492 step 1, R516). -/
def State.lkRuns (s : State) (n : Nat) : Bool := (s.lk n).serves && !s.held

/-- A Lockkeeper command: the running context fetches its next instruction. A fetch that halts does so; the command
runs when the instruction fetched is the one it names; otherwise it does nothing. -/
def State.runLk (s : State) (n : Nat) (i : LkInstr) : State :=
  if !s.lkRuns n then s
  else
    let l := (s.lk n).dispatch
    match l.cur with
    | none => s
    | some c =>
      let s := s.updLk n (fun _ => l)
      match l.fetchInstr (l.ctx c).pc.toNat with
      | .error e => s.haltLk n c e
      | .ok (w, some j) => if j = i then (s.noteWords n (fetchKeys (l.ctx c).pc.toNat i)).lkExecute n c w i else s
      | .ok (_, none) => s

/-- RESERVED_WORD: the running context fetches a reserved word and traps (R205). -/
def State.runReserved (s : State) (n : Nat) : State :=
  if !s.lkRuns n then s
  else
    let l := (s.lk n).dispatch
    match l.cur with
    | none => s
    | some c =>
      let s := s.updLk n (fun _ => l)
      match l.fetchInstr (l.ctx c).pc.toNat with
      | .error e => s.haltLk n c e
      | .ok (w, none) => (s.noteWord n (l.ctx c).pc.toNat).trap n c w false 0
      | .ok (_, some _) => s

end Sys2Proof.Machine
end

