-- ==== Sys2Proof/Machine/Rings.lean ====
section
/-!
DEFINITION. Submission and completion rings: doorbells, enable and disable, completion entries, coalescing, ring stop,
in-place completion and the interrupt message port (R42, R43, R104 to R116, R134 to R143).
-/
namespace Sys2Proof.Machine

/-! ### Doorbells -/

/-- Issues the read of the descriptor at the head of a ring for Lockkeeper n (R185), if a tag is free. -/
def State.readDescriptor (s : State) (n p r : Nat) : State :=
  match s.issueRead (.fetch n) p (s.sqBase p r + 64 * (s.sqNext p r % s.sqSize p r)) 64 with
  | none => s.updLk n (fun l => { l with fetch := l.fetch.map (fun f => { f with reading := false, waitsTail := false }) })
  | some s => s.updLk n (fun l => { l with fetch := l.fetch.map (fun f => { f with reading := true, waitsTail := false }) })

/-- The fetches that wait for the rest of a tow on a ring go on once the tail has moved (R147). -/
def State.resumeFetch (s : State) (p r : Nat) : State :=
  (numsFrom 0 8).foldl (fun s n =>
    match (s.lk n).fetch with
    | some f => if f.ptn = p ∧ f.ring = r ∧ f.waitsTail ∧ s.sqAvail p r ≠ 0 then s.readDescriptor n p r else s
    | none => s) s

/-- A submission doorbell proposes tail T′ (R106, R107). -/
def State.sqDoorbell (s : State) (p n t : Nat) : State :=
  if s.sqState p n = 1 ∨ s.sqState p n = 4 then
    let size := s.sqSize p n
    let d := ringSub size t (s.sqTail p n)
    if t < 2 * size ∧ d + s.sqFill p n ≤ size then
      (s.setReg .sqTail (BitVec.ofNat 32 t) p n).resumeFetch p n
    else (s.setB .sqStatus 5 true p n).ringEvent p n
  else s

/-- A completion doorbell proposes head H′ (R112). -/
def State.cqDoorbell (s : State) (p n h : Nat) : State :=
  if s.cqState p n = 1 ∨ s.cqState p n = 2 then
    let size := s.cqSize p n
    if h < 2 * size ∧ ringSub size h (s.cqHead p n) ≤ s.cqFill p n then s.setReg .cqHead (BitVec.ofNat 32 h) p n
    else (s.setB .cqStatus 5 true p n).ringEvent p (16 + n)
  else s

/-! ### Enable, disable -/

/-- Sets CFG_ERR of a submission ring and its event bit (R143). -/
def State.sqCfgErr (s : State) (p n : Nat) : State := (s.setB .sqStatus 4 true p n).ringEvent p n
def State.cqCfgErr (s : State) (p n : Nat) : State := (s.setB .cqStatus 4 true p n).ringEvent p (16 + n)

/-- The conditions under which SQ_CTRL.ENABLE enables a ring (R143, R460); a ring of a partition under reset counts as STOPPING
(R467). -/
def State.sqEnableOk (s : State) (p n : Nat) : Bool :=
  (s.sqState p n == 0 || s.sqState p n == 3) && decide (n < s.sqMax p) &&
  decide (4 ≤ s.regF .sqCfg 4 0 p n ∧ s.regF .sqCfg 4 0 p n ≤ 16) && (s.regF .sqBaseLo 5 0 p n == 0) &&
  (s.sqInPlace p n || s.cqState p (s.sqCq p n) == 1) && !s.resets.any (fun r => r.ptn == p)

/-- The conditions under which CQ_CTRL.ENABLE enables a ring (R143, R460). -/
def State.cqEnableOk (s : State) (p n : Nat) : Bool :=
  (s.cqState p n == 0) && decide (n < s.cqMax p) &&
  decide (4 ≤ s.regF .cqCfg 4 0 p n ∧ s.regF .cqCfg 4 0 p n ≤ 16) && (s.regF .cqBaseLo 5 0 p n == 0)

/-- A submission ring becomes RUNNING with head = tail = 0 (R143). -/
def State.sqRun (s : State) (p n : Nat) : State :=
  let s : State := ((s.setReg .sqHead 0 p n).setReg .sqTail 0 p n).setSqState p n 1
  { s with fetchNext := setKey 0 s.fetchNext (16 * p + n) 0, chainRun := setKey 0 s.chainRun (16 * p + n) 0 }

def State.cqRun (s : State) (p n : Nat) : State :=
  let s : State := ((s.setReg .cqHead 0 p n).setReg .cqTail 0 p n).setCqState p n 1
  { s with coal := setKey {} s.coal (16 * p + n) {} }

/-- Entries of a completion ring that wait in the completion unit or for RESUME. -/
def State.cqWaits (s : State) (p n : Nat) : Bool :=
  s.cu.any (fun e => e.ptn = p ∧ e.cq = n) || s.retries.any (fun r => r.ptn = p ∧ r.cq = n)

/-- Submission rings that name a completion ring and are RUNNING, STOPPING or FAULT (R143). -/
def State.cqNamed (s : State) (p n : Nat) : Bool :=
  (numsFrom 0 16).any (fun q => s.sqCq p q == n && [1, 2, 4].contains (s.sqState p q))

/-! ### In-place completion (R134 to R136) -/

/-- The head of an in-place ring advances past the slots whose completions are written (R136). -/
def State.inPlaceHead (s : State) (p n : Nat) : Nat → State
  | 0 => s
  | k + 1 =>
    let h := s.sqHead p n
    if s.inPlaceDone.contains (p, n, h) then
      ({ s with inPlaceDone := s.inPlaceDone.filter (· ≠ (p, n, h)) }.setReg .sqHead
        (BitVec.ofNat 32 (ringNext (s.sqSize p n) h)) p n).inPlaceHead p n k
    else s

/-! ### Coalescing (R141, R142) -/

/-- The keys by which a pending vector waits for an entry whose write faulted, and for a status word that is to be written again (R22,
R140). -/
def retryKey (p c index : Nat) : Nat := 1000 + (16 * p + c) * 2 ^ 18 + index
def inPlaceKey (id : Nat) : Nat := 2 ^ 32 + id

/-- What the message of a completion ring waits for: the entries, and the status words counted for it, that are not accepted (R22). -/
def State.cqAfter (s : State) (p c : Nat) : List Nat :=
  let mine (id : Nat) : Bool := s.reqs.any (fun r => r.id = id && r.ptn = p && s.sqCq p r.ring = c)
  s.writes.filterMap (fun w => match w.purpose with
    | .entry q _ d _ _ => if !w.dead ∧ q = p ∧ d = c then some w.tag else none
    | .inPlaceStatus id => if !w.dead ∧ mine id then some w.tag else none
    | _ => none) ++
  s.retries.filterMap (fun r => if r.ptn = p ∧ r.cq = c ∧ !r.running then some (retryKey p c r.index) else none) ++
  s.reqs.filterMap (fun r => if r.inPlaceStage = 5 ∧ mine r.id then some (inPlaceKey r.id) else none)

/-- Fires the vector of a completion ring and resets its count and timer. -/
def State.cqFire (s : State) (p c : Nat) : State :=
  ({ s with coal := setKey {} s.coal (16 * p + c) {} }).fireVec p (s.regF .cqCfg 12 8 p c) (s.cqAfter p c)

/-- Counts an entry written for a completion ring (R141); CQ_COALESCE is taken as it stands then (R143). -/
def State.coalesce (s : State) (p c : Nat) (irq : Bool) : State :=
  if s.regB .cqCfg 13 p c then
    let k := getKey {} s.coal (16 * p + c)
    if irq ∨ max (s.regF .cqCoalesce 7 0 p c) 1 ≤ k.count + 1 then s.cqFire p c
    else { s with coal := setKey {} s.coal (16 * p + c) { count := k.count + 1, time := s.regF .cqCoalesce 23 8 p c } }
  else s

/-- The coalescing time has passed since the first entry after the last firing (R141). -/
def State.coalesceExpire (s : State) (p c : Nat) : State :=
  if s.regB .cqCfg 13 p c ∧ (getKey {} s.coal (16 * p + c)).time ≠ 0 then s.cqFire p c else s

/-! ### Completion entries (R109, R110, R116) -/

/-- Writes the next entry of a completion ring at its tail (R109, R110, R113). -/
def State.writeEntry (s : State) (p c : Nat) : State :=
  if s.cqState p c = 1 ∧ s.cqFill p c < s.cqSize p c ∧ !s.cuOut then
    match s.writable p c with
    | none => s
    | some (s', e, r) =>
      let t := s.cqTail p c
      let n := s.cqSize p c
      match s'.issueWrite (.entry p r.ring c t (r.place = .holding)) p (s.cqBase p c + 16 * (t % n)) (e.bytes (if t < n then 1 else 0)) with
      | some s =>
        let s : State := { s with cu := s.cu.erase e }
        let s := s.setReg .cqTail (BitVec.ofNat 32 (ringNext n t)) p c
        (s.coalesce p c e.irq).entryWritten e.req
      | none => s
  else s

/-- Issues again the entries that RESUME asked for, as tags are free (R140). -/
def State.retryWrites (s : State) : List Retry → State
  | [] => s
  | r :: rs =>
    let s' : State := if r.wanted ∧ !s.cuOut then
        match s.issueWrite (.entry r.ptn r.ring r.cq r.index (r.place = .holding)) r.ptn
            (s.cqBase r.ptn r.cq + 16 * (r.index % s.cqSize r.ptn r.cq)) r.data with
        | none => s
        | some s => { s with retries := s.retries.map (fun x => if x = r then { x with wanted := false, running := true } else x) }
      else s
    s'.retryWrites rs

/-- A retry of a completion ring runs, or waits for a tag. -/
def State.retrying (s : State) (p c : Nat) : Bool :=
  s.retries.any (fun r => r.ptn = p && r.cq = c && (r.running || r.wanted))

/-- CQ_CTRL.RESUME (R140): ignored unless the ring is in FAULT and no retry runs. -/
def State.cqResume (s : State) (p c : Nat) : State :=
  if s.cqState p c = 2 ∧ !s.retrying p c then
    let s : State := { s with retries := s.retries.map (fun r => if r.ptn = p ∧ r.cq = c then { r with wanted := true } else r) }
    s.retryWrites s.retries
  else s

/-- An entry write that faulted: the ring is in FAULT and the entry waits at its index (R140). -/
def State.entryFault (s : State) (p ring c index : Nat) (held : Bool) (data : Bytes) : State :=
  let s : State := if s.retries.any (fun r => r.ptn = p ∧ r.cq = c ∧ r.index = index) then
      { s with retries := s.retries.map (fun r =>
          if r.ptn = p ∧ r.cq = c ∧ r.index = index then { r with running := false } else r) }
    else { s with retries := s.retries ++ [{ ptn := p, ring := ring, cq := c, index := index, data := data,
                                                 place := if held then .holding else .ringSlot }] }
  ((s.setCqState p c 2).ringEvent p (16 + c)).event srcCqWriteFault 0 c

/-- An entry write that was accepted: a retry that succeeded lets the ring run again (R140), and a ring that stops may be STOPPED. -/
def State.entryAccepted (s : State) (p ring c index : Nat) : State :=
  let s : State := { s with retries := s.retries.filter (fun r => !(r.ptn = p ∧ r.cq = c ∧ r.index = index)) }
  let s := if s.cqState p c = 2 ∧ !(s.retries.any (fun r => r.ptn = p ∧ r.cq = c)) then s.setCqState p c 1 else s
  s.checkStopped p ring

/-! ### Interrupt messages (R42, R43) -/

/-- The S9 accepts the oldest message of a partition whose entries have been accepted; its pending bit clears. -/
def State.irqAccept (s : State) (p : Nat) : State :=
  match s.irqs.find? (fun m => m.ptn = p) with
  | none => s
  | some m => if m.after.isEmpty then { s with irqs := s.irqs.erase m } else s

/-! ### Ring stop (R137, R138, R192) -/

/-- Descriptors of the run that a descriptor leaves open, after `n` earlier ones of it; a run ends at its 32nd (R145, R146). -/
def openRun (n : Nat) (d : Desc) : Nat := if d.chain ∧ n < 31 then n + 1 else 0

/-- Ends a request of a stopped ring or a reset partition: ABORTED if an engine runs it, FLUSHED if it was never
issued to one, and its own result if that has been produced (R137 steps 2 and 3). A lane that waits for its grant is unbound (R467). DESIGN
CHOICE: FLUSHED names the completion unit, class 0x0E; log entry 120. -/
def State.stopReq (s : State) (r : Req) : State :=
  match r.phase with
  | .fetched | .admitted | .queued =>
    (s.updReq r.id (fun r => if r.bas.granted then r else { r with bas := { r.bas with lane := none } })).endWith r.id
      (plainResult .flushed .completion 0)
  | .running | .suspended | .paused =>
    (s.abortEngine r).endWith r.id { plainResult .aborted r.unit r.inst with outLen := r.bas.released }
  | .produced => s.postResult r.id
  | .posted | .finished | .written => s

/-- Contexts that hold frames or kept slots of stopped requests return to IDLE, their stacks cleared; their frames, and those of the
kind `sel`, are KILLED, and a single's is freed (R192, R216). -/
def State.killCtxs (s : State) (n : Nat) (cs : List Nat) (sel : Frame → Bool) : State :=
  (s.freeSlots n cs.contains).updLk n (fun l =>
    { l with
      ctxs := (enumFrom 0 l.ctxs).map (fun (c, x) =>
        if cs.contains c then { x with state := .idle, stack := [], slots := x.slots.map Slot.free } else x),
      cur := l.cur.filter (fun c => !cs.contains c),
      frames := l.frames.map (fun f =>
        if f.valid && (sel f || (f.ctx.map cs.contains).getD false) then
          if f.tow then { f with killed := true, ctx := none } else {}
        else f) })

/-- The contexts of Lockkeeper n that work on a ring. -/
def State.ringCtxs (s : State) (n p r : Nat) : List Nat :=
  let l := s.lk n
  (numsFrom 0 8).filter (fun c =>
    l.frames.any (fun f => f.valid ∧ f.ctx = some c ∧ f.ptn = p ∧ f.ring = r) ||
    s.reqs.any (fun q => q.ptn == p && q.ring == r && (q.keep.map (fun k => k.lk == n && k.ctx == c)).getD false))

/-- Kills the frames and contexts of a ring on every Lockkeeper, and drops fetches in progress (R192). -/
def State.killRing (s : State) (p r : Nat) : State :=
  (numsFrom 0 8).foldl (fun s n =>
    let s := s.killCtxs n (s.ringCtxs n p r) (fun f => f.ptn == p && f.ring == r)
    match (s.lk n).fetch with
    | none => s.checkDrained n
    | some f =>
      if f.ptn = p ∧ f.ring = r then (s.giveUpFetch n (plainResult .flushed .completion 0)).checkDrained n
      else s) s

/-- Steps 1 to 4 of a ring stop (R137). -/
def State.stopRing (s : State) (p r : Nat) : State :=
  let s := s.setSqState p r 2
  let s := s.killRing p r
  let rs := s.ringReqs p r
  let s : State := (rs.filter (fun q => !q.onEngine && q.phase != .produced)).foldl State.stopReq s
  let s : State := (rs.filter Req.onEngine).foldl State.stopReq s
  let s : State := (rs.filter (fun q => q.phase == .produced)).foldl State.stopReq s
  let s : State := { s with reqs := s.reqs.map (fun q => if q.ptn = p ∧ q.ring = r then { q with keep := none } else q) }
  let s : State := (s.tows.filter (fun t => t.ptn = p ∧ t.ring = r)).foldl (fun s t => s.zeroHolds t.id) s
  s.checkStopped p r

/-- Step 5 of a ring stop: fetches the next never-fetched descriptor when its entry has a slot (R137, R139). -/
def State.flushFetch (s : State) (p r : Nat) : State :=
  if s.sqState p r = 2 ∧ s.sqAvail p r ≠ 0 ∧ !s.flushEnded.contains (p, r) ∧
      !(s.reads.any (fun x => x.purpose = .flush p r)) ∧
      (s.sqInPlace p r ∨ s.cqTakes p (s.sqCq p r)) then
    (s.issueRead (.flush p r) p (s.sqBase p r + 64 * (s.sqNext p r % s.sqSize p r)) 64).getD s
  else s

/-- A write to SQ_CTRL (R137, R143). -/
def State.sqCtrl (s : State) (p n : Nat) (enable stop : Bool) : State :=
  if enable && stop then s.sqCfgErr p n
  else if enable then (if s.sqEnableOk p n then s.sqRun p n else s.sqCfgErr p n)
  else if stop then
    match s.sqState p n with
    | 0 => s.sqCfgErr p n
    | 1 | 4 => s.stopRing p n
    | _ => s
  else s

/-- A write to CQ_CTRL (R140, R143). DESIGN CHOICE: several of the bits in one write, and DISABLE of a ring that is DISABLED; log entry
92. -/
def State.cqCtrl (s : State) (p n : Nat) (enable disable resume : Bool) : State :=
  if enable && disable then s.cqCfgErr p n
  else if enable then (if s.cqEnableOk p n then s.cqRun p n else s.cqCfgErr p n)
  else if disable then
    (if s.cqState p n = 2 ∨ s.cqNamed p n ∨ s.cqWaits p n then s.cqCfgErr p n else s.setCqState p n 0)
  else if resume then s.cqResume p n
  else s

/-- INPLACE_STATUS_WRITE: the first part is issued if it could not be before; once it is accepted, the status word is
issued, and the completion counts for coalescing, once (R135, R142). -/
def State.inPlaceStatus (s : State) (id : Nat) : State :=
  match s.findReq id with
  | none => s
  | some r =>
    match r.phase, r.result with
    | .finished, some res =>
      let e := entryOf s r res
      if r.inPlaceStage = 0 ∧ s.sqInPlace r.ptn r.ring then s.inPlaceBody r e
      else if (r.inPlaceStage = 2 ∨ r.inPlaceStage = 5) ∧ !s.cuOut then
        match s.issueWrite (.inPlaceStatus id) r.ptn (s.slotAddr r + 0x3C) (toLe 4 (e.word 0).toNat) with
        | some s =>
          let s := s.updReq id (fun r => { r with inPlaceStage := 3 })
          if r.inPlaceStage = 2 then s.coalesce r.ptn (s.sqCq r.ptn r.ring) r.desc.irq else s
        | none => s
      else s
    | _, _ => s

end Sys2Proof.Machine
end

