-- ==== Sys2Proof/Machine/Dma.lean ====
section
/-!
DEFINITION. Data movement of a request: its input item, the grant of cells, reading and consuming input, releasing
output, flushes and watermarks (R40, R41, R221 to R232, R557).
-/
namespace Sys2Proof.Machine

/-! ### The items of a request (R221) -/

/-- Bytes of the auxiliary buffer that pass through the input queue. -/
def Desc.auxBytes (d : Desc) : Nat := if d.usesAux then d.auxLen.toNat else 0

/-- Bytes of the source that pass through the input queue; a hold does not. -/
def Desc.srcBytes (d : Desc) : Nat :=
  if d.usesSrc ∧ !d.holdIn then d.srcLen.toNat else 0

/-- The auxiliary part of the item, padded to 16 bytes. -/
def Desc.auxPadded (d : Desc) : Nat := ceilDiv d.auxBytes 16 * 16

/-- Bytes and cells of the input item. -/
def Desc.itemLen (d : Desc) : Nat := d.auxPadded + d.srcBytes
def Desc.cellsIn (d : Desc) : Nat := ceilDiv d.itemLen 128

/-- Cells of the output item: none under HOLD_OUT and none for COPY, whose data stay in the input queue. -/
def Desc.cellsOut (d : Desc) : Nat :=
  if d.holdOut ∨ d.op = some .copy ∨ !d.writesDst then 0 else ceilDiv d.dstLen.toNat 128

/-- The whole input item has arrived. -/
def Req.itemHere (r : Req) : Bool := decide (r.desc.itemLen ≤ r.bas.input.length)

/-- Occupancy of the input queue in cells. -/
def Req.occIn (r : Req) : Nat :=
  (if r.itemHere then r.desc.cellsIn else r.bas.input.length / 128) - r.bas.taken

/-- The output that has reached the output queue so far: the result's, or what a running engine has put there. -/
def Req.output (r : Req) : Bytes :=
  match r.result with
  | some res => if r.desc.holdOut then [] else res.out
  | none => r.bas.early

/-- Output bytes in the output queue. -/
def Req.outLeft (r : Req) : Nat := r.output.length - r.bas.released

/-- Cells of the output item, at most until its result stands; COPY's data leave from its input queue (R221). -/
def Req.outCells (r : Req) : Nat :=
  match r.result with
  | some res => if r.desc.holdOut ∨ r.desc.op = some .copy then 0 else ceilDiv res.out.length 128
  | none => r.desc.cellsOut

/-- Occupancy of the output queue in cells: what has been placed under the credits and not released. -/
def Req.occOut (r : Req) : Nat := min (ceilDiv r.outLeft 128) (r.bas.creditedOut - ceilDiv r.bas.released 128)

/-- The effective weir level (R225). -/
def Req.weirLevel (r : Req) : Nat :=
  if r.bas.weir = 0 then min r.desc.cellsIn r.bas.limitIn else min r.bas.weir (min r.desc.cellsIn r.bas.limitIn)

/-- The auxiliary buffer and the source as the engine reads them from the input item. -/
def Req.aux (r : Req) : Bytes := r.bas.input.take r.desc.auxBytes
def Req.laneSrc (r : Req) : Bytes := slice r.bas.input r.desc.auxPadded r.desc.srcBytes

/-! ### Watermarks (R232) -/

/-- The occupancy of queue q moves from `before` to `after`. -/
def State.watermark (s : State) (q before after : Nat) : State :=
  let wm := s.regF .bsnQwm 10 0 q
  if wm ≠ 0 ∧ before < wm ∧ wm ≤ after then
    let s := s.setB .bsnWmStatus (q % 32) true (q / 32)
    if s.regB .bsnCfg 31 then s.fireVec 0 (s.regF .bsnCfg 28 24) else s
  else s

/-! ### Check symbols of words and links (R217, R234, R236) -/

/-- A word of bank b with one bad symbol is corrected as it is read (R234). -/
def State.wordCorrected (s : State) (b : Nat) : State := s.event srcBsnCorr (s.unitDomain 7 b) b

/-- Sets poison in a request's tag, in the Basin, which BSN_ERR counts once (R18, R40, R234). -/
def State.poisonReq (s : State) (id : Nat) : State :=
  match s.findReq id with
  | none => s
  | some r =>
    if r.poison then s
    else (s.updReq id (fun r => { r with poison := true })).setF .bsnErr 15 0 (satAdd 0xFFFF (s.regF .bsnErr 15 0) 1)

/-- The faults of the eight words of cell k of an item. -/
def cellFaults (bad : SMap Bool) (k : Nat) : SMap Bool := bad.filter (fun e => e.1 / 8 = k)

/-- The words of a cell in bank b are read for a request: those with one bad symbol are corrected, one with more poisons it (R234). -/
def State.readCell (s : State) (id b : Nat) (faults : SMap Bool) : State :=
  let s := (faults.filter (fun e => !e.2)).foldl (fun s _ => s.wordCorrected b) s
  if faults.any (·.2) then s.poisonReq id else s

/-- An uncorrectable link word of queue q: the cells that it chained stay astray until the pool audit that starts finds them (R236). -/
def State.loseLinks (s : State) (q : Nat) (lost : List Nat) : State :=
  let b := lost.headD 0
  (({ s with basin := { s.basin with badLinks := dropKey q s.basin.badLinks, stray := s.basin.stray ++ lost } } : State).setB
    .bsnErr 23 true).event srcBsnUncorr (s.unitDomain 7 b) b

/-- A link word of queue q with one bad symbol is corrected (R234, R236). -/
def State.fixLinks (s : State) (q b : Nat) : State :=
  ({ s with basin := { s.basin with badLinks := dropKey q s.basin.badLinks } } : State).wordCorrected b

/-- The queue of a request whose link word holds bad symbols, and whether it is uncorrectable. -/
def State.badLink (s : State) (r : Req) (out : Bool) : Option (Nat × Bool) :=
  r.bas.lane.bind (fun l => (lookupKey (2 * l + b2n out) s.basin.badLinks).map (fun v => (2 * l + b2n out, v)))

/-! ### Flush of a queue (R229) -/

/-- A lane is flushed: its request ends, ABORTED if its engine had begun and the request has output that is not released, or no result
yet, and FLUSHED if the engine had not begun. OUT_LEN counts what was released (R131). -/
def State.flushLane (s : State) (r : Req) : State :=
  let cut := { plainResult .aborted r.unit r.inst with outLen := r.bas.released }
  match r.phase with
  | .queued => s.finishReq r.id (plainResult .flushed .completion 0)
  | .running | .suspended | .paused => (s.abortEngine r).finishReq r.id cut
  | .produced => s.finishReq r.id cut
  | .posted => if 0 < r.outLeft ∧ r.scrub = .none then s.finishReq r.id cut else s
  | _ => s

/-- An uncorrectable link word of queue q poisons its request and flushes its lane (R236). -/
def State.linkLost (s : State) (q : Nat) (r : Req) : State :=
  let s := s.loseLinks q (if q % 2 = 0 then r.bas.inBanks else r.bas.outBanks)
  let s := (s.poisonReq r.id).updReq r.id (fun r => { r with bas :=
    { r.bas with inBanks := if q % 2 = 0 then [] else r.bas.inBanks, outBanks := if q % 2 = 0 then r.bas.outBanks else [] } })
  match s.findReq r.id with
  | none => s
  | some r => s.flushLane r

/-- The links of a request's queue are read on the way to `f`. -/
def State.throughLinks (s : State) (r : Req) (out : Bool) (f : State → State) : State :=
  match s.badLink r out with
  | none => f s
  | some (q, false) => f (s.fixLinks q ((if out then r.bas.outBanks else r.bas.inBanks).headD 0))
  | some (q, true) => s.linkLost q r

/-! ### Reading input -/

/-- A read burst of the request is outstanding. -/
def State.reading (s : State) (id : Nat) : Bool :=
  s.reads.any (fun x => x.purpose = .input id && !x.discard && !x.dead)

/-- The next burst of the item: address, and length within the segment, the credits and the burst rule (R34, R36). -/
def Req.nextRead (r : Req) : Nat × Nat :=
  let room := r.bas.credited * 128 - r.bas.asked
  if r.bas.asked < r.desc.auxBytes then
    let a := r.desc.auxAddr.toNat + r.bas.asked
    (a, min room (burstLen a (r.desc.auxBytes - r.bas.asked)))
  else
    let pos := max r.bas.asked r.desc.auxPadded - r.desc.auxPadded
    let a := r.desc.srcAddr.toNat + pos
    (a, min (r.bas.credited * 128 - max r.bas.asked r.desc.auxPadded) (burstLen a (r.desc.srcBytes - pos)))

/-- Issues the next read of a granted request, one burst at a time, within the credits it holds (R37). -/
def State.pumpRead (s : State) (id : Nat) : State :=
  match s.findReq id with
  | none => s
  | some r =>
    if !r.bas.granted ∨ s.reading id ∨ r.completed then s
    else
      let (a, n) := r.nextRead
      if n = 0 then s
      else
        match s.issueRead (.input id) r.ptn a n with
        | none => s
        | some s =>
          let start := if r.bas.asked < r.desc.auxBytes then r.bas.asked else max r.bas.asked r.desc.auxPadded
          s.updReq id (fun r => { r with bas := { r.bas with asked := start + n } })

/-- Reads go on wherever a tag has become free. -/
def State.pumpAll (s : State) : State := (s.reqs.map (·.id)).foldl State.pumpRead s

/-- One cell read whole by the engine: it becomes a credit while the item has uncredited cells, else it returns to the
pool (R223). -/
def State.takeCell (s : State) (id : Nat) : State :=
  match s.findReq id with
  | none => s
  | some r =>
    let s := s.readCell id (r.bas.inBanks.headD 0) (cellFaults r.bas.badIn r.bas.taken)
    if r.bas.credited < r.desc.cellsIn then
      s.updReq id (fun r => { r with bas := { r.bas with
        taken := r.bas.taken + 1, credited := r.bas.credited + 1,
        inBanks := r.bas.inBanks.drop 1 ++ r.bas.inBanks.take 1 } })
    else
      (s.updReq id (fun r => { r with bas := { r.bas with
        taken := r.bas.taken + 1, inBanks := r.bas.inBanks.drop 1 } })).returnCells (r.bas.inBanks.take 1)

/-- The engine of a request that runs, or whose operands load while an earlier one computes, reads every cell that has arrived (R361). -/
def State.consume (s : State) (id : Nat) : State :=
  match s.findReq id with
  | none => s
  | some r => if r.onEngine || s.holdsGroup id then (((List.replicate r.occIn id).foldl State.takeCell s).loadOperands r).loadWork r else s

/-! ### Grants (R222) -/

/-- The lane whose ISSUE was accepted first among those that wait for their grant. -/
def State.firstWaiting (s : State) : Option Req :=
  (s.reqs.filter (fun r => r.phase == .queued && r.bas.lane.isSome && !r.bas.granted)).foldl
    (fun best r => match best with
      | none => some r
      | some b => if r.seq < b.seq then some r else best) none

/-- Grants the lane at the front both its initial allocations, if the pool can supply them together (R222). -/
def State.grantFront (s : State) : State :=
  match s.firstWaiting with
  | none => s
  | some r =>
    let ci := min r.bas.limitIn r.desc.cellsIn
    let co := min r.bas.limitOut r.desc.cellsOut
    if s.canGrant r.ptn (ci + co) then
      match s.takeCells (ci + co) s.basin.free s.basin.next with
      | none => s
      | some (banks, free, next) =>
        let s : State := { s with basin := { s.basin with free := free, next := next } }
        (s.updReq r.id (fun r => { r with bas := { r.bas with
          granted := true, inBanks := banks.take ci, outBanks := banks.drop ci, credited := ci, creditedOut := co } })).pumpRead r.id
    else s

/-! ### Faults of a transfer (R40, R41, R557) -/

/-- A request whose transfer failed completes with DMA_FAULT; 1 is a read, 2 a write. -/
def State.faultReq (s : State) (id kind : Nat) : State :=
  match s.findReq id with
  | none => s
  | some r =>
    if r.completed then s
    else
      let s : State := if r.onEngine then s.abortEngine r else s
      let res := r.result.getD (plainResult .dmaFault r.unit r.inst)
      match r.phase with
      | .posted =>
        if r.dmaFault ≠ 0 ∨ res.status = .dataPoisoned ∨ res.status = .tamperAbort then s.settle id
        else
          let r := { r with dmaFault := kind }
          (s.updReq id (fun x => { x with dmaFault := kind })).reportAs r res (r.outcome res).1 (r.outcome res).2
      | _ => (s.updReq id (fun x => { x with dmaFault := kind, phase := .produced, result := some res })).postResult id

/-- The power domain of a DMA engine. -/
def dmaDomain (e : Nat) : Nat := 12 + e

/-! ### Beats of input -/

/-- Bytes of a request's input arrive; the auxiliary part is padded to 16 bytes (R221). -/
def State.inputArrives (s : State) (id : Nat) (b : Bytes) : State :=
  match s.findReq id with
  | none => s
  | some r => s.throughLinks r false fun s =>
    let inp := r.bas.input ++ b
    let inp := if inp.length = r.desc.auxBytes then inp ++ zeros (r.desc.auxPadded - r.desc.auxBytes) else inp
    let s := s.updReq id (fun r => { r with bas := { r.bas with input := inp } })
    let s := s.watermark (2 * r.bas.lane.getD 0) r.occIn ((s.findReq id).map Req.occIn |>.getD 0)
    (s.consume id).pumpRead id

/-! ### Output (R226) -/

/-- The output of a request may be released now: HOLD_BACK holds it until the status is reported, unless the queue has reached LIMIT_out
cells; it has no effect on the input queue, from which COPY's data leave (R221, R226). A poisoned request releases no more (R235). -/
def Req.mayRelease (r : Req) : Bool :=
  decide (0 < r.outLeft) && !r.poison &&
  (r.phase == .posted || ((r.phase == .produced || r.phase == .running || r.phase == .suspended) && (!r.bas.holdBack || r.desc.op == some .copy || decide (r.bas.limitOut ≤ r.occOut) ||
    decide (0 < r.bas.released))))

/-- A released output cell becomes a credit again, which the next cell of the item takes, while the item has cells without one; else it
returns to the pool (R223). -/
def State.cellReleased (s : State) (id n : Nat) : State :=
  match s.findReq id with
  | none => s
  | some r =>
    if r.bas.creditedOut < r.outCells then
      let s := s.updReq id (fun r => { r with bas := { r.bas with
        released := r.bas.released + n, creditedOut := r.bas.creditedOut + 1,
        outBanks := r.bas.outBanks.drop 1 ++ r.bas.outBanks.take 1 } })
      s.watermark (2 * r.bas.lane.getD 0 + 1) (r.occOut - 1) r.occOut
    else
      (s.updReq id (fun r => { r with bas := { r.bas with
        released := r.bas.released + n, outBanks := r.bas.outBanks.drop 1 } })).returnCells (r.bas.outBanks.take 1)

/-- Releases the next output cell of a request to DMA (R226). A cell found poisoned as DMA reads it is not written (R235). -/
def State.releaseCell (s : State) (id : Nat) : State :=
  match s.findReq id with
  | none => s
  | some r =>
    if !r.mayRelease then s
    else
      let b := slice r.output r.bas.released 128
      let faults := cellFaults r.bas.badOut (r.bas.released / 128)
      if faults.any (·.2) then (s.readCell id (r.bas.outBanks.headD 0) faults).reportPoison id
      else
        match s.issueWrites (.output id) r.ptn (r.desc.dstAddr.toNat + r.bas.released) b with
        | none => s
        | some s => (s.readCell id (r.bas.outBanks.headD 0) faults).cellReleased id b.length

/-! ### Output while input arrives (R225, R226) -/

/-- Bytes of a wrapped key at the start of the source. -/
def Req.blobLen (r : Req) : Nat := if handleType r.desc.usedKey = 3 then 48 + le32 r.laneSrc 0x10 else 0

/-- The engine works on an item of which a part has arrived: its auxiliary buffer and a wrapped key are there, and its output goes to host
memory. -/
def Req.streams (r : Req) (o : Op) : Bool :=
  decide (r.phase = .running) && decide (r.desc.op = some o) && !r.itemHere && !r.poison && r.desc.writesDst && !r.desc.holdOut &&
  decide (r.desc.auxPadded ≤ r.bas.input.length) &&
  (decide (handleType r.desc.usedKey ≠ 3) || (decide (0x14 ≤ r.laneSrc.length) && decide (r.blobLen ≤ r.laneSrc.length)))

/-- A running engine has made `out` of its output so far: its full cells reach the output queue. -/
def State.emit (s : State) (r : Req) (out : Bytes) : State :=
  let early := r.bas.early ++ (out.take (out.length / 128 * 128)).drop r.bas.early.length
  let r' := { r with bas := { r.bas with early := early } }
  (s.updReq r.id (fun r => { r with bas := { r.bas with early := early } })).watermark (2 * r.bas.lane.getD 0 + 1) r.occOut r'.occOut

end Sys2Proof.Machine
end

