-- ==== Sys2Proof/Machine/Sched.lean ====
section
/-!
DEFINITION. The scheduler: eligible rings, the two-level round robin, floors, urgent rings, reserved slices, frames and
the commit of a set of scheduler settings (R163 to R178, R472, R473), and the arrival of descriptors in Lockkeeper
frames (R146, R147, R185).
-/
namespace Sys2Proof.Machine

/-! ### Settings in force -/

def QosSet.cfg (q : QosSet) (p : Nat) : W32 := getKey (RegId.qosPtnCfg.resetVal p 0) q.ptnCfg p
def QosSet.lim (q : QosSet) (p : Nat) : W32 := getKey (RegId.qosPtnLim.resetVal p 0) q.ptnLim p
def QosSet.ring (q : QosSet) (p n : Nat) : W32 := getKey (RegId.qosRingCfg.resetVal p n) q.ringCfg (16 * p + n)
def QosSet.isolated (q : QosSet) (p : Nat) : Bool := bitOf (q.lim p) 31
/-- FLOOR, above 400 taken as 400. -/
def QosSet.floor (q : QosSet) (p : Nat) : Nat := min (fld (q.lim p) 8 0) 400
def QosSet.holdQuota (q : QosSet) (p : Nat) : Nat := clampN 8 1024 (fld (q.lim p) 26 16)
/-- The valid reservation entries of a set, as words A and B. -/
def QosSet.entries (q : QosSet) : List (Nat × W32 × W32) :=
  ((numsFrom 0 256).map (fun n => (n, getKey 0 q.rsvA n, getKey 0 q.rsvB n))).filter (fun e => bitOf e.2.1 31)

def State.ptnWeight (s : State) (p : Nat) : Nat := max 1 (fld (s.sched.running.cfg p) 7 0)
def State.ptnBurst (s : State) (p : Nat) : Nat := max 1 (fld (s.sched.running.cfg p) 15 8)
def State.urgentBudget (s : State) (p : Nat) : Nat := fld (s.sched.running.cfg p) 31 24
def State.ringWeight (s : State) (p n : Nat) : Nat := max 1 (fld (s.sched.running.ring p n) 7 0)
def State.ringBurst (s : State) (p n : Nat) : Nat := clampN 1 64 (fld (s.sched.running.ring p n) 14 8)
def State.urgentRing (s : State) (p n : Nat) : Bool := bitOf (s.sched.running.ring p n) 15

/-! ### Floors (R167, R168) -/

/-- A Lockkeeper counts towards the floor capacity. -/
def Lk.counts (l : Lk) : Bool := l.state == .running || l.state == .reset

/-- Lockkeeper time that a set reserves in a frame, in units of 100 ns. -/
def QosSet.lkTime (q : QosSet) : Nat :=
  ((q.entries.filter (fun e => rsvClass e.2.1 = 0)).map (fun e => rsvLength e.2.2)).sum

/-- Floor capacity with a set in force, in thousandths of a descriptor (R168). -/
def State.floorCapacity (s : State) (q : QosSet) : Nat := 50000 * (s.lks.filter Lk.counts).length - 50 * q.lkTime

/-- FLOOR in force: the committed floor scaled by what remains of the capacity (R168). -/
def State.floorNow (s : State) (p : Nat) : Nat :=
  let q := s.sched.running
  if s.sched.capacityNow < q.capacity then q.floor p * s.sched.capacityNow / q.capacity else q.floor p

/-! ### Eligibility (R19's chapter, R115, R148, R163, R165) -/

/-- Descriptors in flight in the block and of a partition. -/
def State.inFlight (s : State) : Nat :=
  (s.reqs.filter Req.open).length + (s.lks.map (fun l => ((l.fetch.map (·.got.length)).getD 0))).sum
def State.ptnInFlight (s : State) (p : Nat) : Nat :=
  (s.reqs.filter (fun r => r.open && decide (r.ptn = p))).length +
    (s.lks.map (fun l => match l.fetch with
      | some f => if f.ptn = p then f.got.length else 0
      | none => 0)).sum

/-- A fenced descriptor of the ring waits (R163). -/
def State.fenceWaits (s : State) (p n : Nat) : Bool := (s.ringReqs p n).any (fun r => r.ringFence && !r.dispatched && !r.completed)

/-- A tow of the ring waits for admission (R148). -/
def State.towWaits (s : State) (p n : Nat) : Bool :=
  s.tows.any (fun t => decide (t.ptn = p ∧ t.ring = n) && !t.admitted && !t.failed)

/-- A Lockkeeper is fetching from the ring (R20). -/
def State.fetching (s : State) (p n : Nat) : Bool :=
  s.lks.any (fun l => (l.fetch.map (fun f => f.ptn == p && f.ring == n)).getD false)

/-- A ring is eligible. -/
def State.eligible (s : State) (p n : Nat) : Bool :=
  s.enabled p && (s.sqState p n == 1) && decide (0 < s.sqAvail p n) && decide (s.holdingUsed p < 256) &&
  decide (s.inFlight < 16384) && !s.fenceWaits p n && !s.towWaits p n && !s.fetching p n

def State.ptnEligible (s : State) (p : Nat) : Bool := (numsFrom 0 16).any (s.eligible p)

/-! ### Deficit round robin (R164, R165) -/

/-- Visits members in ascending order from `i` until one is found to serve; `d` are the deficits. -/
def drrFind (n : Nat) (elig : Nat → Bool) (weight : Nat → Nat) : Nat → Nat → SMap Int → Option (Nat × SMap Int)
  | 0, _, _ => none
  | k + 1, i, d =>
    let j := i % n
    let v := getKey 0 d j
    if elig j then
      let w := min (v + weight j) 510
      if 0 < w then some (j, setKey 0 d j w) else drrFind n elig weight k (j + 1) (setKey 0 d j w)
    else drrFind n elig weight k (j + 1) (if 0 < v then setKey 0 d j 0 else d)

/-- The member to serve, the number served so far in its visit, and the deficits. -/
def drr (n : Nat) (elig : Nat → Bool) (weight burst : Nat → Nat) (cur : Option Nat) (count : Nat) (d : SMap Int) :
    Option (Nat × Nat × SMap Int) :=
  if !(numsFrom 0 n).any elig then none
  else
    match cur with
    | none => (drrFind n elig weight (n * 300) 0 d).map (fun (j, d) => (j, 0, d))
    | some c =>
      if elig c ∧ 0 < getKey 0 d c ∧ count < burst c then some (c, count, d)
      else
        let d := if !elig c ∧ 0 < getKey 0 d c then setKey 0 d c 0 else d
        (drrFind n elig weight (n * 300) (c + 1) d).map (fun (j, d) => (j, 0, d))

/-- The ring of partition p that its round robin serves next (R165). -/
def State.nextRing (s : State) (p : Nat) : Option (State × Nat) :=
  let cur := (lookupKey p s.sched.ringVisit)
  let get (n : Nat) : Int := getKey 0 s.sched.ringDeficit (16 * p + n)
  let d : SMap Int := (numsFrom 0 16).filterMap (fun n => if get n = 0 then none else some (n, get n))
  (drr 16 (s.eligible p) (s.ringWeight p) (s.ringBurst p) cur (getKey 0 s.sched.ringCount p) d).map (fun (n, c, d) =>
    ({ s with sched := { s.sched with
        ringVisit := insertKey p n s.sched.ringVisit, ringCount := setKey 0 s.sched.ringCount p c,
        ringDeficit := (numsFrom 0 16).foldl (fun m k => setKey 0 m (16 * p + k) (getKey 0 d k)) s.sched.ringDeficit } }, n))

/-- The first number of a cyclic order after `last` that satisfies a condition. -/
def cyclic (n last : Nat) (ok : Nat → Bool) : Option Nat := ((numsFrom (last + 1) n).map (· % n)).find? ok

/-- An urgent ring keeps its priority in this frame (R170). -/
def State.urgentServes (s : State) (p n : Nat) : Bool :=
  s.urgentRing p n && s.eligible p n && s.urgentPriv p && !s.isolated p && !s.sched.urgentSpent &&
  !(getKey false s.sched.urgentEnded (16 * p + n)) && decide (getKey 0 s.sched.urgentUsed p < s.urgentBudget p)

/-- The partition is below its floor in this frame and can be served (R167). -/
def State.belowFloor (s : State) (p : Nat) : Bool :=
  !s.isolated p && decide (getKey 0 s.sched.fetched p < s.floorNow p) && s.ptnEligible p

/-- The reservation whose slice a Lockkeeper is in at time t of the frame (R174). -/
def State.sliceOf (s : State) (n t : Nat) : Option (W32 × W32) :=
  (s.rsvEntries.find? (fun e => rsvClass e.2.1 = 0 ∧ s.rsvUnit e = some n ∧ rsvOffset e.2.2 ≤ t ∧
    t < rsvOffset e.2.2 + rsvLength e.2.2)).map (·.2)

/-- The ring that the order of R164's chapter gives outside a slice: urgent ring, floor, round robin; with the deficits it is
charged to. -/
def State.sharedRing (s : State) : Option (State × Nat × Nat × Nat) :=
  match cyclic 1024 s.sched.lastUrgent (fun k => s.urgentServes (k / 16) (k % 16)) with
  | some k => some ({ s with sched := { s.sched with lastUrgent := k } }, k / 16, k % 16, 0)
  | none =>
    match cyclic 64 s.sched.lastFloor s.belowFloor with
    | some p => ({ s with sched := { s.sched with lastFloor := p } }.nextRing p).map (fun (s, n) => (s, p, n, 1))
    | none =>
      match drr 64 (fun p => !s.isolated p && s.ptnEligible p) s.ptnWeight s.ptnBurst s.sched.visit s.sched.visitCount
          s.sched.ptnDeficit with
      | none => none
      | some (p, c, d) =>
        ({ s with sched := { s.sched with visit := some p, visitCount := c, ptnDeficit := d } }.nextRing p).map
          (fun (s, n) => (s, p, n, 2))

/-- The ring offered to Lockkeeper n at time t of the frame (R174, R176, R180). -/
def State.offer (s : State) (n t : Nat) : Option (State × Nat × Nat × Nat) :=
  match s.sliceOf n t with
  | none => s.sharedRing
  | some (a, _) =>
    let q := rsvPtn a
    if s.ptnEligible q then (s.nextRing q).map (fun (s, r) => (s, q, r, 1))
    else if rsvLending a then s.sharedRing
    else none

/-- The urgent budgets count as spent once the unmet floors reach what is left of the frame (R473). -/
def State.guardFloors (s : State) (t : Nat) : State :=
  let unmet := ((numsFrom 0 64).map (fun p => s.floorNow p - getKey 0 s.sched.fetched p)).sum
  if (1000 - t) * 50 * (s.lks.filter Lk.counts).length ≤ unmet * 1000 then
    { s with sched := { s.sched with urgentSpent := true } }
  else s

/-- A Lockkeeper accepts a grant (R184, R185, R214). -/
def State.accepts (s : State) (n : Nat) : Bool :=
  let l := s.lk n
  (l.state == .running) && l.go && l.fetch.isNone && l.ctxs.any (fun c => c.state == .idle) && l.frames.any (fun f => !f.valid)

/-- LOCKKEEPER_GRANT: the scheduler offers a ring to a free Lockkeeper, which starts to fetch. The time in the frame is
a free value. -/
def State.grant (s : State) (n : Nat) : State :=
  if s.phase = phReady ∧ s.accepts n then
    let t := s.pick % 1000
    let s := { s.drawn with sched := { s.sched with eligible := s.sched.eligible.filter s.ptnEligible } }.guardFloors t
    match s.offer n t with
    | none => s
    | some (s, p, r, ch) => (s.updLk n (fun l => { l with fetch := some { ptn := p, ring := r, charge := ch } })).readDescriptor n p r
  else s

/-! ### Fetched descriptors -/

/-- A descriptor fetched from a ring counts for its frame and its deficits, and may end an urgent ring's priority
(R164, R167, R170). DESIGN CHOICE: the deficits that a descriptor under urgent priority, a floor or a slice is charged to; log entry
124. -/
def State.countFetch (s : State) (p n charge : Nat) (urgent : Bool) : State :=
  let c := s.sched
  let c := { c with fetched := setKey 0 c.fetched p (getKey 0 c.fetched p + 1) }
  let c := if 1 ≤ charge then
      { c with ringDeficit := setKey 0 c.ringDeficit (16 * p + n) (getKey 0 c.ringDeficit (16 * p + n) - 1),
               ringCount := if lookupKey p c.ringVisit = some n then setKey 0 c.ringCount p (getKey 0 c.ringCount p + 1) else c.ringCount }
    else c
  let c := if charge = 2 then
      { c with ptnDeficit := setKey 0 c.ptnDeficit p (getKey 0 c.ptnDeficit p - 1), visitCount := if c.visit = some p then c.visitCount + 1 else c.visitCount }
    else c
  let c := if s.urgentRing p n && (!urgent || c.urgentSpent || decide (s.urgentBudget p ≤ getKey 0 c.urgentUsed p)) then
      { c with urgentEnded := setKey false c.urgentEnded (16 * p + n) true }
    else c
  { s with sched := c }

/-- A descriptor has arrived for the fetch of Lockkeeper n: the head passes it, and the next member of its tow is read,
or waited for (R108, R146, R147). DESIGN CHOICE: CHAIN of a poisoned beat is taken as it came; log entry 121. -/
def State.fetchArrives (s : State) (n : Nat) (b : Bytes) (poison : Bool) : State :=
  match (s.lk n).fetch with
  | none => s
  | some f =>
    let d := Desc.ofBytes b
    let i := s.sqNext f.ptn f.ring
    let s := (s.sqFetched f.ptn f.ring).countFetch f.ptn f.ring f.charge d.urgent
    let more := d.chain && decide (f.got.length < 31)
    let s : State := { s with chainRun := setKey 0 s.chainRun (16 * f.ptn + f.ring) (openRun f.got.length d) }
    let wait := more && decide (s.sqAvail f.ptn f.ring = 0)
    let s := s.updLk n (fun l => { l with fetch := some { f with
      got := f.got ++ [(i, b, poison)], reading := false, waitsTail := wait } })
    if more && !wait then s.readDescriptor n f.ptn f.ring else s

/-- A fetch whose read could not be issued goes on once a tag is free. -/
def Fetch.complete (f : Fetch) : Bool :=
  !f.reading && !f.waitsTail && (match f.got.getLast? with
    | none => false
    | some (_, b, _) => !(Desc.ofBytes b).chain || decide (f.got.length = 32))

/-- OPEN_TOW_TIMEOUT: the rest of a tow did not arrive within 1 ms of its last member (R147). -/
def State.openTowTimeout (s : State) (p r : Nat) : State :=
  (numsFrom 0 8).foldl (fun s n =>
    match (s.lk n).fetch with
    | some f =>
      if f.ptn = p ∧ f.ring = r ∧ f.waitsTail then
        s.updLk n (fun l => { l with fetch := some { f with waitsTail := false, ended := true } })
      else s
    | none => s) s

/-- The first of `k` consecutive free frames (R185). -/
def Lk.freeRun (l : Lk) (k : Nat) : Option Nat :=
  (numsFrom 0 32).find? (fun f => decide (f + k ≤ 32) && (numsFrom f k).all (fun i => !(l.frame i).valid))

/-- FRM_PRIV of a frame (R189). -/
def State.privWord (s : State) (p : Nat) (honoured : Bool) : W16 :=
  BitVec.ofNat 16 (b2n (s.keyWrite p) + 2 * b2n (s.urgentPriv p) + 4 * b2n (s.isolated p) + 8 * b2n honoured)

/-- FLAGS.URGENT would be honoured but for R473; and it is honoured (R169). -/
def State.urgentWanted (s : State) (p : Nat) (d : Desc) : Bool :=
  d.urgent && s.urgentPriv p && !s.isolated p && decide (getKey 0 s.sched.urgentUsed p < s.urgentBudget p)

/-- Adds one to a QOS_VIOL counter. -/
def State.violate (s : State) (r : RegId) (p : Nat) : State :=
  s.setReg r (BitVec.ofNat 32 (satAdd 0xFFFFFFFF (s.reg r p).toNat 1)) p

/-- Places one fetched descriptor in a frame with its tag stamped (R15, R16, R185). -/
def State.placeFrame (s : State) (n c f : Nat) (fe : Fetch) (tow : Option Nat) (pos : Nat) (m : Nat × Bytes × Bool) : State :=
  let (i, b, poison) := m
  let d := Desc.ofBytes b
  let want := s.urgentWanted fe.ptn d
  let honoured := want && !s.sched.urgentSpent
  let s := if want && s.sched.urgentSpent then s.violate .qosViolLat fe.ptn else s
  let s : State := if honoured then
      { s with sched := { s.sched with urgentUsed := setKey 0 s.sched.urgentUsed fe.ptn (getKey 0 s.sched.urgentUsed fe.ptn + 1) } }
    else s
  let id := s.nextReq
  let r : Req := { id := id, ptn := fe.ptn, ring := fe.ring, index := i, desc := d, poison := poison, testRoot := s.pins.dbgEn, urgent := honoured,
                   tow := tow, pos := pos, lk := n, place := if s.sqInPlace fe.ptn fe.ring then .inPlace else .none }
  let s := s.newReq { r with verdict := s.verdictOf r }
  s.updLk n (fun l => { l with bad := l.bad.filter (fun e => e.1 / 0x40 ≠ 0x200 + f + pos) }.updFrame (f + pos) (fun _ =>
    { valid := true, killed := poison, doneStatus := if poison then 0x50 else 0, req := id, ctx := some c, tow := tow.isSome, pos := pos, ptn := fe.ptn, ring := fe.ring,
      index := i, priv := s.privWord fe.ptn honoured, rsvd := d.reservedSet && !poison,
      desc := if poison then zeros 64 else b }))

/-- DESCRIPTOR_ARRIVAL: a single descriptor or a tow that has been fetched goes into frames, and a context is started
at the frame vector (R185). A poisoned single, and a tow whose first member cannot run, complete at once (R139, R150). -/
def State.arrive (s : State) (n : Nat) : State :=
  let l := s.lk n
  match l.fetch with
  | none => s
  | some fe =>
    if !(fe.complete || (fe.ended && !fe.got.isEmpty)) ∨ !l.serves then s
    else
      match (enumFrom 0 l.ctxs).find? (fun (_, c) => c.state == .idle), l.freeRun fe.got.length with
      | some (c, _), some f =>
        let k := fe.got.length
        let isTow := decide (1 < k) || (fe.got.any (fun m => (Desc.ofBytes m.2.1).chain))
        let tid := s.nextTow
        let first := s.nextReq
        let s : State := if isTow then
            { s with nextTow := tid + 1, tows := s.tows ++ [{ id := tid, ptn := fe.ptn, ring := fe.ring, members := numsFrom first k }] }
          else s
        let s := (enumFrom 0 fe.got).foldl (fun s (pos, m) => s.placeFrame n c f fe (if isTow then some tid else none) pos m) s
        let s := s.updLk n (fun l => { l with fetch := none })
        let ms := s.reqsOf (numsFrom first k)
        match towFault ms with
        | some (0, res) => ((s.finishReq first res).updLk n (fun l => (l.leave (· == c)).releaseFrames)).checkDrained n
        | _ =>
          s.updLk n (fun l => (l.updCtx c (fun _ =>
            startCtx 0x0020 (BitVec.ofNat 16 (f * 0x40)) (BitVec.ofNat 16 k) .ready)).dispatch)
      | _, _ => s

/-! ### Frames and sets (R166, R177, R178, R472) -/

/-- Entries of `n` words of which only those that differ from their reset value are listed. -/
def tableOf (n : Nat) (dflt : Nat → W32) (f : Nat → W32) : SMap W32 :=
  (numsFrom 0 n).filterMap (fun i => if f i = dflt i then none else some (i, f i))

/-- The set in the shadows. -/
def State.shadowSet (s : State) : QosSet :=
  { ptnCfg := tableOf 64 (fun p => RegId.qosPtnCfg.resetVal p 0) (fun p => s.reg .qosPtnCfg p),
    ptnLim := tableOf 64 (fun p => RegId.qosPtnLim.resetVal p 0) (fun p => s.reg .qosPtnLim p),
    ringCfg := tableOf 1024 (fun k => RegId.qosRingCfg.resetVal (k / 16) (k % 16)) (fun k => s.reg .qosRingCfg (k / 16) (k % 16)),
    rsvA := tableOf 256 (fun _ => 0) (fun n => s.reg .qosRsvA n),
    rsvB := tableOf 256 (fun _ => 0) (fun n => s.reg .qosRsvB n) }

/-- The shadows loaded from a set. -/
def State.loadShadows (s : State) (q : QosSet) : State :=
  let s := (numsFrom 0 64).foldl (fun s p => (s.setReg .qosPtnCfg (q.cfg p) p).setReg .qosPtnLim (q.lim p) p) s
  let s := (numsFrom 0 1024).foldl (fun s k => s.setReg .qosRingCfg (q.ring (k / 16) (k % 16)) (k / 16) (k % 16)) s
  (numsFrom 0 256).foldl (fun s n => (s.setReg .qosRsvA (getKey 0 q.rsvA n) n).setReg .qosRsvB (getKey 0 q.rsvB n) n) s

/-- Two intervals of one unit overlap. -/
def rsvOverlap (x y : Nat × W32 × W32) : Bool :=
  decide (x.1 < y.1) && (rsvClass x.2.1 == rsvClass y.2.1) && (rsvInst x.2.1 == rsvInst y.2.1) && decide (rsvClass x.2.1 ≤ 5) &&
  decide (rsvOffset x.2.2 < rsvOffset y.2.2 + rsvLength y.2.2) && decide (rsvOffset y.2.2 < rsvOffset x.2.2 + rsvLength x.2.2)

/-- Check 1 of R177 for one entry. -/
def QosSet.entryOk (q : QosSet) (e : Nat × W32 × W32) : Bool :=
  let c := rsvClass e.2.1
  decide (c ≤ 7) && decide (rsvInst e.2.1 < rsvCount c) && q.isolated (rsvPtn e.2.1) && decide (1 ≤ rsvLength e.2.2) &&
  (if c ≤ 5 then decide (rsvOffset e.2.2 + rsvLength e.2.2 ≤ 1000)
   else decide (rsvOffset e.2.2 = 0) && decide (rsvLength e.2.2 ≤ 64))

/-- Sum of the lengths of a class's entries. -/
def QosSet.classLen (q : QosSet) (c : Nat) : Nat :=
  ((q.entries.filter (fun e => rsvClass e.2.1 = c)).map (fun e => rsvLength e.2.2)).sum

/-- Every submission ring of a partition is DISABLED or STOPPED and it has no descriptor in flight. -/
def State.ptnQuiet (s : State) (p : Nat) : Bool :=
  (numsFrom 0 16).all (fun n => s.sqState p n == 0 || s.sqState p n == 3) && (s.ptnInFlight p == 0)

/-- Check 9 of R177 against the partition table. -/
def State.check9 (s : State) (q : QosSet) : Bool :=
  (numsFrom 0 64).all (fun p => q.isolated p == s.isolated p || s.ptnQuiet p)

/-- The first check of R177 that a set fails; 0 when it passes. -/
def State.qosFails (s : State) (q : QosSet) : Nat :=
  let es := q.entries
  if !es.all q.entryOk then 1
  else if es.any (fun x => es.any (rsvOverlap x)) then 2
  else if 6000 < q.classLen 0 then 3
  else if [1, 2, 3, 4, 5].any (fun c => (numsFrom 0 (rsvCount c)).all (fun i =>
      es.any (fun e => rsvClass e.2.1 = c ∧ rsvInst e.2.1 = i ∧ !rsvLending e.2.1))) then 4
  else if 32 < q.classLen 6 ∨ 32 < q.classLen 7 then 5
  else if (numsFrom 0 64).any (fun p => es.any (fun e => rsvPtn e.2.1 = p) &&
      [0, 6, 7].any (fun c => !es.any (fun e => rsvPtn e.2.1 = p ∧ rsvClass e.2.1 = c))) then 6
  else if s.floorCapacity q < 1000 * ((numsFrom 0 64).map q.floor).sum then 7
  else if 1024 < ((numsFrom 0 64).map q.holdQuota).sum then 8
  else if !s.check9 q then 9
  else 0

/-- Captures a set that passes for the next frame boundary; a set that fails changes nothing but QOS_STATUS (R177). -/
def State.qosCapture (s : State) (q : QosSet) : State :=
  let k := s.qosFails q
  let s := (s.setF .qosStatus 11 8 k).setB .qosStatus 0 (k != 0)
  if k = 0 then
    { s with sched := { s.sched with captured := some { q with capacity := s.floorCapacity q } } }.setB .qosStatus 1 true
  else s

/-- A section of TYPE `kind` is being applied unit by unit or entry by entry. -/
def State.applying (s : State) (kind : Nat) : Bool := s.boot.job.any (fun j => j.kind == kind)

/-- A write to QOS_CTRL (R177). DESIGN CHOICE: a COMMIT that passes while an applied set waits for the boundary replaces that set too, and
the apply ends with OK there; log entry 117. -/
def State.qosCtrl (s : State) (commit discard : Bool) : State :=
  if commit && discard then s.setB .qosStatus 2 true
  else if commit then s.qosCapture s.shadowSet
  else if discard then s.loadShadows s.sched.running
  else s

/-- Puts a set into force (R177, R178). -/
def State.qosApply (s : State) (q : QosSet) : State :=
  let s : State := { s with sched := { s.sched with
    running := q, captured := none, moved := [], applyWaits := false,
    overRun := (s.reqs.filter Req.onEngine).map (·.id), overInternal := s.internal } }
  let s := (numsFrom 0 64).foldl (fun s p => s.setB .mgtPtnA 28 (q.isolated p) p) s
  (q.entries.filter (fun e => !s.rsvServes (rsvClass e.2.1) (rsvInst e.2.1))).foldl
    (fun s e => s.moveReservations (rsvClass e.2.1) (rsvInst e.2.1)) s

/-- A partition's reserved intervals on an instance of a class, as OFFSET and LENGTH. -/
def State.unitIntervals (s : State) (p cls n : Nat) : List (Nat × Nat) :=
  (s.rsvEntries.filter (fun e => rsvPtn e.2.1 = p ∧ rsvClass e.2.1 = cls ∧ s.rsvUnit e = some n)).map (fun e =>
    (rsvOffset e.2.2, rsvLength e.2.2))

/-- Partitions with a suspended reservation, or a paused signature that waits for an interval on its engine (R179, R336). -/
def State.shortPtns (s : State) : List Nat :=
  (s.rsvEntries.filter (fun e => (s.rsvUnit e).isNone)).map (fun e => rsvPtn e.2.1) ++
  (s.reqs.filter (fun r => r.phase == .paused && (s.unitIntervals r.ptn r.unit.code r.inst).isEmpty)).map (·.ptn)

/-- A partition's reservation falls short in this frame (R472). -/
def State.flagRsv (s : State) (p : Nat) : State := { s with sched := { s.sched with rsvFlag := setKey false s.sched.rsvFlag p true } }

/-- Partitions whose reservations fall short now are counted at the end of the frame, though they do no longer by then (R472). -/
def State.flagShort (s : State) : State := s.shortPtns.foldl State.flagRsv s

/-- The counters of R472 at the end of a frame. -/
def State.countViolations (s : State) : State :=
  let short := s.shortPtns
  (numsFrom 0 64).foldl (fun s p =>
    let q := s.sched.running
    let starved := s.sched.eligible.contains p && s.ptnEligible p && decide (getKey 0 s.sched.fetched p < s.floorNow p)
    let s := if s.floorNow p < q.floor p ∨ starved then s.violate .qosViolFloor p else s
    if getKey false s.sched.rsvFlag p || short.contains p then s.violate .qosViolRsv p else s) s

/-- A slice of a Lockkeeper begins while every context or frame is taken by what it fetched for other partitions: it starts late (R180,
R472). -/
def State.noteLateSlice (s : State) (n t : Nat) : State :=
  match s.sliceOf n t with
  | none => s
  | some (a, _) =>
    if s.ptnEligible (rsvPtn a) ∧ (s.lk n).state = .running ∧ (s.lk n).frames.any (fun f => f.valid && decide (f.ptn ≠ rsvPtn a)) then
      s.flagRsv (rsvPtn a)
    else s

/-- An apply ends: 2 DONE or 3 REFUSED, with its RESULT. The first that completes sets DELTA; one that is ABORTED, RESULT 7, has not
completed (R100, R103). -/
def State.applyEnds (s : State) (result st : Nat) : State :=
  let s := (s.setF .mgtApplyStatus 23 16 result).setF .mgtApplyStatus 1 0 st
  let s := if st = 2 ∧ result ≠ 7 then s.setB .mgtStatus 12 true else s
  { s with boot := { s.boot with job := none } }

/-- FRAME_BOUNDARY (R166, R168, R177). -/
def State.frameBoundary (s : State) : State :=
  if s.phase ≠ phReady then s
  else
    let s := s.countViolations
    let s : State := { s with sched := { s.sched with fetched := [], urgentUsed := [], urgentEnded := [], urgentSpent := false, rsvFlag := [] } }
    let s := s.setF .qosStatus 31 16 (s.regF .qosStatus 31 16 + 1)
    let s := match s.sched.captured with
      | none => s
      | some q =>
        let s := s.setB .qosStatus 1 false
        let applied := s.sched.applyWaits
        if s.check9 q then
          (let s := s.qosApply q
           if applied then (s.loadShadows q).applyEnds 0 2 else s)
        else
          (let s := (({ s with sched := { s.sched with captured := none, applyWaits := false } } : State).setF .qosStatus 11 8 9).setB
             .qosStatus 0 true
           if applied then s.applyEnds 4 3 else s)
    let s := s.flagShort
    { s with sched := { s.sched with capacityNow := s.floorCapacity s.sched.running, eligible := (numsFrom 0 64).filter s.ptnEligible } }

/-- A write to QOS_VIOL_CTRL with CLEAR (R472). -/
def State.violClear (s : State) (all : Bool) (p : Nat) : State :=
  let clear (s : State) (p : Nat) : State := ((s.setReg .qosViolFloor 0 p).setReg .qosViolRsv 0 p).setReg .qosViolLat 0 p
  if all then (numsFrom 0 64).foldl clear s else clear s p

end Sys2Proof.Machine
end

