-- ==== Sys2Proof/Machine/KeyStore.lean ====
section
/-!
DEFINITION. The key store: roots and derivation, slots, their checks, allocation, writing and destruction
(R24, R413 to R421, R436 to R440, R556).
-/
namespace Sys2Proof.Machine

/-- ASCII bytes of a string. -/
def ascii (t : String) : Bytes := t.toList.map (fun c => BitVec.ofNat 8 c.toNat)

/-! ### OTP and roots (R436, R438, R441, R442) -/

def State.otpWord (s : State) (a : Nat) : W32 := getKey 0 s.otp a
/-- `n` OTP words from word a, as bytes. -/
def State.otpBytes (s : State) (a n : Nat) : Bytes := (numsFrom a n).flatMap (fun i => toLe 4 (s.otpWord i).toNat)
def State.deviceId (s : State) : Bytes := s.otpBytes 0x004 2

/-- The candidate field of a root in use: the first whose seal word reads all ones (R441). -/
def State.rootField (s : State) (owner : Bool) : Option Nat :=
  let base := if owner then 2 else 0
  if s.otpWord (0x120 + base) = 0xFFFFFFFF then some base
  else if s.otpWord (0x120 + base + 1) = 0xFFFFFFFF then some (base + 1)
  else none

/-- The bytes of a root in OTP; an absent root is all zero. -/
def State.rootBytes (s : State) (owner : Bool) : Bytes :=
  match s.rootField owner with
  | some f => s.otpBytes (0x100 + 8 * f) 8
  | none => zeros 32

def kmac256 (key input : Bytes) (bits : Nat) (custom : String) : Bytes :=
  kmacFn 0x1D false (bits / 8) key input (ascii custom)

/-- The test root (R436). -/
def testRoot : Bytes := sha3 (ascii "OVRALIN PARTAR3 TEST ROOT")

/-- The derivations of R438. -/
inductive RootUse where
  | tag | seal | log | deriveDevice | deriveOwner | attest
  deriving DecidableEq, Repr

/-- Which root a derivation takes by state alone: none, test, device or owner (R438). -/
inductive RootName where
  | none | test | device | owner
  deriving DecidableEq, Repr

def rootTable (use : RootUse) (lc : Nat) : RootName :=
  match use, lc with
  | .tag, 1 => .test
  | .tag, 2 => .device
  | .tag, 3 => .device
  | .tag, 4 => .test
  | .seal, 0 => .test
  | .seal, 1 => .test
  | .seal, 2 => .device
  | .seal, 3 => .owner
  | .seal, 4 => .test
  | .log, 0 => .test
  | .log, 1 => .test
  | .log, 2 => .device
  | .log, 3 => .device
  | .log, 4 => .test
  | .deriveDevice, 1 => .test
  | .deriveDevice, 2 => .device
  | .deriveDevice, 3 => .device
  | .deriveDevice, 4 => .test
  | .deriveOwner, 1 => .test
  | .deriveOwner, 3 => .owner
  | .attest, 2 => .device
  | .attest, 3 => .device
  | .attest, 4 => .device
  | _, _ => .none

/-- The root in force for a derivation: real roots give way to the test root while dbg_en is high (R438, R439). -/
def State.rootFor (s : State) (use : RootUse) : Option Bytes :=
  match rootTable use s.lc with
  | .none => none
  | .test => some testRoot
  | .device => some (if s.pins.dbgEn then testRoot else s.rootBytes false)
  | .owner => some (if s.pins.dbgEn then testRoot else s.rootBytes true)

/-- A tag written now is computed under the device root (R438). -/
def State.realTags (s : State) : Bool := rootTable .tag s.lc == .device && !s.pins.dbgEn

/-- PRK of the partition of a request under a root, and the partition's sealing key (R436). A generation raised after the request was
issued does not change them. -/
def State.prk (s : State) (root : Bytes) (r : Req) : Bytes :=
  kmac256 root (toLe 1 r.ptn ++ toLe 2 r.ptnGen ++ s.deviceId) 256 "P3 PARTITION"
def State.sealKey (s : State) (r : Req) : Bytes :=
  kmac256 (s.prk ((s.rootFor .seal).getD testRoot) r) [] 256 "P3 SEAL"

/-! ### Slots -/

def State.key (s : State) (i : Nat) : KeySlot := getKey {} s.keys i

def State.setKeySlot (s : State) (i : Nat) (k : KeySlot) : State := { s with keys := setKey {} s.keys i k }

/-- ATTR of a slot (R414). -/
def KeySlot.attr (k : KeySlot) : Nat :=
  k.owner * 2 ^ 58 + k.state.code * 2 ^ 55 + b2n k.rootReal * 2 ^ 54 + k.usage * 2 ^ 51 + k.order * 2 ^ 49 +
  b2n k.exportW * 2 ^ 48 + b2n k.keepBound * 2 ^ 47 + b2n k.lockEn * 2 ^ 46 + k.lockClass * 2 ^ 42 + k.lockAlg * 2 ^ 34 +
  k.pair * 2 ^ 32 + k.len * 2 ^ 24 + k.kind * 2 ^ 22 + k.recNo * 2 ^ 15

/-- The tag key that ROOT_REAL selects (R415). -/
def State.tagKey (s : State) (real : Bool) : Bytes :=
  kmac256 (if real then s.rootBytes false else testRoot) s.deviceId 256 "P3 SLOT TAG"

/-- The integrity tag of slot i (R415). -/
def State.tagOf (s : State) (i : Nat) (k : KeySlot) : Bytes :=
  kmac256 (s.tagKey k.rootReal) (fit 64 k.payload ++ toLe 8 k.attr ++ toLe 4 k.gen.toNat ++ toLe 2 i) 64 "P3 SLOT"

def KeySlot.doomed (k : KeySlot) : Bool := k.doom != .none

/-- Half h of the key store is out of service (KEY_STATUS.HALF_OUT). -/
def State.halfOut (s : State) (h : Nat) : Bool := s.regB .keyStatus (30 + h)
def halfOf (i : Nat) : Nat := i / 4096
/-- The power domain of a half. -/
def halfDomain (h : Nat) : Nat := 33 + h

/-- Slot i alone is bad: its STATE, its half, or its tag or memory on this read (R416, R453). -/
def State.slotBad (s : State) (i : Nat) : Bool :=
  let k := s.key i
  k.state == .bad || s.halfOut (halfOf i) || (k.state == .valid && k.tag != s.tagOf i k)

/-- The slots of a key: one, or the pair (R419). -/
def State.slotsOf (s : State) (i : Nat) : List Nat := if (s.key i).pair = 1 then [i, i + 1] else [i]

/-- States in which the key store is closed (R438, R450). -/
def State.noKeys (s : State) : Bool := [lcBlank, lcDecom, lcLocked].contains s.lc

/-- Slot i + 1 is the recorded pair of slot i (R288, R419). -/
def State.pairHere (s : State) (i : Nat) : Bool :=
  decide ((s.key i).pair = 1) && decide ((s.key (i + 1)).pair = 2) && (s.key (i + 1)).state != .empty &&
  decide ((s.key (i + 1)).owner = (s.key i).owner)

/-- Checks 1 to 4 of R556 on slot i for partition p. -/
def State.keyFault (s : State) (p i : Nat) : Option Status :=
  let k := s.key i
  if s.noKeys then some .rootUnavailable
  else if k.state = .empty ∨ k.doomed ∨ k.pair = 2 ∨ (k.pair = 1 ∧ !s.pairHere i) then some .keyHandleInvalid
  else if k.owner ≠ p then some .keyNotOwned
  else if (s.slotsOf i).any s.slotBad then some .keySlotBad
  else if k.state = .reserved ∨ k.state = .invalid ∨ (s.slotsOf i).any (fun j => (s.key j).state == .invalid) then
    some .keyHandleInvalid
  else none

/-- Writes what a record of slot i becomes, under the tag key that it stands under: the next GEN, and its tag (R413, R415). -/
def State.rewriteSlot (s : State) (i : Nat) (k : KeySlot) : State :=
  let k := { k with gen := (s.key i).gen + 1 }
  (s.setKeySlot i { k with tag := s.tagOf i k }).lifeAdd (0x002 + halfOf i) 1

/-- Sets a slot BAD. -/
def State.markBad (s : State) (i : Nat) : State := s.rewriteSlot i { s.key i with state := .bad }

/-- What a read of slot i by a request leaves behind: a corrected word is rewritten; an uncorrectable one makes the slot
BAD and poisons the request; a tag mismatch makes it BAD (R416). -/
def State.noteKeyRead (s : State) (rid i : Nat) : State :=
  let k := s.key i
  if k.state ≠ .valid then s
  else if k.mem = 2 then ((s.markBad i).poisonTag rid).event srcKeyUncorr (halfDomain (halfOf i)) (halfOf i)
  else
    let s := if k.mem = 1 then (s.setKeySlot i { k with mem := 0 }).event srcKeyCorr (halfDomain (halfOf i)) (halfOf i) else s
    if k.tag ≠ s.tagOf i k then (s.markBad i).event srcKeyIntegrity (halfDomain (halfOf i)) (halfOf i) else s

/-- The whole payload of a key. -/
def State.payloadOf (s : State) (i : Nat) : Bytes := ((s.slotsOf i).flatMap (fun j => fit 64 (s.key j).payload)).take (s.key i).len

/-! ### What changes with a slot -/

def State.ckcEntry (s : State) (n : Nat) : CkcEntry := getKey {} s.ckc.entries n

/-- The PUBLIC entry of a partition with a PKID and an ALG, seen once its load has completed (R352). -/
def State.ckcPublic (s : State) (p : Nat) (pkid : Bytes) (alg : Nat) : Option Nat :=
  (s.ckc.entries.find? (fun e => e.2.owner = p && !e.2.isPrivate && !e.2.doomed && e.2.loading.isNone && e.2.pkid == pkid && decide (e.2.alg = alg))).map (·.1)

/-- Frees a cache entry once no request reads it any more (R353). -/
def State.ckcRelease (s : State) (n : Nat) : State :=
  if s.reqs.any (fun r => r.onEngine && r.entry == some n) then
    { s with ckc := { s.ckc with entries := setKey {} s.ckc.entries n { s.ckcEntry n with doomed := true } } }
  else { s with ckc := { s.ckc with entries := dropKey n s.ckc.entries } }

/-- The cache entry that a CODE_REF names, if the generation still matches (R434). -/
def State.ckcNamed (s : State) (b : Bytes) : Option Nat :=
  let n := le16 b 34
  let e := s.ckcEntry n
  if e.granules ≠ 0 ∧ e.gen = le32 b 36 then some n else none

/-- The cache entry that a CODE_REF slot refers to. -/
def State.ckcOfSlot (s : State) (k : KeySlot) : Option Nat := if k.kind = 1 then s.ckcNamed k.payload else none

/-- A CODE_REF (R434). -/
def codeRef (pkid : Bytes) (alg n gen : Nat) : Bytes := fit 32 pkid ++ toLe 1 alg ++ zeros 1 ++ toLe 2 n ++ toLe 4 gen

/-- The index record of the stateful key in slot i: the one of its KEY_ID (R296, R300). -/
def State.recordOf (s : State) (i : Nat) : Option Nat :=
  if (s.key i).kind = 2 ∧ (s.key i).state ≠ .empty then
    ((enumFrom 0 s.keep.recs).find? (fun e =>
      e.2.state != 0 && hbsKeyId (hbsPublicKey e.2.alg (s.payloadOf i) e.2.params) == e.2.keyId)).map (·.1)
  else none

/-- Frees the index record of a stateful key (R300). -/
def State.freeRecord (s : State) (rec : Nat) : State := { s with keep := { s.keep with recs := modAt (fun _ => {}) rec s.keep.recs } }

/-- What the old content of a slot takes with it when it is overwritten: a code reference frees its entry (R353). -/
def State.dropContent (s : State) (i : Nat) : State :=
  let s := s.clearRoundKeys false i
  match s.ckcOfSlot (s.key i) with
  | some n => s.ckcRelease n
  | none => s

/-- Writes one record with the next GEN and its tag. -/
def State.putSlot (s : State) (i : Nat) (k : KeySlot) : State :=
  let k := { k with gen := (s.key i).gen + 1, rootReal := s.realTags, mem := 0, doom := .none, payload := fit 64 k.payload }
  (s.setKeySlot i { k with tag := s.tagOf i k }).lifeAdd (0x002 + halfOf i) 1

/-- Writes a key with its attributes into slot i, or into the pair i and i + 1 (R413, R415, R419). -/
def State.putKey (s : State) (i : Nat) (k : KeySlot) (payload : Bytes) (pair : Bool) : State :=
  let s := s.dropContent i
  if pair then
    (s.putSlot i { k with pair := 1, payload := payload.take 64 }).putSlot (i + 1) { k with pair := 2, payload := payload.drop 64 }
  else s.putSlot i { k with pair := 0, payload := payload }

/-! ### Quota and allocation (R420) -/

def State.slotsOwned (s : State) (p : Nat) : Nat :=
  (s.keys.filter (fun e => e.2.state != .empty && decide (e.2.owner = p))).length

/-- EMPTY slots of a half. -/
def State.halfEmpty (s : State) (h : Nat) : Nat :=
  4096 - (s.keys.filter (fun e => decide (halfOf e.1 = h) && e.2.state != .empty)).length

/-- The lowest EMPTY slot, or EMPTY pair, of a half in service. -/
def State.emptyIn (s : State) (h : Nat) (pair : Bool) : Option Nat :=
  if s.halfOut h then none
  else (numsFrom (4096 * h) 4096).find? (fun i =>
    (s.key i).state == .empty && (!pair || (decide (i % 4096 ≠ 4095) && (s.key (i + 1)).state == .empty)))

/-- The slot or pair that an allocation of partition p takes (R420). -/
def State.allocSlot (s : State) (p : Nat) (pair : Bool) : Option Nat :=
  if s.keyQuota p < s.slotsOwned p + (if pair then 2 else 1) then none
  else
    let first := if s.halfEmpty 0 < s.halfEmpty 1 then 1 else 0
    match s.emptyIn first pair with
    | some i => some i
    | none => s.emptyIn (1 - first) pair

/-! ### Result targets (R310, R421) -/

/-- The first condition of R421 that slot i fails as a result of `len` bytes. -/
def State.targetFault (s : State) (p i kind : Nat) (usages : List Nat) (len : Nat) : Option Status :=
  let k := s.key i
  if s.noKeys then some .rootUnavailable
  else if k.state = .empty ∨ k.doomed ∨ k.pair = 2 then some .keyHandleInvalid
  else if k.owner ≠ p then some .keyNotOwned
  else if s.halfOut (halfOf i) ∨ (s.slotsOf i).any (fun j => (s.key j).state == .bad) then some .keySlotBad
  else if (s.slotsOf i).any (fun j => (s.key j).state == .invalid) ∨ k.kind ≠ kind ∨ !usages.contains k.usage ∨ k.len < len ∨ (64 < len ∧ k.pair ≠ 1) then
    some .keyPolicy
  else none

/-- Writes a result into slot i: payload, LEN, VALID, ROOT_REAL and GEN; the other attributes stay (R421). -/
def State.putResult (s : State) (i : Nat) (b : Bytes) : State :=
  let k := s.key i
  s.putKey i { k with state := .valid, len := b.length } b (k.pair == 1)

/-! ### Destruction (R24, R426) -/

/-- The request is on an engine, or waits with its key for the keep secret (R559). -/
def Req.atWork (r : Req) : Bool := r.onEngine || (r.phase == .queued && r.key.isSome)

/-- A request other than the destroyer still uses a key of the slot that it took before. -/
def State.slotInUse (s : State) (i : Nat) (but : Nat) : Bool :=
  s.reqs.any (fun r => r.atWork && decide (r.id ≠ but) && r.slots.contains i)

/-- The slots of a key are in use by no earlier user. -/
def State.doomFree (s : State) (i : Nat) : Bool :=
  let k := s.key i
  let but := match k.doom with
    | .destroy r => r
    | _ => s.nextReq
  (s.slotsOf i).all (fun j => !s.slotInUse j but)

/-- Zeroizes the record of slot i and its pair, with the record or entry that goes with it. -/
def State.clearSlot (s : State) (i : Nat) : State :=
  let js := s.slotsOf i
  let rec? := s.recordOf i
  let s := s.dropContent i
  let s := match rec? with
    | some n => s.freeRecord n
    | none => s
  js.foldl (fun s j => s.setKeySlot j {}) s

/-- Makes slot i and its pair INVALID: the key is gone, the rest stays, and a destruction that waits for earlier users still comes
(R24, R414). -/
def State.invalidateSlot (s : State) (i : Nat) : State :=
  let js := s.slotsOf i
  let s := s.dropContent i
  js.foldl (fun s j =>
    let k := s.key j
    s.rewriteSlot j { k with state := .invalid, payload := zeros 64, doom := if k.doom = .invalidate then .none else k.doom, mem := 0 }) s

/-- Every earlier user has finished: the record is zeroized, and set EMPTY or INVALID (R24). -/
def State.finishDoom (s : State) (i : Nat) : State :=
  let k := s.key i
  if !k.doomed ∨ !s.doomFree i then s
  else
    match k.doom with
    | .invalidate => s.invalidateSlot i
    | _ => s.clearSlot i

/-- Decides the destruction of slot i (R24). -/
def State.doomSlot (s : State) (i : Nat) (d : Doom) : State :=
  ((s.slotsOf i).foldl (fun s j => s.setKeySlot j { s.key j with doom := d }) s).finishDoom i

end Sys2Proof.Machine
end

