-- ==== Sys2Proof/Machine/Engine.lean ====
section
/-!
DEFINITION. What every engine operation shares: when its command runs, its inputs from buffers, holds, slots and blobs,
its result targets, and producing its result (R17, R24, R122, R131, R151, R155, R254, R421, R429 to R431, R559).
-/
namespace Sys2Proof.Machine

/-- How an operation ends without its result: a status, and a detail code for OUT_LEN. -/
structure Fail where
  st : Status
  detail : Option Nat := none
  deriving DecidableEq, Repr

/-! ### Holds -/

def State.holdOf (s : State) (r : Req) (h : Nat) : Hold :=
  match r.tow.bind s.findTow with
  | some t => t.holds.getD h {}
  | none => {}

/-- Writes a hold of the request's tow; a failed tow's holds take nothing (R151, R160). -/
def State.writeHold (s : State) (r : Req) (h : Nat) (b : Bytes) : State :=
  match r.tow with
  | none => s
  | some t => (s.wakeLines [s.holdOf r h]).updTow t (fun t => if t.failed then t else
      { t with holds := modAt (fun x => { x with bytes := b.take 512, len := min b.length 512, mem := 0 }) h t.holds })

/-- The source of a request: its hold under HOLD_IN, or what its lane delivered (R151, R221). -/
def State.srcOf (s : State) (r : Req) : Except Fail Bytes :=
  if r.desc.holdIn then
    let h := s.holdOf r (r.desc.srcAddr.toNat % 8)
    if h.len < r.desc.srcLen.toNat then .error ⟨.badLength, none⟩ else .ok (h.bytes.take r.desc.srcLen.toNat)
  else .ok r.laneSrc

/-- The round keys that a request used stay in its core's cache, the four newest of them (R246). -/
def State.cacheKey (s : State) (core : Nat) (e : RoundKeys) : State :=
  { s with roundKeys := setKey [] s.roundKeys core ((e :: (getKey [] s.roundKeys core).filter (· ≠ e)).take 4) }

/-- A cipher core caches the round keys of a key slot that the request used on it; keys of holds and of wrapped blobs are never cached. -/
def State.cacheSlot (s : State) (r : Req) (m : KeyMat) : State :=
  match r.unit, m.slot with
  | .sym, some i => s.cacheKey (s.physical 1 r.inst) { berth := false, index := i, gen := (s.key i).gen, owner := r.ptn }
  | _, _ => s

/-! ### Producing a result -/

/-- The lifetime counter of an engine's operations (R537). -/
def State.countOp (s : State) (r : Req) : State :=
  match r.unit with
  | .sym => s.lifeAdd (0x100 + s.physical 1 r.inst) 1
  | .hsh => s.lifeAdd (0x100 + 48 + s.physical 2 r.inst) 1
  | .ply => s.lifeAdd (0x100 + 80 + s.physical 3 r.inst) 1
  | .cod => s.lifeAdd (0x100 + 96 + s.physical 4 r.inst) 1
  | .bne => s.lifeAdd (0x100 + 100 + s.physical 5 r.inst) 1
  | _ => s

/-- At the end of an output item the credits that it does not need return to the pool (R223). -/
def State.creditsBack (s : State) (id : Nat) : State :=
  match s.findReq id with
  | none => s
  | some r =>
    if r.outCells < r.bas.creditedOut then
      (s.updReq id (fun r => { r with bas := { r.bas with creditedOut := r.outCells, outBanks := r.bas.outBanks.take r.outCells } })).returnCells
        (r.bas.outBanks.drop r.outCells)
    else s

/-- The output queue fills from the occupancy `before` to the credits that it has (R232). -/
def State.placed (s : State) (id before : Nat) : State :=
  match s.findReq id with
  | none => s
  | some r => match r.bas.lane with
    | some l => s.watermark (2 * l + 1) before r.occOut
    | none => s

/-- The request's result is ready: output under HOLD_OUT goes to its hold, other output to its output queue. A poisoned
request commits nothing (R235). -/
def State.produce (s : State) (id : Nat) (res : Result) : State :=
  match s.findReq id with
  | none => s
  | some r =>
    let s := if r.desc.holdOut ∧ res.status = .ok ∧ !r.poison then s.writeHold r (r.desc.dstAddr.toNat % 8) res.out else s
    let res := if r.desc.holdOut then { res with out := [] } else res
    let res := if r.poison then { res with resultH := 0 } else res
    (((s.updReq id (fun r => { r with phase := .produced, result := some res })).countOp r).creditsBack id).placed id r.occOut

/-- Ends an operation without its result. -/
def State.failOp (s : State) (id : Nat) (f : Fail) : State :=
  match s.findReq id with
  | none => s
  | some r => s.produce id {
      status := f.st, detail := f.detail.map (BitVec.ofNat 32), outLen := r.bas.released, unit := r.unit, inst := r.inst }

/-- Ends an operation with OK, its output and the object that received a result. -/
def State.succeed (s : State) (id : Nat) (out : Bytes) (resultH : W32 := 0) : State :=
  match s.findReq id with
  | none => s
  | some r => s.produce id { status := .ok, out := out, outLen := out.length, resultH := resultH, unit := r.unit, inst := r.inst }

/-- A verification's end: OK or VERIFY_FAILED, nothing written. -/
def State.verdict (s : State) (id : Nat) (good : Bool) : State :=
  if good then s.succeed id [] else s.failOp id ⟨.verifyFailed, none⟩

/-- The state in the eyes of a request that began under the test root: dbg_en stays high for it (R70). -/
def State.withDbg (s : State) (v : Bool) : State := { s with pins := { s.pins with dbgEn := v } }

/-- A request runs its operation under the roots that it began with, or that dbg_en has given it since (R69, R70). -/
def State.underRoots (s : State) (r : Req) (f : State → Req → State) : State :=
  if r.testRoot && !s.pins.dbgEn then (f (s.withDbg true) r).withDbg false else f s r

/-! ### Faults that an engine's checks find (R275, R278, R366, R399) -/

/-- The ERR register of an engine class. -/
def engineErr (cls : Nat) : RegId :=
  match cls with
  | 1 => .symErr
  | 2 => .hshErr
  | 3 => .plyErr
  | 4 => .codErr
  | _ => .bneErr

/-- Key, berth, hold and result words pass over the towpath. -/
def Desc.onTowpath (d : Desc) : Bool :=
  decide (d.usedKey ≠ 0) || decide (d.usedBerth ≠ 0) || decide (d.resultH ≠ 0) || d.holdIn || d.holdOut

/-- The engine computes the result twice, or checks it: signing and key generation of class 0x5_ (R278), and private-key operations of
the big-number engines (R366). -/
def Desc.crossChecked (d : Desc) : Bool :=
  match d.op with
  | some .slhdsaKeygen | some .slhdsaSign | some .hssKeygen | some .hssSign | some .xmssKeygen | some .xmssSign => true
  | some .rsaPrivateCrt | some .rsaPssSign | some .rsaOaepDecrypt | some .ecdsaSign | some .ecdh | some .xdh | some .ecKeygen
  | some .eddsaSign => true
  | _ => false

/-- What a handle names once a tow result is resolved; none when the member reported no object (R155). -/
def State.resolve (s : State) (r : Req) (h : W32) : Option W32 :=
  match handleTow h with
  | none => some h
  | some i =>
    match (s.towMembers r).find? (fun m => m.pos = i) with
    | some m => match m.result with
      | some res => if res.resultH = 0 then none else some res.resultH
      | none => none
    | none => none

/-- The half of the key store that a key-store request works on: that of the slot that RESULT_H or KEY_H names. -/
def State.keyHalf (s : State) (r : Req) : Nat :=
  match ((s.resolve r r.desc.resultH).orElse (fun _ => s.resolve r r.desc.keyH)).filter (fun h => handleType h = 1) with
  | some h => halfOf (handleIndex h)
  | none => 0

/-- The fault of a kind on an engine that serves the request, and that engine's logical number; of a key-store half, class 8, only what
its towpath brings is checked (R399). -/
def State.upsetOn (s : State) (r : Req) (k : UpsetKind) : Option (Upset × Nat) :=
  if 1 ≤ r.unit.code ∧ r.unit.code ≤ 5 then
    (r.inst :: r.joined).findSome? (fun n =>
      (s.flt.upsets.find? (fun u => u.kind = k && u.cls == r.unit.code && u.phys == s.physical r.unit.code n)).map (fun u => (u, n)))
  else if r.unit = .key ∧ k = .towpath then
    (s.flt.upsets.find? (fun u => u.kind = k && u.cls == 8 && u.phys == s.keyHalf r)).map (fun u => (u, s.keyHalf r))
  else none

/-- No check of the engines that serve a request will find a fault. -/
def State.soundFor (s : State) (r : Req) : Bool :=
  [UpsetKind.duplicate, .towpath, .check, .corrected, .uncorrectable].all (fun k => (s.upsetOn r k).isNone)

/-- A check has found a fault: it is over once it has been found. -/
def State.upsetGone (s : State) (u : Upset × Nat) : State := { s with flt := { s.flt with upsets := s.flt.upsets.erase u.1 } }

/-- The engine's error bit and the fault event of a fault that a check has found. The key store has no TOWPATH bit. -/
def State.upsetFound (s : State) (cls bit src : Nat) (u : Upset × Nat) : State :=
  if cls ≤ 5 then ((s.upsetGone u).setB (engineErr cls) bit true u.2).event src (s.unitDomain cls u.2) u.2
  else (s.upsetGone u).event src (halfDomain u.2) u.2

/-- The event of a bad word in the working memory of a polynomial or code engine, or in an operand memory, and the domain that it names
(R507). -/
def memorySrc (cls : Nat) (bad : Bool) : Nat :=
  match cls with
  | 3 => if bad then srcPlyMemUncorr else srcPlyMemCorr
  | 4 => if bad then srcCodMemUncorr else srcCodMemCorr
  | _ => if bad then srcBneMemUncorr else srcBneMemCorr
def memoryDomain (cls phys : Nat) : Nat := if cls = 5 then 88 + phys else classDomain cls phys

/-- The engines that serve a request read their memory: a corrected word raises its event, and an uncorrectable one poisons the request
as well (R335, R387). -/
def State.memoryRead (s : State) (r : Req) : State × Req :=
  let c := r.unit.code
  let found (s : State) (bad : Bool) (u : Upset × Nat) : State := (s.upsetGone u).event (memorySrc c bad) (memoryDomain c u.1.phys) u.2
  let s := match (s.upsetOn r .corrected).filter (fun _ => decide (3 ≤ c)) with
    | some u => found s false u
    | none => s
  match (s.upsetOn r .uncorrectable).filter (fun _ => decide (3 ≤ c)) with
  | some u => (((found s true u).sealGroup r.id).poisonTag r.id, { r with poison := true })
  | none => (s, r)

/-- The checks of the engines that serve a request, before `f`: a mismatch of duplicated control raises the engine fault event; a
towpath word, or a result, that fails its check ends the request with ENGINE_FAULT; a word of memory that cannot be corrected poisons
it. -/
def State.checked (s : State) (r : Req) (word : Bool) (f : State → Req → State) : State :=
  let c := r.unit.code
  let s := match s.upsetOn r .duplicate with
    | some u => s.upsetFound c 0 (srcSymEngine + (c - 1)) u
    | none => s
  match (s.upsetOn r .towpath).filter (fun _ => word), (s.upsetOn r .check).filter (fun _ => r.desc.crossChecked) with
  | some u, _ => (s.upsetFound c 1 srcTowpath u).failOp r.id ⟨.engineFault, none⟩
  | none, some u => (s.upsetFound c 2 (srcSymEngine + (c - 1)) u).failOp r.id ⟨.engineFault, none⟩
  | none, none => f (s.memoryRead r).1 (s.memoryRead r).2

/-- Runs an operation: its request runs on its unit, names the opcode and has its whole input. Otherwise the command does nothing. -/
def State.runOp (s : State) (id : Nat) (op : Op) (f : State → Req → State) : State :=
  match s.findReq id with
  | none => s
  | some r =>
    if r.phase = .running ∧ r.desc.op = some op ∧ r.itemHere then s.checked r r.desc.onTowpath (fun s r => s.underRoots r f) else s

/-! ### Handles -/

/-- What a field names is of a type that the field accepts; one named directly has been checked before dispatch (R121, R155). -/
def acceptsAs (field : Option (List Nat)) (named h : W32) : Bool :=
  (handleTow named).isNone || (field.getD []).contains (handleType h)

def slotHandle (i : Nat) : W32 := BitVec.ofNat 32 (0x10000000 + i)
def berthHandle (i : Nat) : W32 := BitVec.ofNat 32 (0x20000000 + i)

/-! ### Taking a key (R24, R254, R417, R418, R556) -/

/-- What an operation asks of its key: usage classes, the lengths a slot or blob key may have (none: any), how much of
a hold it takes (none: its whole length), and the KIND. -/
structure KeyNeed where
  usages : List Nat
  lens : List Nat := []
  holdLen : Option Nat := none
  kind : Nat := 0
  /-- The key takes a pair of slots (R288). -/
  pair : Bool := false
  /-- The key's lock must be clear (R417). -/
  unlocked : Bool := false
  deriving DecidableEq, Repr

def usEncrypt : Nat := 1
def usDecrypt : Nat := 2
def usWrap : Nat := 3
def usDerive : Nat := 4
def usSign : Nat := 5
def usDecap : Nat := 6

/-- The lock lets a request use the key (R418). -/
def KeySlot.lockAllows (k : KeySlot) (d : Desc) : Bool :=
  !k.lockEn || decide (k.usage = usWrap) || (decide (d.opcode.toNat / 16 = k.lockClass) && decide (d.alg.toNat = k.lockAlg))

/-- Check 5 of R556: usage class, lock, KIND and length. -/
def KeySlot.admits (k : KeySlot) (n : KeyNeed) (d : Desc) : Bool :=
  n.usages.contains k.usage && k.lockAllows d && (!n.unlocked || !k.lockEn) &&
  decide (k.kind = n.kind) && (n.lens.isEmpty || n.lens.contains k.len)

/-- The key material of slot i. -/
def State.matOf (s : State) (i : Nat) : KeyMat :=
  let k := s.key i
  { bytes := s.payloadOf i, slot := some i, usage := k.usage, order := k.order, kind := k.kind, recNo := k.recNo, rootReal := k.rootReal }

/-- Takes the key of slot i for a request (R24, R556). -/
def State.takeSlotKey (s : State) (r : Req) (i : Nat) (n : KeyNeed) : State × Except Fail KeyMat :=
  match (s.keyFault r.ptn i).orElse (fun _ => if n.pair ∧ !s.pairHere i then some .keyHandleInvalid else none) with
  | some st => ((s.slotsOf i).foldl (fun s j => if st = .keySlotBad then s.noteKeyRead r.id j else s) s, .error ⟨st, none⟩)
  | none =>
    let js := s.slotsOf i
    let good := (s.key i).admits n r.desc
    let mat := s.matOf i
    let s := js.foldl (fun s j => s.noteKeyRead r.id j) s
    if good then
      (s.updReq r.id (fun r => { r with slots := r.slots ++ js, key := some mat }), .ok mat)
    else (s, .error ⟨.keyPolicy, none⟩)

/-- Takes the key that KEY_H names (R17, R122, R151, R155, R254). -/
def State.takeKey (s : State) (r : Req) (n : KeyNeed) : State × Except Fail KeyMat :=
  match s.resolve r r.desc.keyH with
  | none => (s, .error ⟨.keyHandleInvalid, none⟩)
  | some h =>
    if !acceptsAs r.desc.handles.key r.desc.keyH h then (s, .error ⟨.keyHandleInvalid, none⟩)
    else
    match handleType h with
    | 1 => s.takeSlotKey r (handleIndex h) n
    | 3 =>
      match s.takeSlotKey r (handleIndex h) { usages := [usWrap], lens := [32] } with
      | (s, .ok m) =>
        let m := { m with wraps := true }
        (s.updReq r.id (fun r => { r with key := some m }), .ok m)
      | (s, .error e) => (s, .error e)
    | 4 =>
      let hd := s.holdOf r (handleIndex h % 8)
      let want := n.holdLen.getD hd.len
      if hd.len < want then (s, .error ⟨.badLength, none⟩)
      else
        let m : KeyMat := { bytes := hd.bytes.take want, fromHold := true }
        (s.updReq r.id (fun r => { r with key := some m }), .ok m)
    | _ => (s, .error ⟨.keyHandleInvalid, none⟩)

/-! ### Wrapped blobs (R429 to R431, R559) -/

/-- The attributes in a blob's ATTR image. -/
def KeySlot.ofAttr (a : Nat) : KeySlot :=
  { usage := a / 2 ^ 51 % 8, order := a / 2 ^ 49 % 4, exportW := a.testBit 48, keepBound := a.testBit 47,
    lockEn := a.testBit 46, lockClass := a / 2 ^ 42 % 16, lockAlg := a / 2 ^ 34 % 256, len := a / 2 ^ 24 % 256,
    kind := a / 2 ^ 22 % 4 }

/-- Bits of an ATTR image that must be zero: OWNER, STATE, ROOT_REAL, PAIR, REC and the reserved field. -/
def attrImageOk (a : Nat) : Bool :=
  decide (a / 2 ^ 54 = 0) && decide (a / 2 ^ 32 % 4 = 0) && decide (a % 2 ^ 22 = 0) &&
  decide (1 ≤ a / 2 ^ 51 % 8 ∧ a / 2 ^ 51 % 8 ≤ 6) && decide (a / 2 ^ 49 % 4 ≤ 2) && decide (a / 2 ^ 22 % 4 ≤ 2)

/-- KW of R430. -/
def State.wrapKey (s : State) (kw : Bytes) (owner : Nat) (keep : Bool) : Bytes :=
  kmac256 kw (toLe 1 owner ++ (if keep then s.keep.secret.getD [] else [])) 256 "P3 WRAP"

/-- What comes of opening a blob. -/
inductive Opened where
  | ok (attr : KeySlot) (body : Bytes) (content : Nat)
  | fail (f : Fail)
  /-- KEEP_BOUND is set and the keep secret is absent: the request waits (R559). -/
  | wait
  deriving DecidableEq, Repr

/-- BODY_LEN of an RSA key of B bits, and the B that has bodies (R429). -/
def rsaBodyLen (b : Nat) : Nat := 7 * b / 16 + 32

/-- Checks 2 to 5 of R431 on a blob that ends at `room` bytes of the source; `exact` when it must fill them. -/
def State.openBlob (s : State) (p : Nat) (kw : Bytes) (src : Bytes) (exact : Bool) (contents : List Nat) : Opened :=
  let bodyLen := le32 src 0x10
  let content := byteAt src 4
  let a := le64 src 8
  let k := KeySlot.ofAttr a
  let lenOk := if content = 1 then modBitsOk (le16 src 6) 2048 && decide (bodyLen = rsaBodyLen (le16 src 6))
    else decide (le16 src 6 = 0) && decide (bodyLen = k.len) && decide (1 ≤ bodyLen ∧ bodyLen ≤ 128)
  let fits := if exact then decide (src.length = 48 + bodyLen) else decide (48 + bodyLen ≤ src.length)
  if le32 src 0 ≠ 3 ∨ !contents.contains content ∨ !attrImageOk a ∨ !lenOk ∨ !fits then .fail ⟨.paramInvalid, some 0x0902⟩
  else if byteAt src 5 ≠ p then .fail ⟨.keyNotOwned, none⟩
  else if k.keepBound ∧ s.keep.secret.isNone then .wait
  else
    let key := s.wrapKey kw p k.keepBound
    let aad := src.take 0x20
    let body := slice src 0x20 bodyLen
    let iv := slice src 0x14 12
    if fit 16 (Config.std .gcmTag [key, iv, aad, body]) ≠ slice src (0x20 + bodyLen) 16 then .fail ⟨.keyPolicy, some 0x0901⟩
    else .ok k (fit bodyLen (Config.std .gcmPlain [key, iv, aad, body])) content

/-- A blob made of a key (R429, R430). -/
def State.makeBlob (s : State) (p content b : Nat) (k : KeySlot) (plain iv kw : Bytes) : Bytes :=
  let img := ({ k with owner := 0, state := .empty, rootReal := false, pair := 0, recNo := 0 } : KeySlot).attr
  let aad := toLe 4 3 ++ toLe 1 content ++ toLe 1 p ++ toLe 2 b ++ toLe 8 img ++ toLe 4 plain.length ++ iv
  let key := s.wrapKey kw p k.keepBound
  let body := fit plain.length (Config.std .gcmText [key, iv, aad, plain])
  aad ++ body ++ fit 16 (Config.std .gcmTag [key, iv, aad, body])

/-- The key of a running request and the rest of its source: a blob at the start of the source is opened first
(R122, R431, R559). -/
inductive Ready where
  | ok (key : KeyMat) (src : Bytes)
  | fail (f : Fail)
  | wait
  deriving DecidableEq, Repr

/-- Check 6 of R431 for an opened slot key. -/
def State.keyAndSource (s : State) (r : Req) (n : KeyNeed) (contents : List Nat := [0]) : Ready :=
  match s.srcOf r with
  | .error f => .fail f
  | .ok src =>
    let m := r.key.getD {}
    if !m.wraps then .ok m src
    else
      match s.openBlob r.ptn m.bytes src false contents with
      | .wait => .wait
      | .fail f => .fail f
      | .ok k body _ =>
        if k.admits n r.desc then
          .ok { bytes := body, usage := k.usage, order := k.order, kind := k.kind, recNo := k.recNo } (src.drop (48 + body.length))
        else .fail ⟨.keyPolicy, none⟩

/-- The key of a running request: the one it has taken, or the one it takes now. -/
def State.ensureKey (s : State) (r : Req) (n : KeyNeed) : State × Except Fail KeyMat :=
  match r.key with
  | some m => (s, .ok m)
  | none => s.takeKey r n

/-- Runs an operation on its key and source. A request that must wait for the keep secret leaves its engine and waits on
its lane, and ends with ENTROPY_HALTED while the RNG is HALTED (R559). -/
def State.withKey (s : State) (r : Req) (n : KeyNeed) (f : State → KeyMat → Bytes → State) (contents : List Nat := [0]) : State :=
  match s.ensureKey r n with
  | (s, .error e) => s.failOp r.id e
  | (s, .ok m) =>
    match s.keyAndSource { r with key := some m } n contents with
    | .wait => if s.rngState = rngHalted then s.failOp r.id ⟨.entropyHalted, none⟩
        else s.updReq r.id (fun r => { r with phase := .queued, joined := [], hashCore := none })
    | .fail e => s.failOp r.id e
    | .ok m src => f s m src

/-! ### Result targets (R310, R421) -/

/-- What RESULT_H names as a result target of `len` bytes: the first condition that fails. -/
def State.resultFault (s : State) (r : Req) (kind : Nat) (usages : List Nat) (len : Nat) : Option Status :=
  if r.desc.resultH = 0 then some .keyPolicy
  else
    match s.resolve r r.desc.resultH with
    | none => some .keyHandleInvalid
    | some h =>
      if !acceptsAs r.desc.handles.result r.desc.resultH h then some .keyHandleInvalid
      else
      match handleType h with
      | 4 => if kind = 0 then none else some .keyHandleInvalid
      | 1 => s.targetFault r.ptn (handleIndex h) kind usages len
      | _ => some .keyHandleInvalid

/-- Writes a result to the object that RESULT_H names; a poisoned request writes nothing (R235). -/
def State.putTarget (s : State) (r : Req) (b : Bytes) : State :=
  if s.poisoned r then s
  else
    match s.resolve r r.desc.resultH with
    | some h =>
      match handleType h with
      | 4 => s.writeHold r (handleIndex h % 8) b
      | 1 => s.putResult (handleIndex h) b
      | _ => s
    | none => s

/-! ### The wait for the keep secret (R559) -/

/-- The slot that a handle names, directly or through a tow result (R155). -/
def State.namedSlot (s : State) (r : Req) (h : W32) : Option Nat :=
  (s.resolve r h).bind (fun h => if handleType h = 1 then some (handleIndex h) else none)

/-- A queued request waits for the keep secret: its blob is KEEP_BOUND, or it derives with the secret (R559). -/
def State.waitsKeep (s : State) (r : Req) : Bool :=
  r.phase == .queued && s.keep.secret.isNone && r.itemHere &&
  ((match r.key with
    | some m => (m.wraps || r.desc.opIs .keyImportWrapped) && (le64 r.laneSrc 8).testBit 47
    | none => false) ||
   (r.exported.map (fun x => x.1.keepBound)).getD false ||
   (r.desc.opIs .keyDerive && (if r.desc.holdOut then bitOf r.desc.param 29 else
      ((s.namedSlot r r.desc.resultH).map (fun i => (s.key i).keepBound)).getD false)))

end Sys2Proof.Machine
end

