-- ==== Sys2Proof/Machine/Berths.lean ====
section
/-!
DEFINITION. The berth store: checks, allocation, policies, counters, invalidation and the image of a berth
(R256 to R271, R558).
-/
namespace Sys2Proof.Machine

/-- Bank i mod 8 of the berth store on PD25–PD32 (R257, R535). -/
def State.berthDomain (s : State) (i : Nat) : Nat := 25 + s.physical 8 (i % 8)

def State.berthBankOut (s : State) (i : Nat) : Bool := s.unitOut 8 (i % 8)

def State.berthsOwned (s : State) (p : Nat) : Nat :=
  (s.berths.filter (fun e => e.2.state != .free && decide (e.2.owner = p))).length

/-- A FREE berth within the quota of partition p; which one is a free value (R261). -/
def State.allocBerth (s : State) (p : Nat) : Option Nat :=
  if min (s.berthQuota p) 16384 ≤ s.berthsOwned p then none
  else ((numsFrom (s.pick % 16384) 16384).map (· % 16384)).find? (fun i =>
    (s.berth i).state == .free && !s.berthBankOut i)

/-- The berth becomes INVALID, and its secrets are zeroized (R267). -/
def State.invalidateBerth (s : State) (i : Nat) : State :=
  let b := s.berth i
  if b.state = .free then s
  else ((s.setBerth i { b with state := .invalid, key := [], hsub := [], auxk := [], susp := [], mem := 0 }).clearRoundKeys true i).freeAreas i

/-- Requests that run on a berth, or are suspended on it. -/
def State.berthUsers (s : State) (i : Nat) : List Req := s.reqs.filter (fun r => r.onEngine && r.berth == some i)

/-- Invalidates a berth and ends the request that runs on it with a status (R267). -/
def State.loseBerth (s : State) (i : Nat) (st : Status) : State :=
  let us := s.berthUsers i
  us.foldl (fun s r => s.finishReq r.id { status := st, outLen := r.bas.acked, unit := r.unit, inst := r.inst }) (s.invalidateBerth i)

/-- What reading a berth for a request finds: a corrected word is rewritten and counted; an uncorrectable one makes the
berth INVALID and poisons the request (R267). -/
def State.noteBerthRead (s : State) (rid i : Nat) : State :=
  let b := s.berth i
  if b.mem = 2 then
    (((s.invalidateBerth i).poisonTag rid).setF .brtErr 15 0 (satAdd 0xFFFF (s.regF .brtErr 15 0) 1)).event srcBrtUncorr (s.berthDomain i) (i % 8)
  else if b.mem = 1 then
    ((s.setBerth i { b with mem := 0 }).setF .brtErr 31 16 (satAdd 0xFFFF (s.regF .brtErr 31 16) 1)).event srcBrtCorr (s.berthDomain i) (i % 8)
  else s

/-- The berth that BERTH_H names; none for a handle that resolves to no berth (R155). -/
def State.berthNamed (s : State) (r : Req) : Option Nat :=
  match s.resolve r r.desc.usedBerth with
  | some h => if handleType h = 2 then some (handleIndex h) else none
  | none => none

/-- BERTH_H is a tow result that names no berth (R155). -/
def State.berthLost (s : State) (r : Req) : Bool := (handleTow r.desc.usedBerth).isSome && (s.berthNamed r).isNone

/-- A mode that class 0x1_ defines (R558, R320). -/
def symMode (alg : Nat) : Bool := symKeyCode (alg / 16) (alg % 16)

/-- The owner and STATE checks of R258 for an opcode. -/
def State.berthFault (s : State) (r : Req) (i : Nat) : Option Fail :=
  let b := s.berth i
  let d := r.desc
  if b.state = .free ∨ b.owner ≠ r.ptn then some ⟨.berthInvalid, none⟩
  else
    match d.op with
    | some .berthSetup | some .berthRelease => none
    | some .berthSealOut => if b.state = .invalid then some ⟨.berthInvalid, none⟩ else none
    | _ =>
      match b.state with
      | .invalid => some ⟨.berthInvalid, none⟩
      | .exhausted => some ⟨.counterExhausted, some b.exhaust⟩
      | .idle => if d.init then none else some ⟨.paramInvalid, none⟩
      | .openMsg => if d.init then some ⟨.paramInvalid, none⟩ else none
      | _ => none

/-- DIR admits the opcode (R558). -/
def dirAdmits (dir : Nat) (d : Desc) : Bool :=
  match dir with
  | 0 => d.opIs .encrypt || d.opIs .aeadSeal || d.opIs .macGenerate
  | 1 => d.opIs .decrypt || d.opIs .aeadOpen || d.opIs .macVerify
  | _ => true

/-- The checks of R558 and R262 on a data opcode. -/
def berthPolicyFault (b : Berth) (d : Desc) : Option Fail :=
  if !symMode b.alg then some ⟨.berthInvalid, none⟩
  else if b.alg ≠ d.alg.toNat then some ⟨.paramInvalid, none⟩
  else if !dirAdmits b.dir d then some ⟨.keyPolicy, none⟩
  else if b.policy = 0 ∧ d.ivgen then some ⟨.paramInvalid, none⟩
  else if b.policy ≠ 0 ∧ d.opIs .aeadSeal ∧ d.init ∧ !d.ivgen then some ⟨.keyPolicy, none⟩
  else none

/-! ### Counters (R268, R269) -/

/-- Width in bits of a CTR counter field, and its value in a counter block: the last bytes, big-endian (R248, R251). -/
def ctrBits (w : Nat) : Nat := if w = 0 then 32 else if w = 1 then 64 else 128
def ctrField (cb : Bytes) (w : Nat) : Nat := leNat ((fit 16 cb).reverse.take (ctrBits w / 8))

/-- The counter block `n` blocks on (R268 code 0x5). -/
def ctrAdvance (cb : Bytes) (w n : Nat) : Bytes :=
  let k := ctrBits w / 8
  (fit 16 cb).take (16 - k) ++ (toLe k ((ctrField cb w + n) % 2 ^ ctrBits w)).reverse

/-- Counter blocks that `n` data bytes take. -/
def symBlocks (mode n : Nat) : Nat := ceilDiv n (if mode = 8 then 64 else 16)

/-- The lowest code of the counters that a segment would pass: blocks used by the message so far, and its counter block
(R268). -/
def counterFault (b : Berth) (d : Desc) (used : Nat) (cb : Bytes) (data : Nat) : Option Nat :=
  let n := symBlocks d.mode data
  let w := d.ctrw
  let c0 := (ctrField cb w + (2 ^ ctrBits w - used % 2 ^ ctrBits w)) % 2 ^ ctrBits w
  if d.mode = 3 ∧ 2 ^ 32 - 2 < used + n then some 1
  else if b.policy = 2 ∧ d.init ∧ d.ivgen ∧ 0xFFFFFFFFFFFFFFFE < b.invoc then some 2
  else if d.init ∧ (d.opIs .encrypt || d.opIs .aeadSeal || d.opIs .macGenerate) ∧ d.berthH ≠ 0 ∧ b.msgLimit ≤ b.msgCount then some 3
  else if d.mode = 8 ∧ 2 ^ 32 - 1 < used + n then some 4
  else if d.mode = 2 ∧ 2 ^ ctrBits w < c0 + used + n then some 5
  else none

/-- Takes INVOC and MSG_COUNT at the start of a message (R260, R268). -/
def takeCounts (b : Berth) (d : Desc) : Berth :=
  let b := if d.init ∧ (d.opIs .encrypt || d.opIs .aeadSeal || d.opIs .macGenerate) then { b with msgCount := b.msgCount + 1 } else b
  if d.init ∧ d.ivgen ∧ b.policy = 2 then { b with invoc := b.invoc + 1 } else b

/-! ### The start of a request on a berth (R259, R268) -/

/-- What a request that names a berth does as it starts: reads the berth, is checked, and takes its counts. The request
remembers the berth and the INVOC it took. -/
def State.startBerth (s : State) (r : Req) (i : Nat) : State × Option Fail :=
  let s := s.noteBerthRead r.id i
  let s := s.updReq r.id (fun r => { r with berth := some i })
  match s.berthFault r i with
  | some f => (s, some f)
  | none =>
    match r.desc.op with
    | some .berthSetup | some .berthRelease | some .berthSealOut => (s, none)
    | _ =>
      let b := s.berth i
      let d := r.desc
      match berthPolicyFault b d with
      | some f => (s, some f)
      | none =>
        let cb := if d.init then r.bas.input.take 16 else b.cb
        let used := if d.init then 0 else b.msgBlocks
        match counterFault b d used cb (d.srcLen.toNat - d.srcTag) with
        | some c => (s.setBerth i { b with state := .exhausted, exhaust := c }, some ⟨.counterExhausted, some c⟩)
        | none => ((s.setBerth i (takeCounts b d)).updReq r.id (fun r => { r with stateIndex := some b.invoc }), none)

/-! ### The image of a berth (R257) -/

/-- The 256 bytes of a berth, SUSP zero (R264). -/
def Berth.image (b : Berth) : Bytes :=
  toLe 8 (b.owner * 2 ^ 58 + b.state.code * 2 ^ 55 + b2n b.rootReal * 2 ^ 54 + b.dir * 2 ^ 52 + b.policy * 2 ^ 50 +
    b.accTop % 4 * 2 ^ 48 + b.alg * 2 ^ 40) ++
  toLe 8 b.msgCount ++ toLe 8 b.msgLimit ++ toLe 8 b.invoc ++ fit 4 b.fixed ++ toLe 4 b.gen.toNat ++ toLe 8 b.msgBlocks ++
  toLe 8 b.aadBytes ++ zeros 8 ++ fit 64 b.key ++ fit 16 b.hsub ++ fit 16 b.cb ++ fit 16 b.acc ++ fit 32 b.auxk ++ zeros 48

/-- The berth that an image holds. -/
def Berth.ofImage (m : Bytes) : Berth :=
  let a := le64 m 0
  { state := match a / 2 ^ 55 % 8 with
      | 1 => .idle
      | 2 => .openMsg
      | 4 => .exhausted
      | 5 => .invalid
      | _ => .idle
    owner := a / 2 ^ 58 % 64, rootReal := a.testBit 54, dir := a / 2 ^ 52 % 4, policy := a / 2 ^ 50 % 4, accTop := a / 2 ^ 48 % 4,
    alg := a / 2 ^ 40 % 256, msgCount := le64 m 0x08, msgLimit := le64 m 0x10, invoc := le64 m 0x18, fixed := slice m 0x20 4,
    gen := BitVec.ofNat 32 (le32 m 0x24), msgBlocks := le64 m 0x28, aadBytes := le64 m 0x30, key := slice m 0x40 64,
    hsub := slice m 0x80 16, cb := slice m 0x90 16, acc := slice m 0xA0 16, auxk := slice m 0xB0 32 }

end Sys2Proof.Machine
end

