-- ==== Sys2Proof/Machine/Power.lean ====
section
/-!
DEFINITION. Power domains and busy units, the current estimate and the power cap (R62 to R65, R520 to R530).
-/
namespace Sys2Proof.Machine

/-! ### Domains of units -/

/-- Instances of a PWR_MAP class; class 0 stands for the Lockkeepers. -/
def classSize : Nat → Nat
  | 0 => 8
  | 1 => 48
  | 2 => 32
  | 3 => 16
  | 4 => 4
  | 5 => 8
  | 6 => 4
  | 7 => 8
  | 8 => 8
  | 9 => 1
  | _ => 0

/-- The class and the physical instances of a domain that holds engines or a Lockkeeper; an operand memory goes with its
engine. -/
def domUnits (d : Nat) : Option (Nat × List Nat) :=
  if 4 ≤ d ∧ d < 12 then some (0, [d - 4])
  else if 12 ≤ d ∧ d < 16 then some (6, [d - 12])
  else if 39 ≤ d ∧ d < 51 then some (1, numsFrom (4 * (d - 39)) 4)
  else if 51 ≤ d ∧ d < 59 then some (2, numsFrom (4 * (d - 51)) 4)
  else if 59 ≤ d ∧ d < 75 then some (3, [d - 59])
  else if 75 ≤ d ∧ d < 79 then some (4, [d - 75])
  else if 80 ≤ d ∧ d < 88 then some (5, [d - 80])
  else if 88 ≤ d ∧ d < 96 then some (5, [d - 88])
  else none

/-! ### Busy units -/

/-- The request occupies its engine: it runs, or its result is not posted. -/
def Req.holdsUnit (r : Req) : Bool := r.phase == .running || r.phase == .paused || r.phase == .produced

/-- Logical instance n of a unit class serves the request: it runs it, has joined it, or hashes for it (R290, R358). -/
def Req.servedBy (r : Req) (u : Unit) (n : Nat) : Bool :=
  r.holdsUnit && ((decide (r.unit = u) && (decide (r.inst = n) || r.joined.contains n)) ||
    (decide (u = .hsh) && decide (r.hashCore = some n)))

/-- The engines that serve a request, by class and logical instance. -/
def Req.engines (r : Req) : List (Nat × Nat) :=
  (r.inst :: r.joined).map (fun i => (r.unit.code, i)) ++ r.hashCore.toList.map (fun i => (2, i))

/-- A Lockkeeper has work. -/
def Lk.busy (l : Lk) : Bool := l.fetch.isSome || l.ctxs.any (fun c => c.state != .idle)

/-- A DMA engine has transactions outstanding. -/
def State.dmaBusy (s : State) (e : Nat) : Bool := s.reads.any (fun x => x.engine = e) || s.writes.any (fun x => x.engine = e)

/-- The logical instance n of a unit class is taken, by a request or by work of the block itself. -/
def State.unitTaken (s : State) (u : Unit) (n : Nat) : Bool :=
  s.internal.contains (u.code, n) || s.reqs.any (fun r => r.servedBy u n)

/-- Busy units: class and physical instance, Lockkeepers as class 0 (R526, R528). -/
def State.busyUnits (s : State) : List (Nat × Nat) :=
  ((numsFrom 0 8).filter (fun n => (s.lks.getD n {}).busy)).map (fun n => (0, n)) ++
  (s.reqs.filter (fun r => r.holdsUnit && decide (1 ≤ r.unit.code ∧ r.unit.code ≤ 5))).flatMap (fun r =>
    r.engines.map (fun e => (e.1, s.physical e.1 e.2))) ++
  s.internal.map (fun u => (u.1, s.physical u.1 u.2)) ++
  ((numsFrom 0 4).filter s.dmaBusy).map (fun e => (6, s.physical 6 e))

/-- A domain has no work. -/
def State.domIdle (s : State) (d : Nat) : Bool :=
  match domUnits d with
  | some (cls, ns) => !s.busyUnits.any (fun (c, n) => c = cls && ns.contains n)
  | none => true

/-! ### The estimate and the cap (R526, R529, R530) -/

/-- The step of a unit class in mA (R526). -/
def classStep : Nat → Nat
  | 0 => 80
  | 1 => 67
  | 2 => 42
  | 3 => 333
  | 4 => 267
  | 5 => 267
  | _ => 907

/-- A step, scaled by the frequency for units on eng_clk. -/
def State.stepOf (s : State) (cls : Nat) : Nat :=
  if 1 ≤ cls ∧ cls ≤ 5 then classStep cls * s.pins.engMhz / 1200 else classStep cls

/-- The units that draw their step: busy, or under ballast (R526, R528). -/
def State.drawing (s : State) : List (Nat × Nat) :=
  let us := s.busyUnits
  us ++ s.power.ballast.filter (fun u => !us.contains u)

/-- The current estimate, PWR_STATUS.CUR and pm_cur (R526). -/
def State.estimate (s : State) : Nat :=
  60 + (if s.busyUnits.isEmpty then 0 else 607) + (s.drawing.map (fun u => s.stepOf u.1)).sum

/-- The cap in force in units of 100 mW; 0 none (R529). -/
def State.capEff (s : State) : Nat :=
  let cs := [s.pins.pmCap, min (s.regF .pwrCfg 31 24) 140, if s.inForce 2 then max 1 (s.regF .tmpCfg 23 16) else 0].filter (· ≠ 0)
  match cs with
  | [] => 0
  | c :: cs => cs.foldl min c

/-- The cap current in mA: the cap divided by 0.75 V (R529). -/
def capCurrent (cap : Nat) : Nat := cap * 400 / 3

/-- The units that carry a valid reservation entry of partitions not in `off`, by class and instance (R530). -/
def State.rsvUnits (s : State) (off : List Nat) : List (Nat × Nat) :=
  ((s.rsvEntries.filter (fun e => !off.contains (rsvPtn e.2.1) && decide (1 ≤ rsvClass e.2.1 ∧ rsvClass e.2.1 ≤ 5))).map
    (fun e => (rsvClass e.2.1, rsvInst e.2.1))).eraseDups

/-- The items that the governor counts first (R530). -/
def State.counted (s : State) (off : List Nat) : Nat :=
  667 + 8 * 80 + 4 * 907 + ((s.rsvUnits off).map (fun u => s.stepOf u.1)).sum

/-- Reservations suspended because the counted items do not fit: descending partition number (R530). -/
def State.capSuspended (s : State) : List Nat → List Nat → List Nat
  | [], off => off
  | p :: ps, off =>
    if s.counted off ≤ capCurrent s.capEff then off
    else s.capSuspended ps (if s.rsvEntries.any (fun e => rsvPtn e.2.1 = p) then off ++ [p] else off)

def State.applyCap (s : State) : State :=
  if s.capEff = 0 then (if s.power.capSusp.isEmpty then s else { s with power := { s.power with capSusp := [] } })
  else
    let t : State := { s with power := { s.power with capSusp := s.capSuspended (numsFrom 0 64).reverse [] } }
    t.power.capSusp.foldl (fun t p => if t.rsvEntries.any (fun e => decide (rsvPtn e.2.1 = p)) then t.flagRsv p else t) t

/-- The cap lets instance n of a class start (R528, R530): a reserved unit and one under ballast start, another while the estimate
with its step fits. -/
def State.capAllows (s : State) (cls n : Nat) : Bool :=
  s.capEff == 0 || (s.rsvUnits s.power.capSusp).contains (cls, n) || (!s.power.capWait && s.power.ballast.contains (cls, s.physical cls n)) ||
  decide (s.counted s.power.capSusp +
    ((s.drawing.filter (fun u => 1 ≤ u.1 ∧ u.1 ≤ 5 ∧ !(s.rsvUnits s.power.capSusp).any (fun r => r.1 = u.1 ∧
      s.physical r.1 r.2 = u.2))).map (fun u => s.stepOf u.1)).sum + s.stepOf cls ≤ capCurrent s.capEff)

/-- Ballast after a command: units that ended their work hold their step, and a unit that works again sheds it (R528). -/
def State.ballastAfter (s0 s : State) : State :=
  let now := s.busyUnits
  let ended := if s.regF .pwrCfg 23 16 = 0 ∨ s.power.capWait then [] else s0.busyUnits.filter (fun u => !now.contains u)
  let b := s.power.ballast.filter (fun u => !now.contains u)
  let b := b ++ ended.eraseDups.filter (fun u => !b.contains u)
  if b = s.power.ballast then s else { s with power := { s.power with ballast := b } }

/-- The domains driven by eng_clk that rest when they have no work (R521, R524). DEDUCED: the memory and RNG domains, some of
which are ever ON, do not hold the clock; log entry 27. -/
def engDomains : List Nat := numsFrom 4 8 ++ numsFrom 39 57

/-- A domain of `engDomains` is ON or WAKING. -/
def State.needsEng (s : State) : Bool := engDomains.any (fun d => s.domState d == 2 || s.domState d == 3)

/-- pm_clk_req after a command: raised while a domain needs the clock (R524, R525). -/
def State.clocksAfter (s : State) : State :=
  let eng := s.needsEng
  let fab := ((numsFrom 12 13).any (fun d => s.domState d == 3)) || !s.port.waiting.isEmpty || !s.reads.isEmpty || !s.writes.isEmpty ||
    !s.reqs.isEmpty || s.lks.any Lk.busy
  if (eng && !s.pins.engReq) || (fab && !s.pins.fabReq) then
    { s with pins := { s.pins with engReq := s.pins.engReq || eng, fabReq := s.pins.fabReq || fab } }
  else s

/-- The cap may have fallen: ballast is shed (R530), and while the draw is over the cap, no domain is woken (R65). -/
def State.capLowered (s : State) : State :=
  if s.capEff ≠ 0 ∧ capCurrent s.capEff < s.estimate then { s with power := { s.power with capWait := true, ballast := [] } } else s

/-- The draw has come under a lowered cap (R65): held wakes go on. -/
def State.capReached (s : State) : State :=
  if s.power.capWait ∧ (s.capEff = 0 ∨ s.estimate ≤ capCurrent s.capEff) then
    State.pumpPm 4 { s with power := { s.power with capWait := false } }
  else s

end Sys2Proof.Machine
end

