-- ==== Sys2Proof/Machine/RngOps.lean ====
section
/-!
DEFINITION. The RNG: health tests, conditioning, the pool, the DRBG instances, start-up, resets and total failure
(R388 to R410).
-/
namespace Sys2Proof.Machine

/-! ### Sources -/

/-- RNG_SRC_STATUS.STATE: 0 OFF, 1 TESTING, 2 HEALTHY, 3 FAILED, 4 RECAL, 5 DISABLED. -/
def State.srcState (s : State) (i : Nat) : Nat := s.regF .rngSrcStatus 2 0 i
def State.setSrcState (s : State) (i v : Nat) : State := s.setF .rngSrcStatus 2 0 v i
def State.healthy (s : State) : List Nat := (numsFrom 0 3).filter (fun i => s.srcState i == 2)
def State.noise (s : State) (i : Nat) : NoiseSrc := s.rng.srcs.getD i { params := ⟨512, 61, 813, 120⟩ }
def State.updNoise (s : State) (i : Nat) (f : NoiseSrc → NoiseSrc) : State :=
  { s with rng := { s.rng with srcs := modAt f i s.rng.srcs } }

/-- The domain of a source, and of the conditioner and DRBG unit. -/
def srcDomain (i : Nat) : Nat := 35 + i
def drbgDomain : Nat := 38

/-- Samples of one conditioned block (R388). -/
def NoiseSrc.need (n : NoiseSrc) : Nat := ceilDiv (320 * 1024) n.params.ent

def ones (w : List Bool) : Nat := (w.filter id).length

/-- Pairs of equal samples at distance k among the first 1,016 of a window, oldest first (R389). -/
def equalPairs (w : List Bool) (k : Nat) : Nat := (((w.take 1016).zip (w.drop k)).filter (fun (a, b) => a == b)).length

/-- The autocorrelation test fails: a count is more than AC_C from 1,016 × (f² + (1 − f)²) (R389). -/
def autoFails (ac : Nat) (w : List Bool) : Bool :=
  let n1 := ones w
  let n0 := 1024 - n1
  let e := 1016 * (n1 * n1 + n0 * n0)
  (numsFrom 1 8).any (fun k =>
    let c := equalPairs w k * 1024 * 1024
    decide (ac * 1024 * 1024 < (c - e) + (e - c)))

/-- The count of the adaptive proportion test: samples of the open window equal to its first (R389). -/
def NoiseSrc.apt (n : NoiseSrc) : Nat := (n.window.filter (· == n.window.getLastD n.bit)).length

/-- A sample joins the open window. -/
def NoiseSrc.sample (n : NoiseSrc) (bit : Bool) : NoiseSrc :=
  { n with window := bit :: n.window, run := if n.run ≠ 0 ∧ n.bit = bit then n.run + 1 else 1, bit := bit }

/-- The test that the open window fails with its latest sample: 1 RCT, 2 APT, 3 AUTOCORR (R389). -/
def NoiseSrc.fails (n : NoiseSrc) : Option Nat :=
  if n.params.rctC ≤ n.run then some 1
  else if n.params.aptC ≤ n.apt then some 2
  else if 1024 ≤ n.window.length ∧ autoFails n.params.acC n.window.reverse then some 3
  else none

/-- The samples of a passed window that are conditioned: those that RNG_RAW has not shown (R390, R411). -/
def NoiseSrc.kept (n : NoiseSrc) : List Bool := ((enumFrom 0 n.window.reverse).filter (fun e => !n.shown.contains e.1)).map (·.2)

/-- A window begins: settings that an applied section gave the source take effect with it, whatever ended the window before (R410, R412). -/
def State.openWindow (s : State) (i : Nat) : State :=
  if !(s.noise i).window.isEmpty then s
  else
    let p := (s.rng.nextParams.getD i none).getD (s.noise i).params
    let s := s.updNoise i (fun n => { n with shown := [], params := p })
    { s with rng := { s.rng with nextParams := modAt (fun _ => none) i s.rng.nextParams } }

/-- RNG_RAW: the latest samples of the open window, 32 at most, oldest in bit 0. DESIGN CHOICE: which samples they are; log entry 15. -/
def State.rawSamples (s : State) (i : Nat) : W32 :=
  BitVec.ofNat 32 ((enumFrom 0 (((s.noise i).window.take 32).reverse)).map (fun e => b2n e.2 * 2 ^ e.1)).sum

/-- A read of RNG_RAW: the samples that it shows are tested, but not conditioned. -/
def State.rawRead (s : State) (i : Nat) : State :=
  s.updNoise i (fun n => { n with shown := n.shown ++ numsFrom (n.window.length - 32) (min 32 n.window.length) })

/-- Zeroizes the pool, every instance, every towpath buffer and RNG_DATA (R405, R407). -/
def State.rngZero (s : State) : State :=
  let s := (numsFrom 0 8).foldl (fun s n => s.setReg .rngData 0 n) s
  let s := s.setB .rngDataStatus 0 false
  { s with rng := { s.rng with pool := [], prev := [], insts := List.replicate 6 {}, tow := [], read := [], rootWaits := false } }

/-- A GET_RANDOM that runs: output that it generated and has not written yet counts (R405, R408). -/
def Req.givesRandom (r : Req) : Bool :=
  r.desc.opIs .getRandom &&
  (r.phase == .running ||
   ((r.phase == .produced || r.phase == .posted) && (r.result.map (fun x => x.status == .ok && decide (r.bas.released < x.out.length))).getD false))

/-- Ends the running GET_RANDOM requests; OUT_LEN gives the bytes that they wrote (R405, R408). -/
def State.endRandom (s : State) (st : Status) : State :=
  (s.reqs.filter Req.givesRandom).foldl (fun s r =>
    s.finishReq r.id { plainResult st r.unit r.inst with outLen := r.bas.released }) s

/-- Requests that wait for the keep secret end as the RNG halts (R559). -/
def State.endKeepWaits (s : State) : State := (s.reqs.filter s.waitsKeep).foldl (fun s r => s.endReq r.id .entropyHalted r.unit) s

/-- Total failure (R406, R407): causes 1 SOURCES, 2 REPEAT, 3 SELF_TEST, 4 START; every one during start-up or an RNG reset is START
(R412). DEDUCED: a failed known-answer test, which comes at no other time, keeps the cause that R406 gives it; log entry 137. -/
def State.rngHalt (s : State) (cause : Nat) : State :=
  if s.rngState = rngHalted then s
  else
    let cause := if s.rngState = rngReady ∨ cause = 3 then cause else 4
    let s := ((s.setF .rngStatus 2 0 rngHalted).setF .rngStatus 15 12 cause).rngZero
    let s := s.setF .rngHalts 15 0 (satAdd 0xFFFF (s.regF .rngHalts 15 0) 1)
    (s.endRandom .entropyHalted).endKeepWaits.event srcRngTotalFail drbgDomain cause

/-- What the states of the sources ask: a halt when fewer than two are HEALTHY, at start-up once none is being tested
(R391, R404, R406). -/
def State.rngCheck (s : State) : State :=
  if 2 ≤ s.healthy.length ∨ s.rngState = rngHalted then s
  else if s.rngState = rngReady then s.rngHalt 1
  else if (numsFrom 0 3).any (fun i => [0, 1, 4].contains (s.srcState i) && s.rng.enable.testBit i) then s
  else s.rngHalt 4

/-- A source fails a test: 1 RCT, 2 APT, 3 AUTOCORR, 4 STARTUP, 5 RECAL (R391). At start-up it is recalibrated once at once
(R404). -/
def State.srcFail (s : State) (i test : Nat) : State :=
  let first := s.srcState i == 1 && !(s.noise i).retried && (s.rngState == rngStarting || s.rngState == rngResetting)
  let test := if s.srcState i = 1 then 4 else test
  let s := s.updNoise i (fun n => { n with window := [], run := 0, acc := [], retest := none, retried := true })
  let s := s.setF .rngSrcStatus 11 8 test i
  let s := s.setF .rngSrcStatus 31 16 (satAdd 0xFFFF (s.regF .rngSrcStatus 31 16 i) 1) i
  let s := (s.setSrcState i 3).event (srcRngA + i) (srcDomain i) test
  if first then s.setSrcState i 4 else s.rngCheck

/-- The open window of a source fails a test. DESIGN CHOICE: one that is FAILED already has not failed again, and one in RECAL has failed
the start-up tests that end its recalibration; log entry 136. -/
def State.testFailed (s : State) (i test : Nat) : State :=
  if s.srcState i = 1 ∨ s.srcState i = 2 then s.srcFail i test
  else s.updNoise i (fun n => { n with window := [], run := 0, retest := some false })

/-! ### CTR_DRBG instances (R394 to R396) -/

/-- The personalization string of instance k (R394). -/
def State.person (s : State) (k : Nat) : Bytes := s.deviceId ++ [BitVec.ofNat 8 k]

def drbgSeed (entropy person : Bytes) : Bytes := fit 48 (Config.std .drbg [[0], entropy, person])
def drbgOut (st add : Bytes) (n : Nat) : Bytes := fit n (Config.std .drbg [[1], st, add, toLe 4 n])
def drbgNext (st add : Bytes) (n : Nat) : Bytes := fit 48 (Config.std .drbg [[2], st, add, toLe 4 n])
def drbgReseed (st entropy add : Bytes) : Bytes := fit 48 (Config.std .drbg [[3], st, entropy, add])

def State.drbgAt (s : State) (k : Nat) : Drbg := s.rng.insts.getD k {}
def State.updDrbg (s : State) (k : Nat) (f : Drbg → Drbg) : State :=
  { s with rng := { s.rng with insts := modAt f k s.rng.insts } }

/-- A whole 128-bit block equals the one before (R396). -/
def repeats : Nat → Bytes → Bytes → Bool
  | 0, _, _ => false
  | n + 1, last, b => if b.length < 16 then false else b.take 16 == last || repeats n (b.take 16) (b.drop 16)

/-- The last whole block of an output. -/
def lastBlock (old b : Bytes) : Bytes := if b.length < 16 then old else slice b ((b.length / 16 - 1) * 16) 16

/-- CALLS_LOG2 and RESEED_MS of RNG_CFG, taken into range. -/
def State.callsLog2 (s : State) : Nat := clampN 10 20 (s.regF .rngCfg 23 16)
def State.reseedMs (s : State) : Nat := clampN 1 1000 (s.regF .rngCfg 15 0)

/-- The settings that an instance takes at its seeding (R410). -/
def State.seeded (s : State) (k : Nat) (st : Bytes) : State :=
  let s : State := { s with rng := { s.rng with rootWaits := s.rng.rootWaits && k != 0 } }
  s.updDrbg k (fun d => { d with seeded := true, st := st, calls := 0, callsLog2 := s.callsLog2, reseedMs := s.reseedMs })

/-- Takes the first two combined blocks: 384 bits of them are a seed (R394). -/
def State.takePool (s : State) : State × Bytes :=
  ({ s with rng := { s.rng with pool := s.rng.pool.drop 2 } }, (s.rng.pool.take 2).flatten.take 48)

/-- ENABLE of an applied RNG_PARAMS section (R410): a source that it clears goes to DISABLED and its domain off; a source
that it sets again is woken. -/
def State.enableSources (s : State) (en : Nat) : State :=
  let s : State := { s with rng := { s.rng with enable := en } }
  let s := (numsFrom 0 3).foldl (fun s i =>
    if !en.testBit i then
      (if s.srcState i = 5 then s
       else ((s.updNoise i (fun n => { n with window := [], run := 0, acc := [], blocks := [] })).setSrcState i 5).askDom (srcDomain i) 0)
    else if s.srcState i = 5 then (s.setSrcState i 0).wake (srcDomain i)
    else s) s
  s.rngCheck

/-- An RNG_PARAMS section applies at the next reseed of any instance (R99, R410). -/
def State.applyRngParams (s : State) : State :=
  match s.rng.waiting with
  | none => s
  | some b =>
    let p (i : Nat) : Option SrcParams :=
      some { ent := le16 b (0x10 + 8 * i), rctC := le16 b (0x12 + 8 * i), aptC := le16 b (0x14 + 8 * i), acC := le16 b (0x16 + 8 * i) }
    let s := (s.setF .rngCfg 23 16 (byteAt b 4)).setF .rngCfg 15 0 (le16 b 6)
    let s : State := { s with rng := { s.rng with waiting := none, nextParams := [p 0, p 1, p 2] } }
    s.enableSources (byteAt b 2)

/-- One generate call of instance k as it stands; a repeated block is a total failure (R396). -/
def State.generateOnce (s : State) (k : Nat) (add : Bytes) (n : Nat) : State × Bytes :=
  let d := s.drbgAt k
  let out := drbgOut d.st add n
  let s := s.updDrbg k (fun d => { d with st := drbgNext d.st add n, calls := d.calls + 1, last := lastBlock d.last out })
  if repeats (n / 16 + 1) d.last out then (s.rngHalt 2, []) else (s, out)

/-- ROOT reseeds from the pool, or waits for two blocks of it (R395). -/
def State.reseedRoot (s : State) : State :=
  if s.rng.pool.length < 2 then { s with rng := { s.rng with rootWaits := true } }
  else
    let (s, e) := s.takePool
    (s.seeded 0 (drbgReseed (s.drbgAt 0).st e [])).applyRngParams

/-- Instance k has made all the calls that one seeding allows (R395). -/
def State.callsSpent (s : State) (k : Nat) : Bool := decide (s.rngState = rngReady) && decide (2 ^ (s.drbgAt k).callsLog2 ≤ (s.drbgAt k).calls)

/-- A call of ROOT, which reseeds first when its calls are spent. -/
def State.callRoot (s : State) (n : Nat) : State × Bytes :=
  (if s.callsSpent 0 then s.reseedRoot else s).generateOnce 0 [] n

/-- A child reseeds from ROOT. -/
def State.reseedChild (s : State) (k : Nat) : State :=
  let (s, e) := s.callRoot 48
  if s.rngState ≠ rngReady then s
  else (s.seeded k (drbgReseed (s.drbgAt k).st e [])).applyRngParams

/-- A generate call of child k, which reseeds first when its calls are spent (R395). -/
def State.generate (s : State) (k : Nat) (add : Bytes) (n : Nat) : State × Bytes :=
  (if s.callsSpent k then s.reseedChild k else s).generateOnce k add n

/-- ROOT's claim on the pool comes before every other (R395). -/
def State.rootClaim (s : State) : State := if s.rng.rootWaits ∧ s.rngState = rngReady ∧ 2 ≤ s.rng.pool.length then s.reseedRoot else s

/-! ### Conditioning and the pool (R393, R396) -/

/-- Conditioned blocks from the samples that wait; at most three blocks wait at a source. -/
def NoiseSrc.condition : Nat → NoiseSrc → NoiseSrc
  | 0, n => n
  | k + 1, n =>
    if n.acc.length < n.need then n
    else if 3 ≤ n.blocks.length then { n with acc := [] }
    else
      let b := fit 32 (Config.std .condition [(n.acc.take n.need).map (fun b => BitVec.ofNat 8 (b2n b))])
      NoiseSrc.condition k { n with acc := n.acc.drop n.need, blocks := n.blocks ++ [b] }

/-- Combines one conditioned block of each HEALTHY source, in the order A, B, C, while each has one and the pool has room;
at start-up once no source is being tested. A block equal to the one before is a total failure. -/
def State.combine : Nat → State → State
  | 0, s => s
  | k + 1, s =>
    let hs := s.healthy
    let testing := s.rngState != rngReady && (numsFrom 0 3).any (fun i => [0, 1, 4].contains (s.srcState i) && s.rng.enable.testBit i)
    if s.rngState = rngHalted ∨ testing ∨ hs.length < 2 ∨ 16 ≤ s.rng.pool.length ∨ hs.any (fun i => (s.noise i).blocks.isEmpty) then s
    else
      let b := sha3 (hs.flatMap (fun i => (s.noise i).blocks.headD []))
      let s := hs.foldl (fun s i => s.updNoise i (fun n => { n with blocks := n.blocks.drop 1 })) s
      if b = s.rng.prev then s.rngHalt 2
      else State.combine k { s with rng := { s.rng with pool := s.rng.pool ++ [b], prev := b } }

/-- A whole window has passed the tests (R390): at start-up the source is HEALTHY; later its samples are conditioned. -/
def State.windowPassed (s : State) (i : Nat) : State :=
  match s.srcState i with
  | 1 => (State.combine 16 ((s.updNoise i (fun n => { n with window := [] })).setSrcState i 2)).rootClaim
  | 2 => (State.combine 16 (s.updNoise i (fun n => NoiseSrc.condition 8 { n with acc := n.acc ++ n.kept, window := [] }))).rootClaim
  | _ => s.updNoise i (fun n => { n with window := [], retest := some true })

/-- RNG_SAMPLE: one raw sample of source i, tested whatever the source's state (R389 to R391). A source that is OFF warms up, and one that
is DISABLED is off. -/
def State.rngSample (s : State) (i : Nat) (bit : Bool) : State :=
  if s.srcState i = 0 ∨ s.srcState i = 5 then s
  else
    let s := s.openWindow i
    let n := (s.noise i).sample bit
    let s := s.updNoise i (fun x => { x with window := n.window, run := n.run, bit := n.bit })
    let s := s.setF .rngSrcPeak 15 0 (max (s.regF .rngSrcPeak 15 0 i) (min n.run 0xFFFF)) i
    let s := s.setF .rngSrcPeak 31 16 (max (s.regF .rngSrcPeak 31 16 i) n.apt) i
    match n.fails with
    | some t => s.testFailed i t
    | none => if n.window.length < 1024 then s else s.windowPassed i

/-! ### Towpath streams (R395, R397, R398) -/

/-- The buffer of a unit, by class and physical instance. -/
def towKey (cls phys : Nat) : Nat := 64 * cls + phys

/-- The instance whose stream serves a class: SYM, PLY, BNE, or KEY for the others (R394, R397). -/
def towInstance (cls : Nat) : Nat := if cls = 1 then 1 else if cls = 3 then 2 else if cls = 5 then 3 else 4

/-- `n` bytes of the stream of instance k, which makes one generate call for every 4,096 bytes; fewer once the RNG has halted. -/
def State.stream (s : State) (k : Nat) : Nat → Nat → State × Bytes
  | 0, _ => (s, [])
  | f + 1, n =>
    let out := (s.drbgAt k).out
    let s := s.updDrbg k (fun d => { d with out := d.out.drop n })
    if n ≤ out.length ∨ s.rngState ≠ rngReady then (s, out.take n)
    else
      let (s, g) := s.generate k [] 4096
      let (s, more) := (s.updDrbg k (fun d => { d with out := g })).stream k f (n - out.length)
      (s, out ++ more)

/-- Fills the buffer of a unit from its stream. -/
def State.fillTow (s : State) (cls phys : Nat) : State :=
  let b := getKey [] s.rng.tow (towKey cls phys)
  if 256 ≤ b.length ∨ s.rngState ≠ rngReady then s
  else
    let (s, c) := s.stream (towInstance cls) 2 (256 - b.length)
    if s.rngState ≠ rngReady then s
    else { s with rng := { s.rng with tow := setKey [] s.rng.tow (towKey cls phys) (b ++ c) } }

/-- A unit draws `n` bytes: from its buffer, which its stream fills again, and beyond it from the stream itself. -/
def State.draw (s : State) (cls phys n : Nat) : State × Bytes :=
  let s := s.fillTow cls phys
  let b := getKey [] s.rng.tow (towKey cls phys)
  let s : State := { s with rng := { s.rng with tow := setKey [] s.rng.tow (towKey cls phys) (b.drop n) } }
  let (s, c) := s.stream (towInstance cls) (n / 4096 + 2) (n - b.length)
  (s.fillTow cls phys, b.take n ++ c)

/-- The towpath buffers in a domain. -/
def domBuffers (d : Nat) : List (Nat × Nat) :=
  if 33 ≤ d ∧ d < 35 then [(8, d - 33)]
  else
    match domUnits d with
    | some (cls, ns) => if 1 ≤ cls ∧ cls ≤ 5 ∧ d < 88 then ns.map (fun n => (cls, n)) else []
    | none => []

/-- Streams fill the buffers of a domain that is on. -/
def State.fillDomain (s : State) (d : Nat) : State :=
  if s.domState d = 2 then (domBuffers d).foldl (fun s b => s.fillTow b.1 b.2) s else s

/-- The buffers of a domain that is switched off are lost (R520). -/
def State.dropBuffers (s : State) (d : Nat) : State :=
  { s with rng := { s.rng with tow := (domBuffers d).foldl (fun t b => dropKey (towKey b.1 b.2) t) s.rng.tow } }

/-- DRBG_RESEED: instance k reaches its call count or its time; ROOT from the pool, a child from ROOT (R395). -/
def State.drbgReseedCmd (s : State) (k : Nat) : State :=
  if s.rngState ≠ rngReady ∨ 6 ≤ k then s else if k = 0 then s.reseedRoot else s.reseedChild k

/-- Seeds the children from ROOT. -/
def State.seedChildren (s : State) : List Nat → State
  | [] => s
  | k :: ks =>
    let (s, e) := s.callRoot 48
    (s.seeded k (drbgSeed e (s.person k))).seedChildren ks

/-- RNG_READY: ROOT is instantiated, the children are seeded, and the streams fill the towpath buffers (R394, R397, R403). -/
def State.rngBecomesReady (s : State) : State :=
  if (s.rngState = rngStarting ∨ s.rngState = rngResetting) ∧ 2 ≤ s.healthy.length ∧ 2 ≤ s.rng.pool.length then
    let (s, e) := s.takePool
    let s := (s.seeded 0 (drbgSeed e (s.person 0))).seedChildren [1, 2, 3, 4, 5]
    if s.rngState = rngHalted then s
    else (numsFrom 0 96).foldl State.fillDomain (((s.setF .rngStatus 2 0 rngReady).setF .rngStatus 15 12 0).setB .mgtStatus 13 true)
  else s

/-! ### Start-up, reset and recalibration (R392, R403 to R405) -/

/-- The domain of a source is on: its start-up tests begin (R403). -/
def State.srcStart (s : State) (i : Nat) : State :=
  if s.rng.enable.testBit i then
    (s.updNoise i (fun n => { n with window := [], run := 0, acc := [], blocks := [], retest := none, retried := false })).setSrcState i 1
  else s.setSrcState i 5

/-- The known-answer tests of SHA3-256 and AES-256: a failed one is a total failure (R396, R403). Whether one fails is a free value. -/
def State.rngKat (s : State) : State := if Config.holds .healthOk [toLe 8 s.free, toLe 2 7, toLe 2 0] then s.drawn else s.drawn.rngHalt 3

/-- R405 from step 1. Sources that were OFF are woken; the others test again, and those not HEALTHY are recalibrated.
The known-answer tests run again, or as the domain of the conditioner wakes. -/
def State.rngRestart (s : State) : State :=
  let s := ((s.rngZero.setF .rngStatus 2 0 rngResetting).setF .rngStatus 15 12 0).setB .mgtStatus 13 false
  let s := s.endRandom .entropyNotReady
  let s := (numsFrom 0 3).foldl (fun s i =>
    match s.srcState i with
    | 0 => s.wake (srcDomain i)
    | 2 => s.srcStart i
    | 5 => s
    | _ => (s.srcStart i).setSrcState i 4) s
  if s.domOn drbgDomain then s.rngKat else s.wake drbgDomain

/-- A write of 1 to RNG_CTRL.RESET (R405). -/
def State.rngReset (s : State) : State :=
  if s.rngState = rngReady ∨ s.rngState = rngHalted then
    (s.setF .rngHalts 31 16 (satAdd 0xFFFF (s.regF .rngHalts 31 16) 1)).rngRestart
  else s.setB .rngCtrl 1 true

/-- A write of 1 to RNG_SRC_CTRL.RECAL (R392). -/
def State.rngRecal (s : State) (i : Nat) : State :=
  let st := s.srcState i
  if (st = 2 ∧ s.healthy.length = 2) ∨ st = 5 ∨ s.rngState = rngStarting ∨ s.rngState = rngResetting then s.setB .rngCtrl 1 true
  else if st = 0 then s
  else ((s.updNoise i (fun n => { n with window := [], run := 0, acc := [], blocks := [], retest := none })).setSrcState i 4).rngCheck

/-- RNG_RECAL_DONE: recalibration and its start-up tests end: `good` says that the source could be trimmed, and the samples that it gave
decide the rest; before 1,024 of them nothing ends (R392). -/
def State.rngRecalDone (s : State) (i : Nat) (good : Bool) : State :=
  if s.srcState i ≠ 4 then s
  else if !good then s.srcFail i 5
  else
    match (s.noise i).retest with
    | none => s
    | some false => s.srcFail i 4
    | some true =>
      (State.combine 16 ((s.setSrcState i 2).updNoise i (fun n => { n with window := [], run := 0, retest := none, retried := true }))).rootClaim

/-- A refill of RNG_DATA from the SW instance (R402). -/
def State.rngRefill (s : State) : State :=
  if s.rngState ≠ rngReady ∨ s.regB .rngDataStatus 0 then s
  else
    let (s, b) := s.generate 5 [] 32
    if s.rngState ≠ rngReady then s
    else
      let s := (numsFrom 0 8).foldl (fun s n => s.setReg .rngData (BitVec.ofNat 32 (le32 b (4 * n))) n) s
      { s.setB .rngDataStatus 0 true with rng := { s.rng with read := [] } }

/-- A read of RNG_DATA word n (R402): the word, and the machine after it. -/
def State.rngDataRead (s : State) (n : Nat) : State × W32 :=
  if !s.regB .rngDataStatus 0 ∨ s.rng.read.contains n then (s.setB .rngDataStatus 1 true, 0)
  else
    let v := s.reg .rngData n
    let read := n :: s.rng.read
    let s : State := { s.setReg .rngData 0 n with rng := { s.rng with read := read } }
    (if 8 ≤ read.length then s.setB .rngDataStatus 0 false else s, v)

end Sys2Proof.Machine
end

