-- ==== Sys2Proof/Machine/DmaPort.lean ====
section
/-!
DEFINITION. Responses on the DMA master port: returned read beats, write completions, timeouts and the loss of a DMA
engine (R36 to R41, R95, R135, R139, R140, R229, R382, R497, R509).
-/
namespace Sys2Proof.Machine

/-! ### Fetches of the block itself: a staged image, an unlock record, a curve entry -/

/-- Ends the running unlock attempt as a failed try: 1 BAD_SIG, 2 NO_KEY, 4 FETCH_FAULT; the challenge is used up
(R496, R498). -/
def State.unlockFail (s : State) (result : Nat) : State :=
  let s := (s.setF .tmpUnlockCtrl 23 16 result).setB .tmpUnlockCtrl 31 false
  let s := s.setF .tmpUnlockCtrl 26 24 (min 5 (s.regF .tmpUnlockCtrl 26 24 + 1))
  let s := (numsFrom 0 8).foldl (fun s n => s.setReg .tmpUnlockChal 0 n) s
  { s with
    tamper := { s.tamper with record := [] }
    reads := s.reads.map (fun x => if x.purpose = .unlock then { x with discard := true } else x) }

/-- Cells of the staging queue that stand under the credits of a read that is outstanding (R229). -/
def State.stageAwaited (s : State) : Nat :=
  match s.reads.find? (fun x => x.purpose = .stage && !x.discard && !x.dead) with
  | some x => ceilDiv (s.boot.stage.length + (x.len - x.got)) 128 - s.boot.stage.length / 128
  | none => 0

/-- Zeroizes the staged image and returns its cells (R97); those that a read still fills return with its last beat or its timeout (R229).
DESIGN CHOICE: an apply that runs goes on with its own copy of its section; log entry 119. -/
def State.dropStage (s : State) : State :=
  let cells := s.boot.stageCells
  let keep := cells.length - s.stageAwaited
  let s := s.returnCells (cells.take keep)
  { s with
    boot := { s.boot with stage := [], stageCells := [], stageBad := [], stageUnits := [] }
    reads := s.reads.map (fun x =>
      if x.purpose = .stage && !x.discard then { x with discard := true, held := if x.dead then x.held else cells.drop keep } else x) }

/-- The working table of a log compaction is lost: its cells return to the pool, and the compaction begins again (R229, R231, R302). -/
def State.dropTable (s : State) : State :=
  match s.hbs.compact with
  | some c => { s.returnCells c.cells with hbs := { s.hbs with compact := some {} } }
  | none => s

/-- Empties a queue. The staging queue 0x7E0 gives up its image, and the compaction table of 0x7E1 begins again. DESIGN CHOICE; log
entry 96. -/
def State.flushQueue (s : State) (q : Nat) : State :=
  if q = 0x7E0 then s.dropStage.setReg .mgtStageStatus 0
  else if q = 0x7E1 then s.dropTable
  else
    match s.laneReq (q / 2) with
    | none => s
    | some r => s.flushLane r

/-- Staging fails with a cause (R81, R96). -/
def State.stageFail (s : State) (cause : Nat) : State :=
  (s.dropStage.setF .mgtStageStatus 3 0 4).setF .mgtStageStatus 15 8 cause

/-- The words of the staged image are read: those with one bad symbol are corrected, one with more fails staging with MEMORY_ERROR (R234,
R238). -/
def State.stageRead (s : State) : State :=
  if s.boot.stageBad.isEmpty then s
  else
    let t := (s.boot.stageBad.filter (fun e => !e.2)).foldl (fun t e => t.wordCorrected (s.boot.stageCells.getD (e.1 / 8) 0)) s
    if s.boot.stageBad.any (·.2) then t.stageFail 0x10 else { t with boot := { t.boot with stageBad := [] } }

/-- The links of the staging queue are read; an uncorrectable one fails staging (R236, R238). -/
def State.stageLinks (s : State) : State :=
  match lookupKey 0x7E0 s.basin.badLinks with
  | none => s
  | some false => s.fixLinks 0x7E0 (s.boot.stageCells.headD 0)
  | some true =>
    let t := s.loseLinks 0x7E0 s.boot.stageCells
    ({ t with boot := { t.boot with stageCells := [] } } : State).stageFail 0x10

/-- Occupancy of the staging queue in cells. -/
def State.stageOcc (s : State) : Nat :=
  if s.regF .mgtStageLen 17 0 ≤ s.boot.stage.length then s.boot.stageCells.length else s.boot.stage.length / 128

/-- A fault on a fetch of the block's own. -/
def State.ownFetchFault (s : State) : ReadFor → State
  | .stage => s.stageFail 0x13
  | .unlock => s.unlockFail 4
  | .curve =>
    { (s.setB .crvCtrl 29 true).setB .crvCtrl 31 false with curves := { s.curves with fetch := none } }
  | _ => s

/-- A poisoned beat of a fetch of the block's own: a staged image fails with MEMORY_ERROR (R234, R238), an unlock record as a
record of no valid form does (R498), a curve entry as a fault does. -/
def State.ownFetchPoison (s : State) : ReadFor → State
  | .stage => s.stageFail 0x10
  | .unlock => s.unlockFail 1
  | f => s.ownFetchFault f

/-- The next burst of a fetch of `len` bytes at `a` with `have_` bytes there. -/
def State.pumpOwn (s : State) (f : ReadFor) (a len have_ : Nat) : State :=
  if len ≤ have_ ∨ s.reads.any (fun x => x.purpose = f && !x.discard && !x.dead) then s
  else (s.issueRead f 0 (a + have_) (burstLen (a + have_) (len - have_))).getD s

def State.stageAddr (s : State) : Nat := (s.reg .mgtStageAddrLo).toNat + 2 ^ 32 * (s.reg .mgtStageAddrHi).toNat
def State.unlockAddr (s : State) : Nat := (s.reg .tmpUnlockAddrLo).toNat + 2 ^ 32 * (s.reg .tmpUnlockAddrHi).toNat
def State.curveAddr (s : State) : Nat := (s.reg .crvLoadAddrLo).toNat + 2 ^ 32 * (s.reg .crvLoadAddrHi).toNat

/-- A request works on entry i of the curve table. -/
def Req.usesCurve (r : Req) (i : Nat) : Bool :=
  r.phase != .fetched && !r.completed && r.verdict.isNone && decide (r.desc.unit = some .bne) && decide (r.desc.algN = 0x40 + i)

/-- Asks for a change of entry i: it waits for the requests that use the entry now (R99, R382). -/
def State.changeCurve (s : State) (i : Nat) (c : CurveChange) : State :=
  { s with curves := { s.curves with
      jobs := s.curves.jobs ++ [{ index := i, change := c, users := (s.reqs.filter (fun r => r.usesCurve i)).map (·.id) }] } }

/-- The staged image takes its cells from the pool, then is read (R95). DESIGN CHOICE: the address and the length are read as they stand
when a burst is issued, and bits [5:0] of the address are not checked; log entry 88. -/
def State.pumpStage (s : State) : State :=
  if s.regF .mgtStageStatus 3 0 ≠ 1 then s
  else
    let len := s.regF .mgtStageLen 17 0
    let s : State := if s.boot.stageCells.isEmpty ∧ s.canGrant 0 (ceilDiv len 128) then
        (match s.takeCells (ceilDiv len 128) s.basin.free s.basin.next with
        | some (b, free, next) =>
          { s with basin := { s.basin with free := free, next := next }, boot := { s.boot with stageCells := b } }
        | none => s)
      else s
    if s.boot.stageCells.isEmpty then s else s.pumpOwn .stage s.stageAddr len s.boot.stage.length

def State.pumpUnlock (s : State) : State :=
  if s.regB .tmpUnlockCtrl 31 then s.pumpOwn .unlock s.unlockAddr (s.regF .tmpUnlockLen 13 0) s.tamper.record.length else s

def State.pumpCurve (s : State) : State :=
  match s.curves.fetch with
  | some (_, b) => s.pumpOwn .curve s.curveAddr 424 b.length
  | none => s

/-- Bytes of a fetch of the block's own arrive; a whole image goes to verification. -/
def State.ownFetchData (s : State) (f : ReadFor) (b : Bytes) : State :=
  match f with
  | .stage =>
    let occ := s.stageOcc
    let s : State := { s with boot := { s.boot with stage := s.boot.stage ++ b } }
    let s := (s.watermark 0x7E0 occ s.stageOcc).stageLinks
    if s.regF .mgtStageStatus 3 0 ≠ 1 then s
    else if s.regF .mgtStageLen 17 0 ≤ s.boot.stage.length then s.setF .mgtStageStatus 3 0 2 else s.pumpStage
  | .unlock => ({ s with tamper := { s.tamper with record := s.tamper.record ++ b } } : State).pumpUnlock
  | .curve =>
    match s.curves.fetch with
    | none => s
    | some (i, c) =>
      if 424 ≤ c.length + b.length then
        (({ s with curves := { s.curves with fetch := none } } : State).changeCurve i (.load (c ++ b))).setB .crvCtrl 31 false
      else ({ s with curves := { s.curves with fetch := some (i, c ++ b) } } : State).pumpCurve
  | _ => s

/-! ### Descriptor fetches -/

/-- A descriptor fetch of Lockkeeper n faults: the ring is in FAULT, and what has been fetched goes on (R139). DESIGN CHOICE: the
last fetched member of a tow cut short ends with BAD_DESCRIPTOR at once; log entry 121. -/
def State.fetchFault (s : State) (n : Nat) : State :=
  match (s.lk n).fetch with
  | none => s
  | some f =>
    let s := if s.sqState f.ptn f.ring = 1 then (s.setSqState f.ptn f.ring 4).ringEvent f.ptn f.ring else s
    let s := s.event srcSqFetchFault 0 f.ring
    (s.updLk n (fun l => { l with
      fetch := if f.got.isEmpty then none else some { f with reading := false, waitsTail := false, ended := true } })).checkDrained n

/-- A descriptor of a stopping ring has been fetched for its flush, or cannot be (R137 step 5, R139). -/
def State.flushArrives (s : State) (p n : Nat) (b : Option Bytes) : State :=
  match b with
  | none => ({ s.event srcSqFetchFault 0 n with flushEnded := s.flushEnded ++ [(p, n)] } : State).checkStopped p n
  | some b =>
    let i := s.sqNext p n
    let id := s.nextReq
    let d := Desc.ofBytes b
    let run := getKey 0 s.chainRun (16 * p + n)
    let s := (s.sqFetched p n).newReq
      { id := id, ptn := p, ring := n, index := i, desc := d, inTow := decide (0 < run) || d.chain,
        place := if s.sqInPlace p n then .inPlace else .ringSlot }
    ({ s with chainRun := setKey 0 s.chainRun (16 * p + n) (openRun run d) } : State).appendEntry id (plainResult .flushed .completion 0)

/-- Fetches that wait for a read tag, or that a moved tail lets go on. -/
def State.resumeReads (s : State) : State :=
  (numsFrom 0 8).foldl (fun s n =>
    match (s.lk n).fetch with
    | some f => if !f.reading && !f.waitsTail && !f.ended && !f.complete && decide (s.sqState f.ptn f.ring = 1) then
        s.readDescriptor n f.ptn f.ring else s
    | none => s) s

/-- What waits for a tag of the port goes on. -/
def State.pumpPort (s : State) : State :=
  let s := (((s.resumeReads.pumpAll).pumpStage).pumpUnlock).pumpCurve
  (s.retryWrites s.retries).settleAll

/-! ### Reads (R36, R40, R41) -/

/-- The part of a 64-byte beat that a burst asked for (R36). -/
def ReadXfer.useful (x : ReadXfer) (beat : Bytes) : Bytes :=
  let pos := x.addr + x.got
  slice (fit 64 beat) (pos % 64) (min (64 - pos % 64) (x.len - x.got))

/-- What a faulted read does to what it was for: DMA_FAULT, or its own rule (R40, R139). -/
def State.readFault (s : State) (x : ReadXfer) : State :=
  if x.discard then s
  else
    match x.purpose with
    | .fetch n => s.fetchFault n
    | .input id => s.faultReq id 1
    | .flush p n => s.flushArrives p n none
    | f => s.ownFetchFault f

/-- What a beat brings. DESIGN CHOICE: a poisoned beat of a descriptor flushed unfetched gives its REQ_TAG as it came; log entry 93. -/
def State.readData (s : State) (x : ReadXfer) (b : Bytes) (poison : Bool) : State :=
  if x.discard then s
  else
    match x.purpose with
    | .fetch n => s.fetchArrives n b poison
    | .input id => (if poison then s.poisonReq id else s).inputArrives id b
    | .flush p n => s.flushArrives p n (some b)
    | f => if poison then s.ownFetchPoison f else s.ownFetchData f b

/-- A burst has ended: its tag is free, and the credits of a discarded one return (R229). -/
def State.endRead (s : State) (x : ReadXfer) : State :=
  ({ s with reads := s.reads.filter (fun y => y.tag ≠ x.tag) } : State).returnCells
    ((s.reads.find? (fun y => y.tag = x.tag)).map (·.held) |>.getD [])

/-- DMA_READ_RETURN: one beat of the burst with a tag, or its error response. DESIGN CHOICE: an error response ends its burst; log
entry 86. -/
def State.dmaRead (s : State) (tag : Nat) (beat : Bytes) (err poison : Bool) : State :=
  match s.reads.find? (fun x => x.tag = tag) with
  | none => s
  | some x =>
    let b := x.useful beat
    let got := x.got + b.length
    let done := err || decide (x.len ≤ got)
    if x.dead then (if done then s.endRead x else { s with reads := s.reads.map (fun y => if y.tag = tag then { y with got := got } else y) })
    else
      let s := if err then s.event srcDmaFabric (s.unitDomain 6 x.engine) x.engine else s
      let s := if poison then s.event srcDmaPoison (s.unitDomain 6 x.engine) x.engine else s
      let s := if done then s.endRead x
        else { s with reads := s.reads.map (fun y => if y.tag = tag then { y with got := got } else y) }
      let s := if err then s.readFault x else s.readData x b poison
      s

/-! ### Writes -/

/-- A write has its response: vectors no longer wait for it, or wait for its retry. -/
def State.irqWrote (s : State) (old : Nat) (new : Option Nat) : State :=
  { s with irqs := s.irqs.map (fun m =>
      if m.after.contains old then { m with after := m.after.filter (· ≠ old) ++ new.toList } else m) }

/-- A write completed OK (R22, R227, R135, R140). -/
def State.writeDone (s : State) (w : WriteXfer) : State :=
  match w.purpose with
  | .output id => (s.updReq id (fun r => { r with bas := { r.bas with acked := r.bas.acked + w.data.length } })).settle id
  | .scrub id => s.settle id
  | .entry p r c i _ => (s.entryAccepted p r c i).irqWrote (retryKey p c i) none
  | .inPlaceBody id => s.updReq id (fun r => { r with inPlaceStage := 2 })
  | .inPlaceStatus id =>
    match s.findReq id with
    | none => s
    | some r =>
      let s : State := { (s.irqWrote (inPlaceKey id) none).updReq id (fun r => { r with inPlaceStage := 4 }) with inPlaceDone := s.inPlaceDone ++ [(r.ptn, r.ring, r.index)] }
      (((s.entryWritten id).inPlaceHead r.ptn r.ring (s.sqSize r.ptn r.ring))).checkStopped r.ptn r.ring

/-- A write faulted. An in-place completion is written again. -/
def State.writeFault (s : State) (w : WriteXfer) : State :=
  match w.purpose with
  | .output id => s.faultReq id 2
  | .scrub id => s.faultReq id 2
  | .entry p r c i held => s.entryFault p r c i held w.data
  | .inPlaceBody id => s.updReq id (fun r => { r with inPlaceStage := 0 })
  | .inPlaceStatus id => s.updReq id (fun r => { r with inPlaceStage := 5 })

def WriteFor.retry : WriteFor → Option Nat
  | .entry p _ c i _ => some (retryKey p c i)
  | .inPlaceStatus id => some (inPlaceKey id)
  | _ => none

/-- DMA_WRITE_COMPLETION. -/
def State.dmaWrote (s : State) (tag : Nat) (err : Bool) : State :=
  match s.writes.find? (fun w => w.tag = tag) with
  | none => s
  | some w =>
    let s : State := { s with writes := s.writes.filter (fun y => y.tag ≠ tag) }
    if w.dead then s
    else if err then ((s.irqWrote tag w.purpose.retry).event srcDmaFabric (s.unitDomain 6 w.engine) w.engine).writeFault w
    else (s.irqWrote tag none).writeDone w

/-! ### Timeouts, and an engine that leaves service -/

/-- A read without a response: its tag stays taken and a late response is discarded (R41). -/
def State.readDead (s : State) (x : ReadXfer) : State :=
  let held := x.held
  (({ s with reads := s.reads.map (fun y => if y.tag = x.tag then { y with dead := true, held := [] } else y) } : State).returnCells
    held).readFault x

def State.writeDead (s : State) (w : WriteXfer) : State :=
  (({ s with writes := s.writes.map (fun y => if y.tag = w.tag then { y with dead := true } else y) } : State).irqWrote w.tag
    w.purpose.retry).writeFault w

/-- DMA_TIMEOUT (R41). -/
def State.dmaTimeout (s : State) (write : Bool) (tag : Nat) : State :=
  if write then
    match s.writes.find? (fun w => w.tag = tag && !w.dead) with
    | none => s
    | some w => (s.event srcDmaTimeout (s.unitDomain 6 w.engine) w.engine).writeDead w
  else
    match s.reads.find? (fun x => x.tag = tag && !x.dead) with
    | none => s
    | some x => (s.event srcDmaTimeout (s.unitDomain 6 x.engine) x.engine).readDead x

/-- A DMA engine is contained: the requests of its transactions complete with DMA_FAULT (R509). -/
def State.dmaLost (s : State) (e : Nat) : State :=
  let s := (s.reads.filter (fun x => x.engine = e && !x.dead)).foldl State.readDead s
  (s.writes.filter (fun w => w.engine = e && !w.dead)).foldl State.writeDead s

end Sys2Proof.Machine
end

