-- ==== Sys2Proof/Machine/LkManage.lean ====
section
/-!
DEFINITION. Lockkeeper management: restart, drain, clone, load, the heartbeat and the memory scrubber (R184, R208 to R215).
-/
namespace Sys2Proof.Machine

/-- The data memory of a Lockkeeper from its emulation region alone (R184). -/
def emulationOnly (d : SMap W16) : SMap W16 := d.filter (fun e => e.1 ≥ 0x1C00)

/-- What a Lockkeeper does at release from reset, and at a restart (R184). -/
def Lk.released (l : Lk) : Lk :=
  { l with
    state := .running, cause := 0, data := emulationOnly l.data, bad := l.bad.filter (fun e => e.1 < 0x4000 || (0x5C00 ≤ e.1 && e.1 < 0x9000)),
    ctxs := startCtx 0 0 0 .ready :: List.replicate 7 {}, cur := none, last := 7, go := false, heart := 0, fetch := none,
    after := .nothing, cloneFrom := none, onWake := none }

def State.lkRestart (s : State) (n : Nat) : State := s.updLk n (fun l => l.released.dispatch)

/-- DRAIN (R214): the scheduler grants nothing further, and the contexts finish the frames they hold. -/
def State.lkDrain (s : State) (n : Nat) : State :=
  if (s.lk n).state = .running then (s.updLk n (fun l => { l with state := .draining })).checkDrained n
  else s.lkCtrlErr n

/-- RESTART from DRAINED or HALTED (R214); a Lockkeeper whose domain is not on is woken first (R520). -/
def State.lkRestartCmd (s : State) (n : Nat) : State :=
  if (s.lk n).state ≠ .drained ∧ (s.lk n).state ≠ .halted then s.lkCtrlErr n
  else if s.domOn (lkDomain n) then s.lkRestart n
  else (s.updLk n (fun l => { l with onWake := some none })).wake (lkDomain n)

/-- CLONE to a DRAINED or HALTED Lockkeeper from a RUNNING or DRAINED one (R215). -/
def State.lkClone (s : State) (n src : Nat) : State :=
  if !(((s.lk n).state = .drained ∨ (s.lk n).state = .halted) ∧ ((s.lk src).state = .running ∨ (s.lk src).state = .drained) ∧
      src ≠ n) then s.lkCtrlErr n
  else if s.domOn (lkDomain n) then s.updLk n (fun l => { l with state := .loading, cloneFrom := some src })
  else (s.updLk n (fun l => { l with onWake := some (some src) })).wake (lkDomain n)

/-- The domain of Lockkeeper n is on: what waited for it goes on, after the copy that a wake from OFF asks for, whose
memories the wake has zeroed (R523). -/
def State.lkWoken (s : State) (n : Nat) (off : Bool) : State :=
  let run := (numsFrom 0 8).find? (fun i => i ≠ n ∧ (s.lk i).state = .running)
  let copy (src : Option Nat) : State := s.updLk n (fun l => { l with state := if src.isSome then .loading else l.state, cloneFrom := src })
  match (s.lk n).onWake with
  | some (some src) => (copy (some src)).updLk n (fun l => { l with onWake := none })
  | w => if off then copy run else if w = some none then s.lkRestart n else s

/-- What a clone copies (R215). -/
def Lk.cloned (l src : Lk) : Lk :=
  let copied : Lk := { l with
    cloneFrom := none, prog := src.prog, emuEn := src.emuEn, fwTag := src.fwTag,
    data := l.data.filter (fun e => e.1 < 0x1C00) ++ emulationOnly src.data,
    bad := l.bad.filter (fun e => (0x4000 ≤ e.1 && e.1 < 0x5C00) || 0x6000 ≤ e.1), cause := 0 }
  copied.rest .drained

/-- LK_CLONE_DONE: the copy ends (R215). A restart that waited follows. -/
def State.lkCloneDone (s : State) (n : Nat) : State :=
  let l := s.lk n
  match l.cloneFrom with
  | none => s
  | some src =>
    if l.state ≠ .loading then s
    else
      let s := s.updLk n (fun l => l.cloned (s.lk src))
      if l.onWake = some none then s.lkRestart n else s

/-- LK_DRAIN_LIMIT_EXPIRY: the hardware ends every context of a draining Lockkeeper (R214). -/
def State.lkDrainExpire (s : State) (n : Nat) : State :=
  let l := s.lk n
  if l.state ≠ .draining then s
  else
    let fs := l.unissued
    let s := s.giveUpFetch n (plainResult .resourceBusy .lockkeeper n)
    let s := (s.freeSlots n (fun _ => true)).updLk n (fun l =>
      ({ l with ctxs := List.replicate 8 {}, cur := none }.leave (fun _ => true)).rest .drained)
    ((s.endFrames n .resourceBusy fs).updLk n Lk.releaseFrames).moveReservations 0 n

/-- HEARTBEAT_EXPIRY: the counter, which runs while a context is RUNNING or READY, has reached LK_WDOG.LIMIT (R209). -/
def State.heartExpire (s : State) (n : Nat) : State :=
  let l := (s.lk n).dispatch
  match l.cur with
  | some c => if l.serves then (s.updLk n (fun _ => l)).haltLk n c .heartbeat else s
  | none => s

/-- LK_SCRUB: the scrubber corrects the program and data words it can and reports each (R210). -/
def State.lkScrub (s : State) (n : Nat) : State :=
  let fixed (e : Nat × Bool) : Bool := !e.2 && decide (e.1 < 0x6000)
  let s' := s.updLk n (fun l => { l with bad := l.bad.filter (fun e => !fixed e) })
  ((s.lk n).bad.filter fixed).foldl (fun s _ => s.event srcLkMemCorr (lkDomain n) n) s'

/-- 16-bit words of section data (R211). -/
def wordsOf (b : Bytes) : List W16 := (numsFrom 0 (b.length / 2)).map (fun i => BitVec.ofNat 16 (le16 b (2 * i)))

/-- A table of words from an address up, without those that read as the default. -/
def wordTable (dflt : W16) (a : Nat) (ws : List W16) : SMap W16 := (enumFrom a ws).filter (fun e => e.2 ≠ dflt)

/-- The program memory of section data: the rest is filled with 0xFFFF; and LK_FW_TAG (R211). -/
def Lk.withFirmware (l : Lk) (b : Bytes) : Lk :=
  { l with
    prog := wordTable 0xFFFF 0 (wordsOf b), fwTag := BitVec.ofNat 32 (le32 (sha3 b) 0),
    bad := l.bad.filter (fun e => e.1 ≥ 0x4000) }

/-- The emulation region of section data, and EMU_EN (R212). -/
def Lk.withEmulation (l : Lk) (b : Bytes) : Lk :=
  { l with
    data := l.data.filter (fun e => e.1 < 0x1C00) ++ wordTable 0 0x1C00 (wordsOf b), emuEn := !b.isEmpty,
    bad := l.bad.filter (fun e => e.1 < 0x5C00 || 0x6000 ≤ e.1) }

def Lk.withSection (l : Lk) (emulation : Bool) (b : Bytes) : Lk := if emulation then l.withEmulation b else l.withFirmware b

/-- LK_LOAD: a Lockkeeper at rest that a section waits for loads it and restarts (R99, R214, R216). An LK_EMULATION does
not restart a HALTED one (R208). -/
def State.lkLoad (s : State) (n : Nat) : State :=
  match (s.lk n).after with
  | .load e b =>
    if (s.lk n).state = .halted ∧ e ∧ s.domOn (lkDomain n) then
      s.updLk n (fun l => { l.withSection e b with after := .nothing })
    else if (s.lk n).state = .loading ∧ (s.lk n).cloneFrom = none ∧ s.domOn (lkDomain n) then
      (s.updLk n (fun l => l.withSection e b)).lkRestart n
    else s
  | .nothing => s

end Sys2Proof.Machine
end

