-- ==== Sys2Proof/Machine/TamperActs.lean ====
section
/-!
DEFINITION. What an alarm records in the keep domain, and the actions LOG, IRQ, THROTTLE and FENCE_ENGINES as far as they set
state of the monitors alone (R486, R488, R490).
-/
namespace Sys2Proof.Machine

/-- The state of a source's monitors. -/
def State.tmpSrc (s : State) (src : Nat) : TmpSrc := s.tamper.srcs.getD src {}
def State.updTmpSrc (s : State) (src : Nat) (f : TmpSrc → TmpSrc) : State :=
  { s with tamper := { s.tamper with srcs := modAt f src s.tamper.srcs } }

/-- The flag of a source stands. -/
def State.tmpFlag (s : State) (src : Nat) : Bool := s.regB .tmpStatus src

/-- The cause of a source is present (TMP_SRC_STATUS.CAUSE). -/
def State.tmpCause (s : State) (src : Nat) : Bool := s.regB .tmpSrcStatus 3 src

/-- An alarm of a source: its flag, FIRST when the flag did not stand, and ACTIVE (R486). Sub-seconds are a free value. -/
def State.recordAlarm (s : State) (src set : Nat) : State :=
  let lo : W32 := BitVec.ofNat 32 s.seconds
  let hi : W32 := BitVec.ofNat 32 (s.seconds / 2 ^ 32 % 2 ^ 16 + s.pick % 2 ^ 15 * 2 ^ 16)
  let first := !s.tmpFlag src
  let s := ((s.drawn.setB .tmpStatus src true).setB .tmpSrcStatus 0 true src).setF .tmpSrcStatus 15 8 set src
  let s := if first then (s.setReg .tmpSrcFirstLo lo src).setReg .tmpSrcFirstHi hi src else s
  s.updTmpSrc src (fun x => { x with atLo := lo, atHi := hi })

/-- LOG: ALARMS counts, and LAST is the alarm's time (R488). -/
def State.tmpLog (s : State) (src : Nat) : State :=
  let s := s.setF .tmpSrcStatus 31 16 (satAdd 0xFFFF (s.regF .tmpSrcStatus 31 16 src) 1) src
  (s.setReg .tmpSrcLastLo (s.tmpSrc src).atLo src).setReg .tmpSrcLastHi (s.tmpSrc src).atHi src

/-- IRQ: P0's vector TMP_CFG.VEC fires if IRQ_EN is set (R488). -/
def State.tmpIrq (s : State) : State := if s.regB .tmpCfg 31 then s.fireVec 0 (s.regF .tmpCfg 28 24) else s

/-- THROTTLE (2) or FENCE_ENGINES (3) of a source is in force: while its cause persists, and for FENCE_HOLD after (R488). -/
def State.tmpForce (s : State) (src b : Nat) : State :=
  let now := s.tmpCause src
  let s := s.updTmpSrc src (fun x => { x with inForce := x.inForce ||| 2 ^ b, holding := !now })
  if b = 2 then s.capLowered else s

/-- Sources of the union whose set holds an action. -/
def Tamper.withAction (t : Tamper) (b : Nat) : List Nat := (t.alarms.filter (fun a => a.2.testBit b)).map (·.1)

/-- FENCE_ENGINES of a set, unless the set contains it in ZEROIZE_VOLATILE or LOCK (R490). -/
def fenceLeft (set : Nat) : Nat := if set.testBit 5 || set.testBit 7 then 0 else 8

/-- The union's actions have all been carried out (R490). -/
def State.unionEnds (s : State) : State :=
  { s with tamper := { s.tamper with alarms := [], todo := 0, done := 0, acting := none, throttling := false } }

/-- The actions of the union that remain wait for the end phase of the start-up that follows (R490). -/
def State.deferRest (s : State) : State :=
  let t := s.tamper
  let late := (t.alarms.map (fun a => (a.1, a.2 &&& t.todo))).filter (fun e => e.2 ≠ 0)
  { s with tamper := { t with deferred := t.deferred ++ late } }.unionEnds

/-- Actions of the union carried out, with those that they contain. -/
def State.actionsDone (s : State) (bits : Nat) : State :=
  { s with tamper := { s.tamper with todo := s.tamper.todo &&& (0xFF - bits), done := s.tamper.done ||| bits } }

/-- An action has been carried out and does not verify: it stands as under way until its bound (R491). -/
def State.unverified (s : State) (b : Nat) : State :=
  let s := s.actionsDone (2 ^ b)
  { s with tamper := { s.tamper with acting := some b, unsound := s.tamper.unsound ^^^ 2 ^ b } }

/-- The lowest actions of the union, IRQ and then LOG, which end it. -/
def State.lowActions (s : State) : State :=
  let irq := s.tamper.todo.testBit 1
  let s := if irq then s.tmpIrq else s
  if irq && s.tamper.unsound.testBit 1 then s.unverified 1
  else
    let log := s.tamper.todo.testBit 0
    let s := if log then (s.tamper.withAction 0).foldl State.tmpLog s else s
    if log && s.tamper.unsound.testBit 0 then s.unverified 0 else s.unionEnds

/-- THROTTLE has completed: the draw is under the cap (R488). -/
def State.throttleDone (s : State) : State :=
  if s.tamper.acting = some 2 ∧ (s.capEff = 0 ∨ s.estimate ≤ capCurrent s.capEff) then s.lowActions else s

/-! ### tmp_alarm (R44, R45) -/

/-- A sticky flag stands whose action set contains IRQ or an action above it. -/
def State.alarmFlag (s : State) : Bool :=
  (numsFrom 0 12).any (fun i => s.tmpFlag i && decide (2 ≤ s.regF .tmpSrcStatus 15 8 i))

/-- tmp_alarm follows the flags from step 1 of start-up on (R45). -/
def State.alarmPin (s : State) : State :=
  if s.pins.coldLow ∨ s.pins.warmLow ∨ !s.boot.started ∨ s.pins.tmpAlarm = s.alarmFlag then s
  else { s with pins := { s.pins with tmpAlarm := s.alarmFlag } }

end Sys2Proof.Machine
end

