-- ==== Sys2Proof/Machine/Contain.lean ====
section
/-!
DEFINITION. Taking a unit out of service: what CONTAIN does to the unit of each power domain (R208, R237, R267, R357, R406,
R453, R509, R510), and what ends every command (R24, R65, R524, R528).
-/
namespace Sys2Proof.Machine

/-- The logical instances of a class that a physical instance carries. -/
def State.logicals (s : State) (cls phys : Nat) : List Nat := (numsFrom 0 (classSize cls)).filter (fun n => s.physical cls n == phys)

def State.mark (s : State) (cls phys : Nat) : State :=
  if s.outMarks.contains (cls, phys) then s else { s with outMarks := s.outMarks ++ [(cls, phys)] }

/-- What a request reports whose engine has left service: the output that DMA has taken, and the object that its result stands in; a
berth's former state returns (R131, R260). -/
def Req.lostResult (r : Req) : Result :=
  { plainResult .engineFault r.unit r.inst with
    outLen := r.bas.released, resultH := if r.before.isSome then 0 else (r.result.map (·.resultH)).getD 0 }

/-- The requests that an instance serves or has joined end with ENGINE_FAULT (R303, R357, R509). -/
def State.failUnit (s : State) (u : Unit) (n : Nat) : State :=
  (s.reqs.filter (fun r => r.servedBy u n)).foldl (fun s r =>
    (s.abortEngine r).finishReq r.id r.lostResult) s

/-- The engine class of a PWR_MAP code. -/
def engineUnit (cls : Nat) : Unit :=
  match cls with
  | 1 => .sym
  | 2 => .hsh
  | 3 => .ply
  | 4 => .cod
  | _ => .bne

/-- Drops a link to a berth: LINK reads zero and the berth stays valid (R322). -/
def State.dropLinks (s : State) (phys : Nat) : State :=
  let bs := ((s.plys.getD phys {}).areas).map (fun e => e.2.berth)
  bs.foldl State.clearLink { s with plys := modAt (fun p => { p with areas := [] }) phys s.plys }

/-- Work of the block itself loses its engine: it begins again on the next free one. -/
def State.dropInternal (s : State) (cls n : Nat) : State :=
  let s : State := { s with boot := { s.boot with stageUnits := s.boot.stageUnits.filter (· ≠ (cls, n)) } }
  match s.curves.checking with
  | some (i, m) =>
    if cls = 5 ∧ m = n then ({ s with curves := { s.curves with checking := none } } : State).setF .crvStatus 2 0 1 i else s
  | none => s

/-- Zeroizes an operand memory (R362, R384); a curve check that works in it begins again. -/
def State.zeroOperands (s : State) (phys : Nat) : State :=
  let s := match s.curves.checking with
    | some (_, n) => if s.physical 5 n = phys then s.dropInternal 5 n else s
    | none => s
  { s with operands := modAt (fun o => { o with groups := [], owner := [], words := [] }) phys s.operands }

/-- The round keys that a physical cipher core caches are cleared (R246). -/
def State.dropCore (s : State) (phys : Nat) : State := { s with roundKeys := dropKey phys s.roundKeys }

/-- What an engine holds beside its work goes as it leaves service (R246, R320, R534). -/
def State.dropEngine (s : State) (cls phys : Nat) : State :=
  match cls with
  | 1 => s.dropCore phys
  | 3 => s.dropLinks phys
  | 5 => s.zeroOperands phys
  | 9 => { s with ckc := { s.ckc with entries := [] } }
  | _ => s

/-- The berths of the banks whose logical numbers are given become INVALID (R267). -/
def State.berthsLost (s : State) (banks : List Nat) : State :=
  ((s.berths.map (·.1)).filter (fun i => banks.contains (i % 8))).foldl (fun s i => s.loseBerth i .berthInvalid) s

/-- An engine leaves service: it is marked, its request ends with ENGINE_FAULT, its reservations move (R179, R509, R510). -/
def State.engineOut (s : State) (cls phys : Nat) : State :=
  if s.outMarks.contains (cls, phys) then s
  else
    let s := s.mark cls phys
    ((s.logicals cls phys).foldl (fun s n => ((s.failUnit (engineUnit cls) n).dropInternal cls n).moveReservations cls n) s).dropEngine cls phys

/-- A berth bank leaves service: its berths become INVALID (R267). -/
def State.berthBankLost (s : State) (b : Nat) : State :=
  if s.outMarks.contains (8, b) then s
  else (s.mark 8 b).berthsLost (s.logicals 8 b)

/-- Every entry of the code key cache is lost (R357). -/
def State.ckcLost (s : State) : State :=
  if s.outMarks.contains (9, 0) then s else { s.mark 9 0 with ckc := { s.ckc with entries := [] } }

/-- The unit of a domain is already out of service (R509). -/
def State.domOut (s : State) (d : Nat) : Bool :=
  if 4 ≤ d ∧ d < 12 then (s.lk (d - 4)).state == .halted
  else if 17 ≤ d ∧ d < 25 then (s.logicals 7 (d - 17)).all s.bankOut
  else if 33 ≤ d ∧ d < 35 then s.halfOut (d - 33)
  else false

/-! ### An apply that goes unit by unit (R98, R99, R103) -/

/-- The unit at the head of an apply is passed; `missed` when it has left service. -/
def State.applyPass (s : State) (j : ApplyJob) (missed : Bool) : State :=
  { s with boot := { s.boot with job := some { j with
      left := j.left.drop 1, begun := false, missed := j.missed || missed } } }

/-- RESULT of an apply that has passed every unit. -/
def ApplyJob.result (j : ApplyJob) : Nat := if j.missed then 6 else 0

/-- The next Lockkeeper of the apply is given its section and drained; the load follows by LK_LOAD. -/
def State.applyLk (s : State) : State :=
  match s.boot.job with
  | none => s
  | some j =>
    if 2 < j.kind then s
    else
      match j.left with
      | [] => s.applyEnds j.result 2
      | n :: _ =>
        let s : State := { s with boot := { s.boot with job := some { j with begun := true } } }
        let s := (s.updLk n (fun l => { l with after := .load (j.kind == 2) j.data })).wake (lkDomain n)
        match (s.lk n).state with
        | .running => s.lkDrain n
        | .drained => s.updLk n (fun l => l.rest .drained)
        | .halted => s.updLk n (fun l => l.rest .halted)
        | .draining | .loading | .reset => s

/-- A Lockkeeper contained while an apply loads it leaves service, and the apply goes on with the others (R103). -/
def State.applyMisses (s : State) (n : Nat) : State :=
  match s.boot.job with
  | none => s
  | some j => if j.kind ≤ 2 ∧ j.begun ∧ j.left.head? = some n then (s.applyPass j true).applyLk else s

/-- CONTAIN on the unit of domain d (R509). -/
def State.containDom (s : State) (d : Nat) : State :=
  if s.domOut d then s
  else if 4 ≤ d ∧ d < 12 then (s.haltCore (d - 4) 0 .contained).applyMisses (d - 4)
  else if 12 ≤ d ∧ d < 16 then
    (if s.outMarks.contains (6, d - 12) then s
     else (s.logicals 6 (d - 12)).foldl (fun s e => s.dmaLost e) (s.mark 6 (d - 12)))
  else if 17 ≤ d ∧ d < 25 then (s.logicals 7 (d - 17)).foldl (fun s n => s.setB .bsnErr (24 + n) true) s
  else if 25 ≤ d ∧ d < 33 then s.berthBankLost (d - 25)
  else if 33 ≤ d ∧ d < 35 then s.setB .keyStatus (30 + (d - 33)) true
  else if 35 ≤ d ∧ d < 38 then (if s.srcState (d - 35) = 3 then s else ((s.setSrcState (d - 35) 3).updNoise (d - 35) (fun n =>
    { n with window := [], run := 0, acc := [], blocks := [] })).rngCheck)
  else if d = 38 then s.rngHalt 3
  else if d = 79 then s.ckcLost
  else
    match domUnits d with
    | some (cls, ns) => if 1 ≤ cls ∧ cls ≤ 5 then ns.foldl (fun s n => s.engineOut cls n) s else s
    | none => s

/-- Contains every unit that the events of a command named, and those that this raises (R508, R509). What is still named
after `n` rounds is dropped: each round takes units out of service, and there are fewer than `n` of them. -/
def State.containAll : Nat → State → State
  | 0, s => { s with toContain := [] }
  | n + 1, s =>
    match s.toContain with
    | [] => s
    | (d, _) :: rest => State.containAll n (({ s with toContain := rest } : State).containDom d)

/-! ### What ends every command -/

/-- The domain that owns the register at an address. DESIGN CHOICE: an engine's registers belong to its domain, those of the keep domain,
the collector and the monitors to theirs, and every other to PD01; log entry 115. -/
def State.regDomain (s : State) (x : RegRef) : Nat :=
  let a := x.addr
  if 0x600000 ≤ a ∧ a < 0x680000 then
    s.unitDomain (if a < 0x630000 then 1 else if a < 0x650000 then 2 else if a < 0x660000 then 3 else if a < 0x670000 then 4 else 5) x.i
  else if x.id.row.survives = .everything then 0
  else if 0x030000 ≤ a ∧ a < 0x040000 then 3
  else if 0x040000 ≤ a ∧ a < 0x050000 then 2
  else 1

/-- A context all of whose frames are KILLED returns to IDLE (R192, R210). -/
def State.idleKilled (s : State) : State :=
  (numsFrom 0 8).foldl (fun s n =>
    let l := s.lk n
    let cs := (numsFrom 0 8).filter (fun c =>
      (l.ctx c).state != .idle && !(l.heldBy c).isEmpty && (l.heldBy c).all (fun e => e.2.killed))
    if cs.isEmpty then s else (s.killCtxs n cs (fun _ => false)).checkDrained n) s

/-- The parity check of the RW and RWL registers: a mismatch raises CFG_PARITY (R507). The collector finds one of its own by COLLECTOR_SELF
(R516). -/
def State.parityCheck (s : State) : State :=
  let bad := (s.flt.flipped.filterMap regAt).filter (fun x => !decide (0x040000 ≤ x.addr ∧ x.addr < 0x050000))
  if bad.isEmpty then s
  else
    bad.foldl (fun s x =>
      ({ s with flt := { s.flt with badRegs := s.flt.badRegs ++ [x.addr] } } : State).event srcCfgParity (s.regDomain x) 0)
      { s with flt := { s.flt with flipped := s.flt.flipped.filter (fun a => decide (0x040000 ≤ a ∧ a < 0x050000)) } }

/-- The outcome of the load or import that writes a cache entry. -/
def State.loadStatus (s : State) (id : Nat) : Option Status :=
  match s.findReq id with
  | none => some .aborted
  | some r => if r.completed then some ((r.result.map (·.status)).getD .aborted) else none

/-- A load or import that completes: its entry is seen from now on, and the slot receives its reference. One that ends with another
status leaves nothing in the cache, and its slot as it was (R346, R352, R356). -/
def State.finishLoad (s : State) (n : Nat) : State :=
  let e := s.ckcEntry n
  let seen : State := { s with ckc := { s.ckc with entries := setKey {} s.ckc.entries n { e with loading := none } } }
  let gone : State := { s with ckc := { s.ckc with entries := dropKey n s.ckc.entries } }
  match e.loading.bind s.loadStatus with
  | none => s
  | some .ok =>
    if e.isPrivate then
      if (s.targetFault e.owner e.target 1 [usDecap] 40).isSome then gone else seen.putResult e.target (codeRef e.pkid e.alg n e.gen)
    else if (s.ckcPublic e.owner e.pkid e.alg).isSome then gone
    else seen
  | some _ => gone

def State.finishLoads (s : State) : State := ((s.ckc.entries.filter (fun e => e.2.loading.isSome)).map (·.1)).foldl State.finishLoad s

/-- Slots and cache entries whose destruction waited for their last user (R24, R353). -/
def State.finishDooms (s : State) : State :=
  let s := ((s.keys.filter (fun e => (e.2.doom == .clear || e.2.doom == .invalidate) && e.2.pair != 2)).map (·.1)).foldl State.finishDoom s
  ((s.ckc.entries.filter (fun e => e.2.doomed)).map (·.1)).foldl State.ckcRelease s

/-- The requests that a change of a curve entry waits for have ended. -/
def State.curveFree (s : State) (j : CurveJob) : Bool := !s.reqs.any (fun r => j.users.contains r.id && !r.completed)

/-- Entry i is replaced: it is to be checked (R91). -/
def State.putCurve (s : State) (i : Nat) (b : Bytes) (loaded : List Nat) : State :=
  ({ s with curves := { s.curves with entries := insertKey i b s.curves.entries, loaded := loaded } } : State).setF .crvStatus 2 0 1 i

/-- A change of an entry takes effect; a check of the old entry ends with it. -/
def State.curveChanges (s : State) (j : CurveJob) : State :=
  let rest := s.curves.loaded.filter (· ≠ j.index)
  let s : State := if s.curves.checking.map (·.1) = some j.index then { s with curves := { s.curves with checking := none } } else s
  match j.change with
  | .put b => s.putCurve j.index b rest
  | .load b => s.putCurve j.index b (j.index :: rest)
  | .clear =>
    ({ s with curves := { s.curves with entries := dropKey j.index s.curves.entries, loaded := rest } } : State).setReg .crvStatus 0 j.index

/-- The changes of the curve table whose requests have ended take effect, those of one entry in the order they were asked for
(R99, R101, R382); `held` are the entries of which an earlier change still waits. -/
def State.curveJobs : List CurveJob → List Nat → State → State
  | [], _, s => s
  | j :: js, held, s =>
    if held.contains j.index || !s.curveFree j then State.curveJobs js (j.index :: held) s
    else State.curveJobs js held (({ s with curves := { s.curves with jobs := s.curves.jobs.erase j } } : State).curveChanges j)

def State.finishCurves (s : State) : State := State.curveJobs s.curves.jobs [] s

/-! ### Work of the block's own (R91, R96, R382) -/

/-- An operation of `len` from time t of the frame on runs into the interval of an entry, in this frame or a later one; a dedicated
unit's interval has no end. -/
def runsInto (t len offset length : Nat) : Bool :=
  decide (1000 ≤ length) || (decide (offset ≤ t) && decide (t < offset + length)) ||
    decide ((if t < offset then offset else offset + 1000) < t + len)

/-- Entries on an instance that bar another partition's operation of `len` from time t on, which would run into their interval: a CLOSED
one, and a LENDING one within which it would not end (R174, R176). -/
def State.barred (s : State) (p cls n t len : Nat) : Bool :=
  s.rsvEntries.any (fun e =>
    let o := rsvOffset e.2.2
    let l := rsvLength e.2.2
    decide (rsvPtn e.2.1 ≠ p) && decide (rsvClass e.2.1 = cls) && decide (s.rsvUnit e = some n) &&
    runsInto t len o l &&
    (!rsvLending e.2.1 || (decide (l < 1000) && decide ((if t < o + l then o + l else o + l + 1000) < t + len))))

/-- The fixed time of the block's own work on a class, in units of 100 ns: the spec states no figure (R96, R382). -/
def internalTime (u : Unit) : Nat := Config.opTime [BitVec.ofNat 8 u.code]

/-- Instance n of an engine class may take work of the block itself, which is P0's, at time t of the frame: it is free, no entry of
another partition bars it, and the cap lets it start. -/
def State.takesInternal (s : State) (u : Unit) (t n : Nat) : Bool :=
  !s.unitOut u.code n && !s.unitTaken u n && !s.draining u.code n && s.capAllows u.code n &&
  !s.barred 0 u.code n t (internalTime u) &&
  (decide (u ≠ .ply) || (((s.ply n).waiting.isNone || decide (s.domState (s.unitDomain 3 n) = 0)) && !(s.ply n).restoring))

/-- The next free instance of a class for work of the block itself, the lowest whose domain is ON. Where none is ON, the domain of the
lowest free one is woken. DESIGN CHOICE; log entry 94. -/
def State.internalUnit (s : State) (u : Unit) : Option Nat × State :=
  let free := (numsFrom 0 (classSize u.code)).filter (s.takesInternal u (s.pick % 1000))
  let s := if s.rsvEntries.isEmpty then s else s.drawn
  match free.find? (fun n => s.domOn (s.unitDomain u.code n)) with
  | some n => (some n, s)
  | none =>
    match free with
    | n :: _ => (none, s.wake (s.unitDomain u.code n))
    | [] => (none, s)

/-- A staged image that has arrived takes the next free hash core and polynomial engine (R96). -/
def State.startStaged (s : State) (u : Unit) : State :=
  if s.regF .mgtStageStatus 3 0 ≠ 2 ∨ s.boot.stageUnits.any (fun e => e.1 = u.code) then s
  else
    match s.internalUnit u with
    | (some n, s) => { s with boot := { s.boot with stageUnits := s.boot.stageUnits ++ [(u.code, n)] } }
    | (none, s) => s

/-- After READY, one curve entry at a time is checked on the next free engine (R91, R382). -/
def State.startCheck (s : State) : State :=
  if s.phase ≠ phReady ∨ s.curves.checking.isSome then s
  else
    match (numsFrom 0 16).find? (fun i => s.regF .crvStatus 2 0 i = 1) with
    | none => s
    | some i =>
      match s.internalUnit .bne with
      | (some n, s) => ({ s with curves := { s.curves with checking := some (i, n) } } : State).setF .crvStatus 2 0 2 i
      | (none, s) => s

def State.startInternal (s : State) : State :=
  if s.held then s else ((s.startStaged .hsh).startStaged .ply).startCheck

/-- A drained unit with no work leaves service (R534). -/
def State.drainDone (s : State) (c n : Nat) : State :=
  let p := s.physical c n
  let s := if c ≤ 5 then (s.mark c p).moveReservations c n else s.mark c p
  let s : State := { s with power := { s.power with drain := none } }
  let s := if c = 7 then s.setB .bsnErr (24 + n) true else if c = 8 then s.berthsLost [n] else s.dropEngine c p
  (s.setB .pwrUnitCtrl 31 false).setF .pwrUnitStatus 7 0 0

/-- Work of a unit under drain: an engine's requests, a DMA engine's transactions, a berth bank's users. -/
def State.unitIdle (s : State) (c n : Nat) : Bool :=
  match c with
  | 6 => !s.dmaBusy n
  | 7 => true
  | 8 => !s.reqs.any (fun r => r.onEngine && (r.berth.map (fun i => i % 8 == n)).getD false)
  | 9 => !s.reqs.any (fun r => r.onEngine && r.desc.usesCache)
  | _ => !s.unitTaken (engineUnit c) n

/-- The domain of a Basin bank out of service is switched off once the bank holds no live cell (R237). -/
def State.dropBanks (s : State) : State :=
  ((numsFrom 0 8).filter (fun b => s.bankOut b && s.basin.free.getD b 0 == 4096 && s.domState (s.unitDomain 7 b) != 0 &&
    s.domState (s.unitDomain 7 b) != 3)).foldl (fun s b => s.askDom (s.unitDomain 7 b) 0) s

def State.finishDrain (s : State) : State :=
  match s.power.drain with
  | some d => if s.unitIdle d.cls d.inst then s.drainDone d.cls d.inst else s
  | none => s

/-- What a request leaves in its engine when it ends: a recipe run stops and working memory is zeroized (R334); operand
slots are zeroized and free (R362). -/
def State.onUnit (s : State) (id : Nat) : Bool :=
  s.reqs.any (fun r => r.id = id && (r.phase == .running || r.phase == .paused))

def State.finishEngines (s : State) : State :=
  { s with
    plys := s.plys.map (fun p => match p.run with
      | some x => if s.onUnit x.req then p else { p with run := none, slots := p.slots.filter (fun e => 32 ≤ e.1), shares := p.shares.filter (fun e => 32 ≤ e.1) }
      | none => p)
    operands := s.operands.map (fun o =>
      let keeps (g : OperandGroup) : Bool := s.onUnit g.req || s.reqs.any (fun r => r.id = g.req && r.phase == .queued)
      { o.zero ((o.groups.filter (fun g => !keeps g && g.secret)).flatMap (·.slots)) with groups := o.groups.filter keeps }) }

/-! ### Recipes that wait for an engine (R99, R329, R333, R335) -/

/-- Engine `phys` receives recipes: the whole memory is replaced, links are dropped, and an engine out of service for a bad word
returns (R333, R335). -/
def State.loadRecipes (s : State) (phys : Nat) (b : Bytes) : State :=
  let s := s.dropLinks phys
  { s with plys := modAt (fun p =>
      { p with rcp := recipesOf b, waiting := none, bad := [], restoring := false, woken := false, useCount := p.useCount + 1 }) phys s.plys }

/-- The engine runs an operation. -/
def State.plyBusy (s : State) (phys : Nat) : Bool :=
  (s.plys.getD phys {}).run.isSome || (s.logicals 3 phys).any (s.unitTaken .ply)

/-- A PLY_RECIPES section for one engine: after its running operation, and at its next wake when it is off (R99). -/
def State.giveRecipes (s : State) (phys : Nat) (b : Bytes) : State :=
  if s.plyBusy phys || s.domState (59 + phys) == 0 then
    { s with plys := modAt (fun p => { p with waiting := some b }) phys s.plys }
  else s.loadRecipes phys b

def State.finishRecipes (s : State) : State :=
  (enumFrom 0 s.plys).foldl (fun s (n, p) =>
    match p.waiting with
    | some b => if s.plyBusy n || s.domState (59 + n) == 0 || s.domState (59 + n) == 3 then s else s.loadRecipes n b
    | none => s) s

/-! ### Recipes and curves of an apply (R98, R99) -/

/-- A PLY_RECIPES apply goes to its next engines. -/
def State.applyRecipes : Nat → State → State
  | 0, s => s
  | n + 1, s =>
    match s.boot.job with
    | none => s
    | some j =>
      if j.kind ≠ 3 then s
      else
        match j.left with
        | [] => s.applyEnds j.result 2
        | e :: _ =>
          let p := s.physical 3 e
          if s.outMarks.contains (3, p) then
            State.applyRecipes n (({ s with plys := modAt (fun x => { x with waiting := none }) p s.plys } : State).applyPass j true)
          else if !j.begun then
            State.applyRecipes n (({ s with boot := { s.boot with job := some { j with begun := true } } } : State).giveRecipes p j.data)
          else if (s.plys.getD p {}).waiting.isSome ∧ s.domState (59 + p) ≠ 0 then s
          else State.applyRecipes n (s.applyPass j false)

/-- The apply of a CURVES section ends once every entry has been replaced (R98, R99). -/
def State.applyCurves (s : State) : State :=
  if s.applying 8 ∧ !s.curves.jobs.any (fun j => match j.change with
      | .put _ => true
      | _ => false) then s.applyEnds 0 2
  else s

/-- The state before a command is `s0`: containment, then what the changes of the command let go on. The queue is not a part
of the block, and no command touches it. -/
def State.wrapUp (s0 s : State) : State :=
  let s := s.idleKilled.parityCheck.containAll 256
  let s := ((State.applyRecipes 64 s.finishEngines.finishRecipes).finishLoads.finishDooms.finishCurves.applyCurves).finishDrain.dropBanks.startInternal
  let s := s.pumpPort
  let s := s0.ballastAfter s.applyCap
  { (((s.clocksAfter.capReached).throttleDone).containAll 256).alarmPin with pending := s0.pending }

/-- A command that is carried out: everything but the queue changes as `f` says, and what follows from it. -/
def State.run (s : State) (f : State → State) : Host.Outcome State Fault Refusal := .next (s.wrapUp (f s))

end Sys2Proof.Machine
end

