-- ==== Sys2Proof/Machine/CmdRing.lean ====
section
/-!
DEFINITION. The events of dispatch, of the Basin and of the completion unit as commands (R22, R41 to R43, R109 to R116,
R135 to R148, R156, R164 to R176, R185, R222, R226, R236).
-/
namespace Sys2Proof.Machine

/-- The domains that a grant needs: the Lockkeeper's, and those on fab_clk whose units are in service (R520). -/
def State.grantDomains (s : State) (n : Nat) : List Nat :=
  lkDomain n :: (((numsFrom 0 4).filter s.dmaInService).map (· + 12) ++ 16 ::
    ((numsFrom 0 8).filter (fun b => !s.bankOut b)).map (s.unitDomain 7))

/-- LOCKKEEPER_GRANT (R164, R185): a grant that finds a domain not on wakes it and waits (R520); one that finds the Lockkeeper taken
leaves a slice that starts late. The time of the frame is a free value. -/
def execLockkeeperGrant (lk : Fin 8) (s : State) : Host.Outcome State Fault Refusal :=
  s.run (fun s =>
    let sleeping := (s.grantDomains lk.val).filter (fun d => !s.domOn d)
    if s.held || decide (s.phase ≠ phReady) then s
    else if !s.accepts lk.val then s.drawn.noteLateSlice lk.val (s.pick % 1000)
    else if sleeping.isEmpty then s.grant lk.val
    else if (s.offer lk.val (s.pick % 1000)).isSome then s.drawn.wakeAll sleeping else s)

/-- DESCRIPTOR_ARRIVAL: what a Lockkeeper has fetched goes into frames, and a context starts (R185). -/
def execDescriptorArrival (lk : Fin 8) (s : State) : Host.Outcome State Fault Refusal :=
  s.run (fun s => if s.held then s else s.arrive lk.val)

/-- OPEN_TOW_TIMEOUT (R147). -/
def execOpenTowTimeout (p : Fin 64) (n : Fin 16) (s : State) : Host.Outcome State Fault Refusal :=
  s.run (fun s => s.openTowTimeout p.val n.val)

/-- TOW_ADMIT: the admission or completion that context c waits for is tried again (R148, R190, R191). -/
def execTowAdmit (lk : Fin 8) (c : Fin 8) (s : State) : Host.Outcome State Fault Refusal :=
  s.run (fun s => if s.held then s else s.retryWait lk.val c.val)

/-- TOW_MEMBER_ISSUE: a queued member whose dependencies have completed is issued to its unit class (R156, R163). -/
def execTowMemberIssue (rid : Nat) (s : State) : Host.Outcome State Fault Refusal :=
  s.run (fun s =>
    match s.findReq rid with
    | none => s
    | some r =>
      if r.phase = .queued ∧ !r.ready ∧ s.depsDone r ∧ s.fenceOpen r then s.updReq rid (fun r => { r with ready := true }) else s)

/-- BASIN_GRANT: the lane at the front receives both its initial allocations (R222). -/
def execBasinGrant (s : State) : Host.Outcome State Fault Refusal := s.run State.grantFront

/-- OUTPUT_CELL_RELEASE: the next output cell goes to DMA (R226). -/
def execOutputCellRelease (rid : Nat) (s : State) : Host.Outcome State Fault Refusal :=
  s.run (fun s =>
    match s.findReq rid with
    | none => s
    | some r => if r.mayRelease then s.throughLinks r true (fun s => s.releaseCell rid) else s)

/-- REQUEST_RESULT_POSTED: an engine posts its result to the completion unit (R22, R227). -/
def execRequestResultPosted (rid : Nat) (s : State) : Host.Outcome State Fault Refusal :=
  s.run (fun s => if s.held then s else s.postResult rid)

/-- COMPLETION_ENTRY_WRITE: the next entry of a completion ring is written at its tail (R109, R110, R113). -/
def execCompletionEntryWrite (p : Fin 64) (n : Fin 16) (s : State) : Host.Outcome State Fault Refusal :=
  s.run (fun s => s.writeEntry p.val n.val)

/-- INPLACE_STATUS_WRITE: the status word follows once the first part is accepted (R135). -/
def execInplaceStatusWrite (rid : Nat) (s : State) : Host.Outcome State Fault Refusal := s.run (fun s => s.inPlaceStatus rid)

/-- COALESCE_TIMER: the coalescing time has passed (R141). -/
def execCoalesceTimer (p : Fin 64) (n : Fin 16) (s : State) : Host.Outcome State Fault Refusal :=
  s.run (fun s => s.coalesceExpire p.val n.val)

/-- RING_STOP_FLUSH_FETCH: step 5 of a ring stop (R137). -/
def execRingStopFlushFetch (p : Fin 64) (n : Fin 16) (s : State) : Host.Outcome State Fault Refusal :=
  s.run (fun s => if s.resets.any (fun r => r.ptn = p.val) then s else s.flushFetch p.val n.val)

/-- DMA_READ_RETURN: a beat or an error response of a read burst (R37, R40). -/
def execDmaReadReturn (tag : Fin 256) (data : Bytes) (err poison : Bool) (s : State) : Host.Outcome State Fault Refusal :=
  s.run (fun s => s.dmaRead tag.val data err poison)

/-- DMA_WRITE_COMPLETION: the response of a write burst (R38, R40). -/
def execDmaWriteCompletion (tag : Fin 128) (err : Bool) (s : State) : Host.Outcome State Fault Refusal :=
  s.run (fun s => s.dmaWrote tag.val err)

/-- DMA_TIMEOUT: a burst has had no response for the DMA timeout (R41). -/
def execDmaTimeout (write : Bool) (tag : Fin 256) (s : State) : Host.Outcome State Fault Refusal :=
  s.run (fun s => s.dmaTimeout write tag.val)

/-- IRQ_MESSAGE_ACCEPT: the S9 accepts the oldest message of a partition (R43). -/
def execIrqMessageAccept (p : Fin 64) (s : State) : Host.Outcome State Fault Refusal := s.run (fun s => s.irqAccept p.val)

/-- FRAME_BOUNDARY: a 100 µs scheduler frame ends (R166, R177). -/
def execFrameBoundary (s : State) : Host.Outcome State Fault Refusal := s.run State.frameBoundary

/-- POOL_AUDIT_DONE: cells that no live queue holds return to the pool, and a cell found raises BSN_AUDIT (R236). -/
def execPoolAuditDone (s : State) : Host.Outcome State Fault Refusal :=
  s.run (fun s =>
    if s.regB .bsnErr 23 then
      let s := s.returnCells s.basin.stray
      let found := s.basin.stray.length
      let s := ({ s with basin := { s.basin with stray := [] } } : State).setB .bsnErr 23 false
      if found = 0 then s else s.event srcBsnAudit 0xFF found
    else s)

end Sys2Proof.Machine
end

