-- ==== Sys2Proof/Machine/Curves.lean ====
section
/-!
DEFINITION. Numbers, and the arithmetic of the curves of R373: short Weierstrass curves, built in or loaded, the Montgomery ladder and
the Edwards curves; and the encodings of RSA. What the cited standards give (constants, formulas and encodings) is PRESUMED, log
entry 107.
-/
namespace Sys2Proof.Machine

/-! ### Numbers -/

/-- x^e mod m, over the low `k` bits of e. -/
def modPow (m : Nat) : Nat → Nat → Nat → Nat
  | 0, _, _ => 1 % m
  | k + 1, x, e => (if e % 2 = 1 then x else 1) * modPow m k (x * x % m) (e / 2) % m

/-- The inverse of a modulo m by Euclid's steps: `(r0, t0)` and `(r1, t1)` satisfy t·a ≡ r (mod m). -/
def euclid (m : Nat) : Nat → Nat → Nat → Nat → Nat → Option Nat
  | 0, _, _, _, _ => none
  | k + 1, r0, t0, r1, t1 =>
    if r1 = 0 then (if r0 = 1 then some (t0 % m) else none)
    else euclid m k r1 t1 (r0 % r1) ((t0 + (m - r0 / r1 * t1 % m)) % m)

def modInverse (m a : Nat) : Option Nat := euclid m 16500 m 0 (a % m) 1

/-- a / b and a − b modulo m; 0 where b has no inverse. -/
def modDiv (m a b : Nat) : Nat := a * (modInverse m b).getD 0 % m
def modSub (m a b : Nat) : Nat := (a % m + (m - b % m)) % m

/-- A modulus is odd and exactly `b` bits long. -/
def modulusOk (b m : Nat) : Bool := decide (m % 2 = 1) && decide (2 ^ (b - 1) ≤ m ∧ m < 2 ^ b)

/-- The length of a number in bits. -/
def bitLen (n : Nat) : Nat := if n = 0 then 0 else n.log2 + 1

/-- A number is prime. -/
def isPrime (p : Nat) : Bool := decide (2 ≤ p) && decide (∀ d, d < p → 2 ≤ d → p % d ≠ 0)

/-- Squares x up to k times and looks for m − 1. -/
def reachesMinusOne (m : Nat) : Nat → Nat → Bool
  | 0, _ => false
  | k + 1, x => x == m - 1 || reachesMinusOne m k (x * x % m)

/-- One Miller-Rabin round on an odd w with base b: with w − 1 = 2^a · d, b^d is 1 or comes to −1 within a squarings. -/
def millerRabin (w b : Nat) : Bool :=
  let a := ((numsFrom 0 8192).takeWhile (fun i => (w - 1) % 2 ^ (i + 1) = 0)).length
  let x := modPow w 8192 (b % w) ((w - 1) / 2 ^ a)
  x == 1 || reachesMinusOne w a x

/-! ### Short Weierstrass curves (R373, R381) -/

/-- y² = x³ + ax + b over p, with the base point (gx, gy) of order n and the cofactor h. -/
structure Curve where
  p : Nat
  a : Nat
  b : Nat
  gx : Nat
  gy : Nat
  n : Nat
  h : Nat := 1
  deriving DecidableEq, Repr

/-- A point of a Weierstrass curve; none is the identity. -/
abbrev Point := Option (Nat × Nat)

/-- The built-in curves of FIPS 186-5 and RFC 5639, by ALG. -/
def builtinCurve (alg : Nat) : Curve :=
  match alg with
  | 0x01 =>
    { p := 0xffffffff00000001000000000000000000000000ffffffffffffffffffffffff
      a := 0xffffffff00000001000000000000000000000000fffffffffffffffffffffffc
      b := 0x5ac635d8aa3a93e7b3ebbd55769886bc651d06b0cc53b0f63bce3c3e27d2604b
      gx := 0x6b17d1f2e12c4247f8bce6e563a440f277037d812deb33a0f4a13945d898c296
      gy := 0x4fe342e2fe1a7f9b8ee7eb4a7c0f9e162bce33576b315ececbb6406837bf51f5
      n := 0xffffffff00000000ffffffffffffffffbce6faada7179e84f3b9cac2fc632551 }
  | 0x02 =>
    { p := 0xfffffffffffffffffffffffffffffffffffffffffffffffffffffffffffffffeffffffff0000000000000000ffffffff
      a := 0xfffffffffffffffffffffffffffffffffffffffffffffffffffffffffffffffeffffffff0000000000000000fffffffc
      b := 0xb3312fa7e23ee7e4988e056be3f82d19181d9c6efe8141120314088f5013875ac656398d8a2ed19d2a85c8edd3ec2aef
      gx := 0xaa87ca22be8b05378eb1c71ef320ad746e1d3b628ba79b9859f741e082542a385502f25dbf55296c3a545e3872760ab7
      gy := 0x3617de4a96262c6f5d9e98bf9292dc29f8f41dbd289a147ce9da3113b5f0b8c00a60b1ce1d7e819d7a431d7c90ea0e5f
      n := 0xffffffffffffffffffffffffffffffffffffffffffffffffc7634d81f4372ddf581a0db248b0a77aecec196accc52973 }
  | 0x03 =>
    { p := 0x1ffffffffffffffffffffffffffffffffffffffffffffffffffffffffffffffffffffffffffffffffffffffffffffffffffffffffffffffffffffffffffffffffff
      a := 0x1fffffffffffffffffffffffffffffffffffffffffffffffffffffffffffffffffffffffffffffffffffffffffffffffffffffffffffffffffffffffffffffffffc
      b := 0x51953eb9618e1c9a1f929a21a0b68540eea2da725b99b315f3b8b489918ef109e156193951ec7e937b1652c0bd3bb1bf073573df883d2c34f1ef451fd46b503f00
      gx := 0xc6858e06b70404e9cd9e3ecb662395b4429c648139053fb521f828af606b4d3dbaa14b5e77efe75928fe1dc127a2ffa8de3348b3c1856a429bf97e7e31c2e5bd66
      gy := 0x11839296a789a3bc0045c8a5fb42c7d1bd998f54449579b446817afbd17273e662c97ee72995ef42640c550b9013fad0761353c7086a272c24088be94769fd16650
      n := 0x1fffffffffffffffffffffffffffffffffffffffffffffffffffffffffffffffffa51868783bf2f966b7fcc0148f709a5d03bb5c9b8899c47aebb6fb71e91386409 }
  | 0x04 =>
    { p := 0xa9fb57dba1eea9bc3e660a909d838d726e3bf623d52620282013481d1f6e5377
      a := 0x7d5a0975fc2c3057eef67530417affe7fb8055c126dc5c6ce94a4b44f330b5d9
      b := 0x26dc5c6ce94a4b44f330b5d9bbd77cbf958416295cf7e1ce6bccdc18ff8c07b6
      gx := 0x8bd2aeb9cb7e57cb2c4b482ffc81b7afb9de27e1e3bd23c23a4453bd9ace3262
      gy := 0x547ef835c3dac4fd97f8461a14611dc9c27745132ded8e545c1d54c72f046997
      n := 0xa9fb57dba1eea9bc3e660a909d838d718c397aa3b561a6f7901e0e82974856a7 }
  | 0x05 =>
    { p := 0x8cb91e82a3386d280f5d6f7e50e641df152f7109ed5456b412b1da197fb71123acd3a729901d1a71874700133107ec53
      a := 0x7bc382c63d8c150c3c72080ace05afa0c2bea28e4fb22787139165efba91f90f8aa5814a503ad4eb04a8c7dd22ce2826
      b := 0x4a8c7dd22ce28268b39b55416f0447c2fb77de107dcd2a62e880ea53eeb62d57cb4390295dbc9943ab78696fa504c11
      gx := 0x1d1c64f068cf45ffa2a63a81b7c13f6b8847a3e77ef14fe3db7fcafe0cbd10e8e826e03436d646aaef87b2e247d4af1e
      gy := 0x8abe1d7520f9c2a45cb1eb8e95cfd55262b70b29feec5864e19c054ff99129280e4646217791811142820341263c5315
      n := 0x8cb91e82a3386d280f5d6f7e50e641df152f7109ed5456b31f166e6cac0425a7cf3ab6af6b7fc3103b883202e9046565 }
  | _ =>
    { p := 0xaadd9db8dbe9c48b3fd4e6ae33c9fc07cb308db3b3c9d20ed6639cca703308717d4d9b009bc66842aecda12ae6a380e62881ff2f2d82c68528aa6056583a48f3
      a := 0x7830a3318b603b89e2327145ac234cc594cbdd8d3df91610a83441caea9863bc2ded5d5aa8253aa10a2ef1c98b9ac8b57f1117a72bf2c7b9e7c1ac4d77fc94ca
      b := 0x3df91610a83441caea9863bc2ded5d5aa8253aa10a2ef1c98b9ac8b57f1117a72bf2c7b9e7c1ac4d77fc94cadc083e67984050b75ebae5dd2809bd638016f723
      gx := 0x81aee4bdd82ed9645a21322e9c4c6a9385ed9f70b5d916c1b43b62eef4d0098eff3b1f78e2d0d48d50d1687b93b97d5f7c6d5047406a5e688b352209bcb9f822
      gy := 0x7dde385d566332ecc0eabfa9cf7822fdf209f70024a57b1aa000c55b881f8111b2dcde494a5f485e5bca4bd88a2763aed1ca2b2fa8f0540678cd1e0f3ad80892
      n := 0xaadd9db8dbe9c48b3fd4e6ae33c9fc07cb308db3b3c9d20ed6639cca70330870553e5c414ca92619418661197fac10471db1d381085ddaddb58796829ca90069 }

/-- A curve from an entry of the curve table (R381). -/
def entryCurve (b : Bytes) : Curve :=
  let part (off : Nat) : Nat := beNat (slice b off 66)
  { p := part 0x18, a := part 0x5A, b := part 0x9C, gx := part 0xDE, gy := part 0x120, n := part 0x162, h := byteAt b 1 }

/-- The Weierstrass curve that an ALG names. -/
def State.curveOf (s : State) (alg : Nat) : Curve :=
  match curveEntry alg with
  | some i => entryCurve (getKey [] s.curves.entries i)
  | none => builtinCurve alg

/-- The curve's equation holds. -/
def Curve.holdsAt (c : Curve) (x y : Nat) : Bool := decide (y ^ 2 % c.p = (x ^ 3 + c.a * x + c.b) % c.p)

/-- The sum of two points. -/
def Curve.add (c : Curve) : Point → Point → Point
  | none, q => q
  | p, none => p
  | some (x1, y1), some (x2, y2) =>
    if x1 = x2 ∧ (y1 + y2) % c.p = 0 then none
    else
      let l := if x1 = x2 then modDiv c.p (3 * x1 ^ 2 + c.a) (2 * y1) else modDiv c.p (modSub c.p y2 y1) (modSub c.p x2 x1)
      let x := modSub c.p (l ^ 2) (x1 + x2)
      some (x, modSub c.p (l * modSub c.p x1 x) y1)

/-- k times a point, over the low `m` bits of k. -/
def Curve.mul (c : Curve) : Nat → Nat → Point → Point
  | 0, _, _ => none
  | m + 1, k, q => let rest := c.mul m (k / 2) (c.add q q)
                   if k % 2 = 1 then c.add q rest else rest

def Curve.base (c : Curve) : Point := some (c.gx, c.gy)

/-- k times a point, for k of up to 530 bits. -/
def Curve.times (c : Curve) (k : Nat) (q : Point) : Point := c.mul 530 k q

/-- The point that an uncompressed encoding of coordinates of `l` bytes gives, and its encoding (SEC 1). -/
def pointAt (l : Nat) (q : Bytes) : Nat × Nat := (beNat (slice q 1 l), beNat (slice q (1 + l) l))
def encodePoint (l : Nat) : Point → Bytes
  | none => zeros (1 + 2 * l)
  | some (x, y) => 4 :: (toBe l x ++ toBe l y)

/-- A public point as R364 and R377 judge it: its coordinates, then the point itself. -/
def Curve.pointFault (c : Curve) (l : Nat) (q : Bytes) : Option (Status × Option Nat) :=
  let (x, y) := pointAt l q
  if c.p ≤ x ∨ c.p ≤ y then some (.inputRange, some 0x0711)
  else if byteAt q 0 ≠ 4 ∨ !c.holdsAt x y ∨ (1 < c.h ∧ c.times c.n (some (x, y)) ≠ none) then some (.pointInvalid, none)
  else none

/-- A private scalar: not zero, and below the group's order (R364). -/
def Curve.scalarFault (c : Curve) (d : Bytes) : Option (Status × Option Nat) :=
  if beNat d = 0 then some (.inputRange, some 0x0710) else if c.n ≤ beNat d then some (.inputRange, some 0x0711) else none

/-- A scalar from random bytes, with 64 bits more than the order has (FIPS 186-5 appendix A.2.1). -/
def Curve.scalarFrom (c : Curve) (b : Bytes) : Nat := beNat b % 2 ^ (bitLen c.n + 64) % (c.n - 1) + 1
/-- Random bytes that it takes. -/
def Curve.scalarBytes (c : Curve) : Nat := ceilDiv (bitLen c.n + 64) 8

/-- bits2int: the leftmost bits of a digest, as many as the order has. -/
def Curve.bits2int (c : Curve) (b : Bytes) : Nat := beNat b / 2 ^ (8 * b.length - bitLen c.n)

/-- What ECDSA signs or verifies: the digest given, or that of the message (R376). -/
def ecDigestOf (d : Desc) (m : Bytes) : Bytes := if d.ecDigest then m else hashFn (fld d.param 15 8) 0 m

/-- The halves r and s of an ECDSA signature under nonce k. -/
def Curve.ecdsa (c : Curve) (k d : Nat) (digest : Bytes) : Nat × Nat :=
  let r := ((c.times k c.base).map (·.1)).getD 0 % c.n
  (r, modDiv c.n (c.bits2int digest + r * d) k)

/-- An ECDSA signature is valid. -/
def Curve.ecdsaOk (c : Curve) (l : Nat) (pub : Bytes) (r t : Nat) (digest : Bytes) : Bool :=
  let u1 := modDiv c.n (c.bits2int digest) t
  let u2 := modDiv c.n r t
  decide (0 < r ∧ r < c.n) && decide (0 < t ∧ t < c.n) &&
  (match c.add (c.times u1 c.base) (c.times u2 (some (pointAt l pub))) with
   | none => false
   | some (x, _) => x % c.n == r)

/-! ### X25519 and X448 (R380; RFC 7748) -/

def montP (alg : Nat) : Nat := if alg = 0x18 then 2 ^ 255 - 19 else 2 ^ 448 - 2 ^ 224 - 1
def montA24 (alg : Nat) : Nat := if alg = 0x18 then 121665 else 39081
/-- The clamped scalar. -/
def montScalar (alg : Nat) (k : Bytes) : Nat :=
  if alg = 0x18 then leNat k % 2 ^ 254 / 8 * 8 + 2 ^ 254 else leNat k % 2 ^ 447 / 4 * 4 + 2 ^ 447
/-- u as XDH takes it: X25519's top bit is cleared. -/
def montU (alg : Nat) (u : Bytes) : Nat := if alg = 0x18 then leNat u % 2 ^ 255 else leNat u

/-- One step of the ladder: 2·(x2 : z2), and its sum with (x3 : z3). -/
def ladderStep (p a24 u : Nat) (x2 z2 x3 z3 : Nat) : (Nat × Nat) × (Nat × Nat) :=
  let a := x2 + z2
  let b := modSub p x2 z2
  let aa := a ^ 2 % p
  let bb := b ^ 2 % p
  let e := modSub p aa bb
  let da := modSub p x3 z3 * a % p
  let cb := (x3 + z3) * b % p
  ((aa * bb % p, e * (aa + a24 * e) % p), ((da + cb) ^ 2 % p, u * modSub p da cb ^ 2 % p))

/-- The ladder over the low `k` bits of a scalar. -/
def ladder (p a24 u scalar : Nat) : Nat → Nat × Nat → Nat × Nat → Nat
  | 0, q, _ => modDiv p q.1 q.2
  | k + 1, q, r =>
    if scalar.testBit k then
      (let n := ladderStep p a24 u r.1 r.2 q.1 q.2
       ladder p a24 u scalar k n.2 n.1)
    else
      (let n := ladderStep p a24 u q.1 q.2 r.1 r.2
       ladder p a24 u scalar k n.1 n.2)

/-- The function X25519 or X448 of a private scalar and a u. -/
def xdhFn (alg : Nat) (k : Bytes) (u : Nat) : Bytes :=
  let p := montP alg
  let u := u % p
  toLe (if alg = 0x18 then 32 else 56) (ladder p (montA24 alg) u (montScalar alg k) 448 (1, 0) (u, 1))

/-! ### Ed25519 and Ed448 (R378, R379; RFC 8032) -/

/-- ax² + y² = 1 + dx²y² over p, its base point of order n, the logarithm c of its cofactor and the bytes of an encoding. -/
structure EdCurve where
  p : Nat
  a : Nat
  d : Nat
  bx : Nat
  by' : Nat
  n : Nat
  c : Nat
  len : Nat
  deriving DecidableEq, Repr

def edCurve (alg : Nat) : EdCurve :=
  if alg = 0x10 then
    { p := 2 ^ 255 - 19, a := 2 ^ 255 - 20, d := 0x52036cee2b6ffe738cc740797779e89800700a4d4141d8ab75eb4dca135978a3
      bx := 0x216936d3cd6e53fec0a4e231fdd6dc5c692cc7609525a7b2c9562d608f25d51a
      by' := 0x6666666666666666666666666666666666666666666666666666666666666658
      n := 2 ^ 252 + 27742317777372353535851937790883648493, c := 3, len := 32 }
  else
    { p := 2 ^ 448 - 2 ^ 224 - 1, a := 1, d := 2 ^ 448 - 2 ^ 224 - 1 - 39081
      bx := 0x4f1970c66bed0ded221d15a622bf36da9e146570470f1767ea6de324a3d3a46412ae1af72ab66511433b80e18b00938e2626a82bc70cc05e
      by' := 0x693f46716eb6bc248876203756c9c7624bea73736ca3984087789c1e05a0c2d73ad3ff1ce67c39c4fdbd132c4ed7c8ad9808795bf230fa14
      n := 2 ^ 446 - 13818066809895115352007386748515426880336692474882178609894547503885, c := 2, len := 57 }

def EdCurve.add (e : EdCurve) (q r : Nat × Nat) : Nat × Nat :=
  let t := e.d * q.1 % e.p * r.1 % e.p * q.2 % e.p * r.2 % e.p
  (modDiv e.p (q.1 * r.2 + q.2 * r.1) (1 + t), modDiv e.p (modSub e.p (q.2 * r.2) (e.a * q.1 * r.1)) (modSub e.p 1 t))

/-- k times a point, over the low `m` bits of k. -/
def EdCurve.mul (e : EdCurve) : Nat → Nat → Nat × Nat → Nat × Nat
  | 0, _, _ => (0, 1)
  | m + 1, k, q => let rest := e.mul m (k / 2) (e.add q q)
                   if k % 2 = 1 then e.add q rest else rest

def EdCurve.times (e : EdCurve) (k : Nat) (q : Nat × Nat) : Nat × Nat := e.mul 460 k q
def EdCurve.base (e : EdCurve) : Nat × Nat := (e.bx, e.by')

/-- An encoded point: y with the sign of x in its top bit. -/
def EdCurve.encode (e : EdCurve) (q : Nat × Nat) : Bytes := toLe e.len (q.2 + q.1 % 2 * 2 ^ (8 * e.len - 1))
def EdCurve.yOf (e : EdCurve) (b : Bytes) : Nat := leNat (fit e.len b) % 2 ^ (8 * e.len - 1)

/-- A square root modulo p, if there is one: p ≡ 5 (mod 8) or p ≡ 3 (mod 4). -/
def EdCurve.root (e : EdCurve) (x : Nat) : Option Nat :=
  let r := modPow e.p 448 x (if e.p % 4 = 3 then (e.p + 1) / 4 else (e.p + 3) / 8)
  let r' := r * modPow e.p 448 2 ((e.p - 1) / 4) % e.p
  if r ^ 2 % e.p = x then some r else if r' ^ 2 % e.p = x then some r' else none

/-- The point that an encoding with y below p gives. -/
def EdCurve.decode (e : EdCurve) (b : Bytes) : Option (Nat × Nat) :=
  let y := e.yOf b
  let sign := leNat (fit e.len b) / 2 ^ (8 * e.len - 1)
  if e.p ≤ y then none
  else
    match e.root (modDiv e.p (modSub e.p (y ^ 2) 1) (modSub e.p (e.d * y ^ 2) e.a)) with
    | none => none
    | some x => if x = 0 ∧ sign = 1 then none else some (if x % 2 = sign then x else e.p - x, y)

/-- A public key as R364 and R379 judge it. -/
def EdCurve.keyFault (e : EdCurve) (b : Bytes) : Option (Status × Option Nat) :=
  if e.p ≤ e.yOf b then some (.inputRange, some 0x0711)
  else
    match e.decode b with
    | none => some (.pointInvalid, none)
    | some q => if e.times (2 ^ e.c) q = (0, 1) then some (.pointInvalid, none) else none

/-- The hash of RFC 8032: SHA-512, or 114 bytes of SHAKE256. -/
def edHash (alg : Nat) (b : Bytes) : Bytes := if alg = 0x10 then hashFn 0x04 0 b else xofFn 0x19 114 [] [] b

/-- The prefix dom2 or dom4 of a variant and a context. -/
def edDom (d : Desc) (ctx : Bytes) : Bytes :=
  let tail : Bytes := [if d.variant = 2 then 1 else 0, BitVec.ofNat 8 ctx.length] ++ ctx
  if d.algN = 0x11 then ascii "SigEd448" ++ tail
  else if d.variant = 0 then []
  else ascii "SigEd25519 no Ed25519 collisions" ++ tail

/-- The secret scalar and the prefix of a seed, and the public key. -/
def edSecret (alg : Nat) (seed : Bytes) : Nat × Bytes :=
  let h := edHash alg seed
  (if alg = 0x10 then leNat (h.take 32) % 2 ^ 254 / 8 * 8 + 2 ^ 254 else leNat (h.take 57) % 2 ^ 447 / 4 * 4 + 2 ^ 447, h.drop (edCurve alg).len)
def edPublic (alg : Nat) (seed : Bytes) : Bytes :=
  let e := edCurve alg
  e.encode (e.times (edSecret alg seed).1 e.base)

/-- An EdDSA signature. -/
def edSign (d : Desc) (seed ctx m : Bytes) : Bytes :=
  let e := edCurve d.algN
  let (a, tail) := edSecret d.algN seed
  let r := leNat (edHash d.algN (edDom d ctx ++ tail ++ m)) % e.n
  let big := e.encode (e.times r e.base)
  let k := leNat (edHash d.algN (edDom d ctx ++ big ++ edPublic d.algN seed ++ m)) % e.n
  big ++ toLe e.len ((r + k * a) % e.n)

/-- An EdDSA signature is valid, by the cofactor equation (R379). -/
def edVerify (d : Desc) (pub ctx sig m : Bytes) : Bool :=
  let e := edCurve d.algN
  let t := leNat (slice sig e.len e.len)
  match e.decode (sig.take e.len), e.decode pub with
  | some r, some q =>
    let k := leNat (edHash d.algN (edDom d ctx ++ sig.take e.len ++ pub ++ m)) % e.n
    let f := 2 ^ e.c
    decide (t < e.n) && decide (e.times f (e.times t e.base) = e.add (e.times f r) (e.times f (e.times k q)))
  | _, _ => false

/-! ### The encodings of RSA (R369, R370; RFC 8017) -/

/-- MGF1 with the request's hash. -/
def mgf1 (alg : Nat) (seed : Bytes) (n : Nat) : Bytes :=
  ((numsFrom 0 (ceilDiv n (hashLen alg 0))).flatMap (fun i => hashFn alg 0 (seed ++ toBe 4 i))).take n

/-- The bytes of M′, whose digest is H. -/
def pssHash (alg : Nat) (mHash salt : Bytes) : Bytes := hashFn alg 0 (zeros 8 ++ mHash ++ salt)

/-- EMSA-PSS encoding into k bytes, of which the top bit is clear. -/
def pssEncode (alg k : Nat) (mHash salt : Bytes) : Bytes :=
  let h := pssHash alg mHash salt
  let db := zeros (k - salt.length - h.length - 2) ++ 1 :: salt
  let masked := xorBytes db (mgf1 alg h db.length)
  (match masked with
   | [] => []
   | b :: bs => (b &&& 0x7F) :: bs) ++ h ++ [0xBC]

/-- EMSA-PSS verification of an encoded message of k bytes. -/
def pssOk (alg k sLen : Nat) (mHash em : Bytes) : Bool :=
  let hLen := hashLen alg 0
  let n := k - hLen - 1
  let h := slice em n hLen
  let db := xorBytes (em.take n) (mgf1 alg h n)
  let db := match db with
    | [] => []
    | b :: bs => (b &&& 0x7F) :: bs
  let salt := db.drop (n - sLen)
  decide (hLen + sLen + 2 ≤ k) && em.getLast? == some 0xBC && decide (byteAt em 0 < 0x80) &&
  allZero (db.take (n - sLen - 1)) && decide (byteAt db (n - sLen - 1) = 1) && pssHash alg mHash salt == h

/-- EME-OAEP encoding of a message into k bytes. -/
def oaepEncode (alg k : Nat) (msg label seed : Bytes) : Bytes :=
  let hLen := hashLen alg 0
  let db := hashFn alg 0 label ++ zeros (k - msg.length - 2 * hLen - 2) ++ 1 :: msg
  let maskedDb := xorBytes db (mgf1 alg seed db.length)
  0 :: (xorBytes seed (mgf1 alg maskedDb hLen) ++ maskedDb)

/-- EME-OAEP decoding of k bytes; none where it fails at any step. -/
def oaepDecode (alg k : Nat) (em label : Bytes) : Option Bytes :=
  let hLen := hashLen alg 0
  let maskedDb := em.drop (1 + hLen)
  let seed := xorBytes (slice em 1 hLen) (mgf1 alg maskedDb hLen)
  let db := xorBytes maskedDb (mgf1 alg seed (k - hLen - 1))
  let rest := (db.drop hLen).dropWhile (· == 0)
  if byteAt em 0 = 0 ∧ db.take hLen = hashFn alg 0 label ∧ rest.head? = some 1 then some (rest.drop 1) else none

end Sys2Proof.Machine
end

