-- ==== Sys2Proof/Machine/OpsSym.lean ====
section
/-!
DEFINITION. The cipher cores: data opcodes, berth setup, sealing and release, suspension for urgent work
(R239 to R274, R558).
-/
namespace Sys2Proof.Machine

/-- The blocks counter of a core (SYM_BLOCKS). -/
def State.addBlocks (s : State) (core n : Nat) : State :=
  s.setReg .symBlocks (s.reg .symBlocks core + BitVec.ofNat 32 n) core

/-! ### A segment of a message -/

/-- What a segment works on: key, chaining state before it, IV block, AAD, data, and the counts of the message so far. -/
structure Segment where
  key : Bytes
  /-- CB, ACC with its two top bits, AUXK and HSUB. -/
  cb : Bytes
  acc : Bytes
  accTop : Nat
  auxk : Bytes
  hsub : Bytes
  iv : Bytes
  aad : Bytes
  data : Bytes
  blocks : Nat
  aadBytes : Nat
  deriving DecidableEq, Repr

/-- What a core reads of PARAM: INIT, FINAL and IVGEN; CTRW in CTR mode; and TAGLEN where it is used, under FINAL by the opcodes that make or
check a tag (R248, R253). -/
def Desc.segmentParam (d : Desc) : Nat :=
  256 * fld d.param 10 8 + (if d.mode = 2 then 2 ^ 14 * d.ctrw else 0) +
  (if d.final ∧ !(d.opIs .encrypt || d.opIs .decrypt) then d.tagLen else 0)

/-- The inputs of the cited standards for a segment. -/
def Segment.input (g : Segment) (d : Desc) : List Bytes :=
  [[d.opcode, d.alg] ++ toLe 4 d.segmentParam, g.key, fit 16 g.cb ++ fit 16 g.acc ++ toLe 1 g.accTop ++ fit 32 g.auxk ++ fit 16 g.hsub,
   g.iv, g.aad, g.data, toLe 8 g.blocks ++ toLe 8 g.aadBytes]

def Segment.text (g : Segment) (d : Desc) : Bytes := if d.isMac then [] else fit g.data.length (Config.std .symOut (g.input d))
def Segment.tag (g : Segment) (d : Desc) : Bytes := fit d.tagLen (Config.std .symTag (g.input d))

/-- The IV block breaks the layout of its mode (R251). -/
def ivBad (mode : Nat) (iv : Bytes) : Bool :=
  match mode with
  | 3 | 7 | 8 => !allZero (slice iv 12 4)
  | 4 =>
    let n := byteAt iv 0
    decide (n < 7 ∨ 13 < n) || !allZero (slice iv (1 + n) (15 - n))
  | _ => false

/-- The content checks of a segment in order: lengths with a blob in the source, the IV block, the CCM payload, the XTS
key halves (R251 to R253). -/
def segmentFault (d : Desc) (src : Bytes) (g : Segment) (blob : Bool) : Option Fail :=
  if blob ∧ !symDataLenOk d src.length then some ⟨.badLength, none⟩
  else if 0 < d.ivLen ∧ ivBad d.mode g.iv then some ⟨.paramInvalid, none⟩
  else if d.mode = 4 ∧ 2 ^ (8 * (15 - byteAt g.iv 0)) ≤ g.data.length then some ⟨.badLength, none⟩
  else if d.mode = 5 ∧ g.key.take (g.key.length / 2) = g.key.drop (g.key.length / 2) then some ⟨.paramInvalid, none⟩
  else none

/-- The result of a segment (R252): the tag is checked under FINAL by AEAD_OPEN and MAC_VERIFY. -/
def segmentResult (d : Desc) (g : Segment) (src : Bytes) (iv12 : Bytes) (r : Req) : Result :=
  let text := g.text d
  let base : Result := { status := .ok, unit := r.unit, inst := r.inst }
  match d.op with
  | some .aeadSeal =>
    let out := iv12 ++ text ++ (if d.final then g.tag d else [])
    { base with out := out, outLen := out.length }
  | some .macGenerate =>
    let out := if d.final then g.tag d else []
    { base with out := out, outLen := out.length }
  | some .aeadOpen | some .macVerify =>
    if d.final ∧ g.tag d ≠ src.drop (src.length - d.srcTag) then { base with status := .verifyFailed, out := text, outLen := text.length }
    else { base with out := text, outLen := text.length }
  | _ => { base with out := text, outLen := text.length }

/-- The berth after a segment that ended with OK or VERIFY_FAILED (R260). -/
def Berth.afterSegment (b : Berth) (d : Desc) (g : Segment) : Berth :=
  let inp := g.input d
  let n := symBlocks d.mode g.data.length
  let acc := fit 17 (Config.std .symAcc inp)
  { b with
    cb := if d.mode = 2 then ctrAdvance (if d.init then g.iv else b.cb) d.ctrw n else fit 16 (Config.std .symCb inp)
    acc := acc.take 16, accTop := byteAt acc 16 % 4
    auxk := if d.mode = 8 then fit 32 (Config.std .symAuxk inp) else b.auxk
    msgBlocks := g.blocks + n, aadBytes := g.aadBytes
    state := if d.final then .idle else .openMsg, susp := [] }

/-- The generated IV of a berth (R262): from the DRBG, or the fixed field and the invocation value taken at the start. -/
def State.berthIv (s : State) (r : Req) (b : Berth) (invoc : Nat) : Bytes :=
  if b.policy = 2 then fit 4 b.fixed ++ (toLe 8 invoc).reverse else s.value r 12

/-- Produces what a segment gives. -/
def State.symFinish (s : State) (r : Req) (g : Segment) (src iv12 : Bytes) : State :=
  let d := r.desc
  let res := segmentResult d g src iv12 r
  let res := { res with out := r.bas.early ++ res.out.drop r.bas.early.length }
  let s := s.addBlocks r.inst (symBlocks d.mode g.data.length)
  let s := match r.berth with
    | some i => if s.poisoned r then s else
        (s.keepBefore r.id i).setBerth i ((s.berth i).afterSegment d g)
    | none => s
  s.produce r.id res

/-- The generated IV of a request on a berth, empty without IVGEN. -/
def State.genIv (s : State) (r : Req) (b : Berth) : Bytes := if r.desc.ivgen then s.berthIv r b (r.stateIndex.getD b.invoc) else []

/-- The segment that a data opcode works on with a berth's state: `data` are its bytes, `iv12` its generated IV. -/
def Berth.segment (b : Berth) (r : Req) (iv12 data : Bytes) : Segment :=
  let d := r.desc
  { key := b.key.take (symKeyLen b.alg), cb := if d.init then [] else b.cb, acc := if d.init then [] else b.acc
    accTop := if d.init then 0 else b.accTop, auxk := b.auxk, hsub := b.hsub
    iv := if d.ivgen then iv12 ++ zeros 4 else r.aux.take d.ivLen
    aad := (r.aux.drop d.ivLen).take d.aadLen, data := data
    blocks := if d.init then 0 else b.msgBlocks, aadBytes := if d.init then d.aadLen else b.aadBytes }

/-- A data opcode on a berth. -/
def State.symOnBerth (s : State) (r : Req) (i : Nat) (src : Bytes) : State :=
  let d := r.desc
  let b := s.berth i
  let s' := if d.ivgen ∧ b.policy ≠ 2 then s.drawn else s
  let iv12 := s.genIv r b
  let g := b.segment r iv12 (src.take (src.length - d.srcTag))
  match segmentFault d src g false with
  | some f => s.failOp r.id f
  | none => (s'.cacheKey (s.physical 1 r.inst) { berth := true, index := i, gen := b.gen, owner := r.ptn }).symFinish r g src iv12

/-- What a data opcode asks of its key. -/
def Desc.symNeed (d : Desc) (use : Nat) : KeyNeed :=
  { usages := [use], lens := [symKeyLen d.algN], holdLen := some (symKeyLen d.algN) }

/-- The segment of a request that takes its key from KEY_H. -/
def Req.keySegment (r : Req) (key data : Bytes) : Segment :=
  { key := key, cb := [], acc := [], accTop := 0, auxk := [], hsub := [], iv := r.aux.take r.desc.ivLen
    aad := (r.aux.drop r.desc.ivLen).take r.desc.aadLen, data := data, blocks := 0, aadBytes := r.desc.aadLen }

/-- A data opcode that takes its key from KEY_H (R249, R254). -/
def State.symWithKey (s : State) (r : Req) (use : Nat) : State :=
  let d := r.desc
  s.withKey r (d.symNeed use) (fun s m src =>
    let g := r.keySegment m.bytes (src.take (src.length - d.srcTag))
    match segmentFault d src g (decide (handleType d.keyH = 3)) with
    | some f => s.failOp r.id f
    | none =>
      match counterFault {} d 0 g.iv g.data.length with
      | some c => s.failOp r.id ⟨.counterExhausted, some c⟩
      | none => (s.cacheSlot r m).symFinish r g src [])

/-- The core works on the data that have arrived: all but the last block of them leave it, once no content check fails. DESIGN CHOICE: the
command that ends the operation, given while its item is incomplete, is what moves it on; log entry 130. -/
def State.symEmit (s : State) (r : Req) (g : Bytes → Segment) (iv12 src : Bytes) (blob : Bool) : State :=
  let d := r.desc
  let whole := d.srcLen.toNat - (if blob then r.blobLen else 0) - d.srcTag
  let n := (min src.length whole) - 16
  if (segmentFault d (zeros (whole + d.srcTag)) (g (zeros whole)) blob).isSome then s
  else if r.berth.isNone ∧ (counterFault {} d 0 (g []).iv whole).isSome then s
  else s.emit r (iv12 ++ (g (src.take n)).text d)

/-- A data opcode whose source arrives in parts. -/
def State.symStream (s : State) (r : Req) (use : Nat) : State :=
  s.underRoots r (fun s r =>
    match r.berth with
    | some i =>
      let iv12 := s.genIv r (s.berth i)
      s.symEmit r ((s.berth i).segment r iv12) iv12 r.laneSrc false
    | none => s.withKey r (r.desc.symNeed use) (fun s m src => s.symEmit r (r.keySegment m.bytes) [] src (decide (handleType r.desc.keyH = 3))))

/-- ENCRYPT, DECRYPT, AEAD_SEAL, AEAD_OPEN, MAC_GENERATE and MAC_VERIFY (R247 to R253). -/
def State.symData (s : State) (rid : Nat) (op : Op) (use : Nat) : State :=
  match (s.findReq rid).filter (fun r => r.streams op) with
  | some r => s.symStream r use
  | none =>
    s.runOp rid op (fun s r =>
      match r.berth with
      | some i =>
        match s.srcOf r with
        | .error f => s.failOp rid f
        | .ok src => s.symOnBerth r i src
      | none => s.symWithKey r use)

/-! ### BERTH_SETUP (R261) -/

/-- The parameter block of a setup: DIR, POLICY, FIXED, MSG_LIMIT and INVOC; none when it breaks the rules. -/
structure SetupParams where
  dir : Nat := 2
  policy : Nat := 0
  fixed : Bytes := zeros 4
  limit : Nat := 2 ^ 64 - 1
  invoc : Nat := 0
  deriving DecidableEq, Repr

def setupParams (mode : Nat) (b : Bytes) : Option SetupParams :=
  if b.isEmpty then some {}
  else
    let dir := byteAt b 0
    let pol := byteAt b 1
    let lim := le64 b 8
    if 2 < dir ∨ 2 < pol ∨ !allZero (slice b 2 2) ∨ !allZero (slice b 0x18 8) ∨
        (pol ≠ 2 ∧ (!allZero (slice b 4 4) ∨ le64 b 0x10 ≠ 0)) ∨
        (pol ≠ 0 ∧ ((mode ≠ 3 ∧ mode ≠ 8) ∨ dir ≠ 0)) ∨ (pol = 1 ∧ 2 ^ 32 < lim) then none
    else some {
      dir := dir, policy := pol, fixed := slice b 4 4, invoc := le64 b 0x10
      limit := if lim ≠ 0 then lim else if pol = 1 then 2 ^ 32 else 2 ^ 64 - 1 }

/-- The usage class that BERTH_SETUP asks for (R254): none for DIR BOTH, which takes a hold's key only. -/
def setupUsages (mode dir : Nat) : List Nat :=
  if mode = 6 ∨ mode = 7 then [usSign] else if dir = 0 then [usEncrypt] else if dir = 1 then [usDecrypt] else []

/-- The berth that an opcode works on: the one named, or one allocated for BERTH_H = 0 (R261). -/
def State.berthTarget (s : State) (r : Req) : Except Fail (Nat × Bool) :=
  match r.berth with
  | some i => .ok (i, false)
  | none =>
    match s.allocBerth r.ptn with
    | some i => .ok (i, true)
    | none => .error ⟨.resourceBusy, none⟩

/-- The next generation of a berth (R257): it moves at every setup, seal-in and release. -/
def State.nextBerthGen (s : State) (i : Nat) : W32 := getKey 0 s.berthGens i + 1

/-- Puts a whole content into a berth. -/
def State.fillBerth (s : State) (i : Nat) (b : Berth) : State :=
  let g := s.nextBerthGen i
  let s := ((s.setBerth i { b with gen := g }).clearRoundKeys true i).freeAreas i
  { s with berthGens := setKey 0 s.berthGens i g }

def State.berthSetup (s : State) (rid : Nat) : State :=
  s.runOp rid .berthSetup (fun s r =>
    let d := r.desc
    match setupParams d.mode r.aux with
    | none => s.failOp rid ⟨.paramInvalid, none⟩
    | some p =>
      let n := symKeyLen d.algN
      s.withKey r { usages := setupUsages d.mode p.dir, lens := [n], holdLen := some n } (fun s m _ =>
        match s.berthTarget r with
        | .error f => s.failOp rid f
        | .ok (i, fresh) =>
          let s := if fresh then s.drawn else s
          let sub := fit 48 (Config.std .symSub [[d.alg], m.bytes])
          let b : Berth := {
            state := .idle, owner := r.ptn, rootReal := !s.pins.dbgEn, dir := p.dir, policy := p.policy, alg := d.algN
            msgLimit := p.limit, invoc := p.invoc, fixed := p.fixed, key := fit 64 m.bytes
            hsub := if d.mode = 3 ∨ d.mode = 6 ∨ d.mode = 7 then sub.take 16 else zeros 16
            cb := zeros 16, acc := zeros 16, auxk := if d.mode = 6 then sub.drop 16 else zeros 32 }
          let s := if d.mode = 3 ∨ d.mode = 6 ∨ d.mode = 7 then s.cacheSlot r m else s
          let s := if s.poisoned r then s else (s.keepBefore rid i).fillBerth i b
          s.succeed rid [] (berthHandle i)))

/-! ### Sealing and release (R263 to R265) -/

/-- A sealed berth (R264). -/
def State.berthBlob (s : State) (r : Req) (b : Berth) (seq : Nat) (iv : Bytes) : Bytes :=
  let aad := toLe 4 1 ++ toLe 1 r.ptn ++ toLe 1 (b2n b.rootReal) ++ zeros 2 ++ toLe 8 seq ++ iv ++ zeros 4
  let key := s.sealKey r
  let body := fit 256 (Config.std .gcmText [key, iv, aad, b.image])
  aad ++ body ++ fit 16 (Config.std .gcmTag [key, iv, aad, body])

/-- BERTH_SEAL_OUT: the berth is freed once the last write of the blob is accepted (R264). -/
def State.berthSealOut (s : State) (rid : Nat) : State :=
  s.runOp rid .berthSealOut (fun s r =>
    match r.berth with
    | none => s.failOp rid ⟨.berthInvalid, none⟩
    | some i =>
      let n := getKey 0 s.seals r.ptn + 1
      let iv := s.value r 12
      let s := if 0x91 ≤ (s.berth i).alg then (s.freeAreas i).clearLink i else s
      let out := s.berthBlob r (s.berth i) n iv
      let s : State := { s.drawn.keepBefore rid i with seals := setKey 0 s.seals r.ptn n }
      s.succeed rid out)

/-- BERTH_SEAL_IN (R265). The image has no room for the detail code of an EXHAUSTED berth, which is a free value. -/
def State.berthSealIn (s : State) (rid : Nat) : State :=
  s.runOp rid .berthSealIn (fun s r =>
    match s.srcOf r with
    | .error f => s.failOp rid f
    | .ok src =>
      let aad := src.take 0x20
      let key := s.sealKey r
      let body := slice src 0x20 256
      if le32 src 0 ≠ 1 ∨ byteAt src 5 > 1 ∨ !allZero (slice src 6 2) ∨ !allZero (slice src 0x1C 4) then
        s.failOp rid ⟨.paramInvalid, none⟩
      else if byteAt src 4 ≠ r.ptn ∨
          fit 16 (Config.std .gcmTag [key, slice src 0x10 12, aad, body]) ≠ slice src 0x120 16 then
        s.failOp rid ⟨.berthInvalid, none⟩
      else
        match s.allocBerth r.ptn with
        | none => s.failOp rid ⟨.resourceBusy, none⟩
        | some i =>
          let b := Berth.ofImage (fit 256 (Config.std .gcmPlain [key, slice src 0x10 12, aad, body]))
          let code := 1 + s.drawn.pick % 5
          let s := if s.poisoned r then s.drawn.drawn else (s.drawn.drawn.keepBefore rid i).fillBerth i { b with owner := r.ptn, exhaust := code }
          s.succeed rid [] (berthHandle i))

/-- BERTH_RELEASE (R263). -/
def State.berthRelease (s : State) (rid : Nat) : State :=
  s.runOp rid .berthRelease (fun s r =>
    match r.berth with
    | none => s.failOp rid ⟨.berthInvalid, none⟩
    | some i => (if s.poisoned r then s else (s.keepBefore rid i).freeBerth i).succeed rid [])

/-! ### BRT_CTRL (R258, R267) -/

def State.brtInvalidate (s : State) (p : Nat) : State :=
  ((s.berths.filter (fun e => e.2.owner = p && e.2.state != .free)).map (·.1)).foldl (fun s i => s.loseBerth i .berthInvalid) s

def State.brtRelease (s : State) (p : Nat) : State :=
  ((s.berths.filter (fun e => e.2.owner = p && e.2.state == .invalid)).map (·.1)).foldl State.freeBerth s

/-- The lane's input has reached its weir level (R225); a request without a lane needs none. -/
def Req.weirReached (r : Req) : Bool := r.bas.lane.isNone || (r.bas.granted && (decide (r.weirLevel ≤ r.occIn) || decide (0 < r.bas.taken)))

/-! ### The commands -/

def execEncrypt (rid : Nat) (s : State) : Host.Outcome State Fault Refusal := s.run (fun s => s.symData rid .encrypt usEncrypt)
def execDecrypt (rid : Nat) (s : State) : Host.Outcome State Fault Refusal := s.run (fun s => s.symData rid .decrypt usDecrypt)
def execAeadSeal (rid : Nat) (s : State) : Host.Outcome State Fault Refusal := s.run (fun s => s.symData rid .aeadSeal usEncrypt)
def execAeadOpen (rid : Nat) (s : State) : Host.Outcome State Fault Refusal := s.run (fun s => s.symData rid .aeadOpen usDecrypt)
def execMacGenerate (rid : Nat) (s : State) : Host.Outcome State Fault Refusal :=
  s.run (fun s => s.symData rid .macGenerate usSign)
def execMacVerify (rid : Nat) (s : State) : Host.Outcome State Fault Refusal := s.run (fun s => s.symData rid .macVerify usSign)
def execBerthSetup (rid : Nat) (s : State) : Host.Outcome State Fault Refusal := s.run (fun s => s.berthSetup rid)
def execBerthSealOut (rid : Nat) (s : State) : Host.Outcome State Fault Refusal := s.run (fun s => s.berthSealOut rid)
def execBerthSealIn (rid : Nat) (s : State) : Host.Outcome State Fault Refusal := s.run (fun s => s.berthSealIn rid)
def execBerthRelease (rid : Nat) (s : State) : Host.Outcome State Fault Refusal := s.run (fun s => s.berthRelease rid)

end Sys2Proof.Machine
end

