-- ==== Sys2Proof/Machine/OpsHash.lean ====
section
/-!
DEFINITION. The hash cores: digests, XOFs, MACs, key derivation and SLH-DSA (R280 to R290).
-/
namespace Sys2Proof.Machine

/-- The calls counter of a core (HSH_CALLS). How many calls an operation makes is a free value. -/
def State.hashCalls (s : State) (r : Req) : State :=
  if r.unit = .hsh then s.drawn.setReg .hshCalls (s.reg .hshCalls r.inst + BitVec.ofNat 32 s.pick) r.inst else s

/-- What a standard's function is told of a request besides its inputs. -/
def Desc.head (d : Desc) : Bytes := [d.opcode, d.alg] ++ toLe 4 d.param.toNat

/-! ### Digests and XOFs (R280, R281) -/

def State.hashOp (s : State) (rid : Nat) : State :=
  s.runOp rid .hash (fun s r =>
    match s.srcOf r with
    | .error f => s.failOp rid f
    | .ok src => (s.hashCalls r).succeed rid (hashFn r.desc.algN (fld r.desc.param 8 0) src))

/-- The function name and the customization string of a cSHAKE request; none when NLEN reaches beyond AUX_LEN (R281). -/
def cshakeStrings (aux : Bytes) : Option (Bytes × Bytes) :=
  if aux.isEmpty then some ([], [])
  else if aux.length < 2 + le16 aux 0 then none
  else some (slice aux 2 (le16 aux 0), aux.drop (2 + le16 aux 0))

def State.xofOp (s : State) (rid : Nat) : State :=
  s.runOp rid .xof (fun s r =>
    match s.srcOf r, (if 0x1A ≤ r.desc.algN then cshakeStrings r.aux else some ([], [])) with
    | .error f, _ => s.failOp rid f
    | _, none => s.failOp rid ⟨.badLength, none⟩
    | .ok src, some (n, t) => (s.hashCalls r).succeed rid (xofFn r.desc.algN r.desc.hashOut n t src))

/-! ### MACs (R280 to R282) -/

/-- The tag of a MAC opcode over a message. -/
def macTag (d : Desc) (key msg aux : Bytes) : Bytes :=
  if isKmac d.algN then kmacFn d.algN (bitOf d.param 31) d.macLen key msg aux else (hmacFn d.algN key msg).take d.macLen

def macNeed (d : Desc) : KeyNeed :=
  { usages := [usSign], lens := numsFrom 1 64, holdLen := some (if isKmac d.algN then 32 else hashLen d.algN 0) }

def State.macGenerate (s : State) (rid : Nat) (op : Op) : State :=
  s.runOp rid op (fun s r => s.withKey r (macNeed r.desc) (fun s m src =>
    (s.hashCalls r).succeed rid (macTag r.desc m.bytes src r.aux)))

def State.macVerify (s : State) (rid : Nat) (op : Op) : State :=
  s.runOp rid op (fun s r => s.withKey r (macNeed r.desc) (fun s m src =>
    let n := r.desc.macLen
    if src.length < n then s.failOp rid ⟨.badLength, none⟩
    else
      let k := src.length - n
      (s.hashCalls r).verdict rid (macTag r.desc m.bytes (src.take k) r.aux == src.drop k)))

/-! ### Key derivation (R283 to R285) -/

/-- The length fields of an auxiliary buffer reach beyond it, its two zero bytes are not zero, or a length breaks a rule
of its opcode: the first status that applies. -/
def kdfAuxFault (o : Op) (d : Desc) (aux : Bytes) : Option Fail :=
  let mode := fld d.param 31 30
  let a := le16 aux 0
  let b := le16 aux 2
  match o with
  | .hkdf =>
    if aux.length < 4 then some ⟨.badLength, none⟩ else if b ≠ 0 then some ⟨.paramInvalid, none⟩
    else if aux.length < 4 + a then some ⟨.badLength, none⟩ else none
  | .hkdfExpand => if 255 * hashLen d.algN 0 < fld d.param 9 0 then some ⟨.badLength, none⟩ else none
  | .kdf108 =>
    if aux.length < 4 then some ⟨.badLength, none⟩ else if b ≠ 0 then some ⟨.paramInvalid, none⟩
    else if aux.length < 4 + a then some ⟨.badLength, none⟩
    else if !isKmac d.algN ∧ mode ≠ 1 ∧ a ≠ 0 then some ⟨.paramInvalid, none⟩ else none
  | .kdf56cOneStep =>
    if aux.length < 4 then some ⟨.badLength, none⟩ else if b ≠ 0 then some ⟨.paramInvalid, none⟩
    else if aux.length < 4 + a then some ⟨.badLength, none⟩
    else if mode = 0 ∧ a ≠ 0 then some ⟨.paramInvalid, none⟩ else none
  | .kdf56cTwoStep =>
    if aux.length < 4 ∨ aux.length < 4 + a + b then some ⟨.badLength, none⟩
    else if mode ≠ 1 ∧ b ≠ 0 then some ⟨.paramInvalid, none⟩
    else if isCmac d.algN ∧ a ≠ 0 ∧ a ≠ symKeyLen (d.algN % 16) then some ⟨.badLength, none⟩ else none
  | _ => none

/-- An input key is shorter than its opcode requires, or is no key of the CMAC's cipher (R283 to R285). -/
def kdfKeyShort (o : Op) (d : Desc) (key : Bytes) : Bool :=
  match o with
  | .hkdfExpand => decide (key.length < hashLen d.algN 0)
  | .kdf108 => isCmac d.algN && decide (key.length ≠ symKeyLen (d.algN % 16))
  | _ => false

/-- Gives a derived key to its target: the hold of HOLD_OUT, or the object that RESULT_H names (R283, R421). -/
def State.giveDerived (s : State) (r : Req) (out : Bytes) (kind : Nat) (usages : List Nat) : State :=
  if r.desc.holdOut then s.succeed r.id out
  else
    match s.resultFault r kind usages out.length with
    | some st => s.failOp r.id ⟨st, none⟩
    | none => (s.putTarget r out).succeed r.id [] ((s.resolve r r.desc.resultH).getD 0)

def State.kdfOp (s : State) (rid : Nat) (op : Op) : State :=
  s.runOp rid op (fun s r => s.withKey r { usages := [usDerive] } (fun s m _ =>
    let d := r.desc
    if kdfKeyShort op d m.bytes then s.failOp rid ⟨.keyPolicy, none⟩
    else
      match kdfAuxFault op d r.aux with
      | some f => s.failOp rid f
      | none =>
        let s := if r.unit = .sym then (s.cacheSlot r m).addBlocks r.inst (ceilDiv d.hashOut 16) else s.hashCalls r
        s.giveDerived r (kdfFn op d m.bytes r.aux) 0 [1, 2, 3, 4, 5, 6]))

/-! ### SLH-DSA (R287 to R290) -/

/-- Result and public output of a generated key: the private part goes to RESULT_H, the rest to the destination. -/
def State.giveKeyPair (s : State) (r : Req) (priv pub : Bytes) (kind : Nat) (usages : List Nat) : State :=
  match s.resultFault r kind usages priv.length with
  | some st => s.failOp r.id ⟨st, none⟩
  | none => (s.putTarget r priv).succeed r.id pub ((s.resolve r r.desc.resultH).getD 0)

def State.slhKeygen (s : State) (rid : Nat) : State :=
  s.runOp rid .slhdsaKeygen (fun s r =>
    let n := slhN r.desc.algN
    let seeds := s.value r (3 * n)
    let s := s.drawn.hashCalls r
    let pub := seeds.drop (2 * n) ++ fit n (Config.std .slhPublic [r.desc.head, seeds])
    s.giveKeyPair r (seeds.take (2 * n) ++ pub) pub 0 [usSign])

def State.slhSign (s : State) (rid : Nat) : State :=
  s.runOp rid .slhdsaSign (fun s r =>
    let d := r.desc
    let n := slhN d.algN
    s.withKey r { usages := [usSign], lens := [4 * n], holdLen := some (4 * n), pair := decide (16 < n) } (fun s m src =>
      if !signedLenOk d src.length 0 then s.failOp rid ⟨.badLength, none⟩
      else
        let opt := if d.hedged then s.value r n else slice m.bytes (2 * n) n
        let s := (if d.hedged then s.drawn else s).hashCalls r
        s.succeed rid (fit (slhSig d.algN) (Config.std .slhSign [d.head, m.bytes, r.aux, src, opt]))))

def State.slhVerify (s : State) (rid : Nat) : State :=
  s.runOp rid .slhdsaVerify (fun s r =>
    match s.srcOf r with
    | .error f => s.failOp rid f
    | .ok src =>
      let n := slhN r.desc.algN
      let k := slhSig r.desc.algN
      (s.hashCalls r).verdict rid (Config.holds .slhVerify
        [r.desc.head, r.aux.take (2 * n), r.aux.drop (2 * n), src.take k, src.drop k]))

/-! ### The commands -/

def execHash (rid : Nat) (s : State) : Host.Outcome State Fault Refusal := s.run (fun s => s.hashOp rid)
def execXof (rid : Nat) (s : State) : Host.Outcome State Fault Refusal := s.run (fun s => s.xofOp rid)
def execHmacGenerate (rid : Nat) (s : State) : Host.Outcome State Fault Refusal := s.run (fun s => s.macGenerate rid .hmacGenerate)
def execHmacVerify (rid : Nat) (s : State) : Host.Outcome State Fault Refusal := s.run (fun s => s.macVerify rid .hmacVerify)
def execKmacGenerate (rid : Nat) (s : State) : Host.Outcome State Fault Refusal := s.run (fun s => s.macGenerate rid .kmacGenerate)
def execKmacVerify (rid : Nat) (s : State) : Host.Outcome State Fault Refusal := s.run (fun s => s.macVerify rid .kmacVerify)
def execHkdf (rid : Nat) (s : State) : Host.Outcome State Fault Refusal := s.run (fun s => s.kdfOp rid .hkdf)
def execHkdfExtract (rid : Nat) (s : State) : Host.Outcome State Fault Refusal := s.run (fun s => s.kdfOp rid .hkdfExtract)
def execHkdfExpand (rid : Nat) (s : State) : Host.Outcome State Fault Refusal := s.run (fun s => s.kdfOp rid .hkdfExpand)
def execKdf108 (rid : Nat) (s : State) : Host.Outcome State Fault Refusal := s.run (fun s => s.kdfOp rid .kdf108)
def execKdf56cOnestep (rid : Nat) (s : State) : Host.Outcome State Fault Refusal := s.run (fun s => s.kdfOp rid .kdf56cOneStep)
def execKdf56cTwostep (rid : Nat) (s : State) : Host.Outcome State Fault Refusal := s.run (fun s => s.kdfOp rid .kdf56cTwoStep)
def execSlhdsaKeygen (rid : Nat) (s : State) : Host.Outcome State Fault Refusal := s.run (fun s => s.slhKeygen rid)
def execSlhdsaSign (rid : Nat) (s : State) : Host.Outcome State Fault Refusal := s.run (fun s => s.slhSign rid)
def execSlhdsaVerify (rid : Nat) (s : State) : Host.Outcome State Fault Refusal := s.run (fun s => s.slhVerify rid)

end Sys2Proof.Machine
end

