-- ==== Sys2Proof/Machine/OpsHbs.lean ====
section
/-!
DEFINITION. LMS, HSS and XMSS: state blobs, index records, the high-water log, its scans and its compaction
(R291 to R303, R58 to R61).
-/
namespace Sys2Proof.Machine

/-! ### Keys and state blobs (R292 to R294) -/

/-- The kind of a stateful scheme: 1 LMS or HSS, 2 XMSS or XMSS^MT. -/
def hbsKind (alg : Nat) : Nat := if isLms alg then 1 else 2

/-- LIMIT of a key: 2^htotal. -/
def hbsLimit (alg : Byte) (params : Bytes) : Nat := 2 ^ hbsHeight alg.toNat params

/-- The body of a state blob after `index` leaves: the key's parameter codes, and the traversal state, whose length is the parameter
set's alone; a blob has at most 32,768 bytes (R293). DESIGN CHOICE: the codes stand first; log entry 111. -/
def hbsState (alg : Byte) (key params : Bytes) (index : Nat) : Bytes :=
  params ++ fit (min (32704 - params.length) (Config.size .hbsBlobBody [[alg], params])) (Config.std .hbsBlobBody [[alg], key, params, toLe 8 index])

/-- The blob keys K_ENC and K_MAC (R293). -/
def State.hbsBlobKeys (s : State) (r : Req) (keyId : Bytes) : Bytes := kmac256 (s.sealKey r) keyId 512 "P3 HBS STATE"

def hbsNonce (index : Nat) : Bytes := zeros 4 ++ (toLe 8 index).reverse

/-- A state blob (R293). -/
def State.hbsBlob (s : State) (r : Req) (kind : Nat) (keyId : Bytes) (index : Nat) (body : Bytes) : Bytes :=
  let kk := s.hbsBlobKeys r keyId
  let hdr := toLe 4 2 ++ toLe 1 r.ptn ++ toLe 1 kind ++ zeros 2 ++ keyId ++ toLe 8 index ++ hbsNonce index ++ toLe 4 body.length
  let enc := xorBytes body (kmac256 (kk.take 32) (hbsNonce index) (8 * body.length) "P3 HBS ENC")
  hdr ++ enc ++ kmac256 (kk.drop 32) (hdr ++ enc) 128 "P3 HBS TAG"

/-- The body of a blob, once its tag has been checked. -/
def State.hbsBody (s : State) (r : Req) (b : Bytes) : Bytes :=
  let keyId := slice b 8 16
  xorBytes (slice b 0x30 (le32 b 0x2C)) (kmac256 ((s.hbsBlobKeys r keyId).take 32) (hbsNonce (le64 b 0x18)) (8 * le32 b 0x2C) "P3 HBS ENC")

/-- The first two findings of R294 on a blob: form, then tag, owner and scheme. -/
def State.hbsBlobFault (s : State) (r : Req) (kind : Nat) (b : Bytes) : Option Fail :=
  let n := le32 b 0x2C
  if b.length ≠ 0x40 + n ∨ le32 b 0 ≠ 2 ∨ !allZero (slice b 6 2) ∨ slice b 0x20 12 ≠ hbsNonce (le64 b 0x18) then
    some ⟨.paramInvalid, some 0x0201⟩
  else if byteAt b 4 ≠ r.ptn ∨ byteAt b 5 ≠ kind ∨
      kmac256 ((s.hbsBlobKeys r (slice b 8 16)).drop 32) (b.take (0x30 + n)) 128 "P3 HBS TAG" ≠ b.drop (0x30 + n) then
    some ⟨.paramInvalid, some 0x0202⟩
  else none

/-- The parameter codes at the front of a blob's body: L and L pairs of types, or an OID (R292). -/
def hbsParams (alg : Byte) (body : Bytes) : Bytes := body.take (if isLms alg.toNat then 4 + 8 * min 8 (be32 body 0) else 4)

/-! ### Index records (R296, R300) -/

def State.hbsRec (s : State) (i : Nat) : HbsRec := s.keep.recs.getD i {}
def State.updRec (s : State) (i : Nat) (f : HbsRec → HbsRec) : State :=
  { s with keep := { s.keep with recs := modAt f i s.keep.recs } }

/-- The record of a KEY_ID. -/
def State.recOf (s : State) (keyId : Bytes) : Option Nat :=
  ((enumFrom 0 s.keep.recs).find? (fun e => e.2.state != 0 && e.2.keyId == keyId)).map (·.1)

/-- A record whose KEY_ID is held in a key slot (R300). -/
def State.recHeld (s : State) (i : Nat) : Bool :=
  s.keys.any (fun e => e.2.state == .valid && e.2.pair != 2 && s.recordOf e.1 == some i)

/-- A record for a new key: a FREE one, or the least recently used whose key stands in no slot (R300). -/
def State.recFor (s : State) : Option Nat :=
  match (enumFrom 0 s.keep.recs).find? (fun e => e.2.state == 0) with
  | some e => some e.1
  | none => ((enumFrom 0 s.keep.recs).filter (fun e => !s.recHeld e.1)).foldl (fun best e => match best with
      | none => some e.1
      | some b => if e.2.used < (s.hbsRec b).used then some e.1 else best) none

def State.putRec (s : State) (i : Nat) (x : HbsRec) : State :=
  { s with keep := { s.keep with recs := modAt (fun _ => { x with used := s.keep.useCount }) i s.keep.recs, useCount := s.keep.useCount + 1 } }

/-! ### The high-water log (R58 to R61, R297, R299) -/

/-- W of R297. -/
def State.hbsWindow (s : State) : Nat := clampN 16 1048576 (s.regF .hbsCfg 20 0)

/-- The log key (R299, R436, R438). -/
def State.logKey (s : State) : Bytes := kmac256 ((s.rootFor .log).getD []) s.deviceId 256 "P3 HBS LOG"

def words64 (b : Bytes) : List W64 := (numsFrom 0 (b.length / 8)).map (fun i => BitVec.ofNat 64 (le64 b (8 * i)))

/-- The six words of a log record (R299, R302). -/
def State.logWords (s : State) (magic kind gen : Nat) (keyId : Bytes) (high : Nat) : List W64 :=
  let b := toLe 8 (magic * 2 ^ 48 + kind * 2 ^ 40 + gen * 2 ^ 32) ++ fit 16 keyId ++ toLe 8 high ++ toLe 8 s.keep.logSeq
  words64 (b ++ (kmac256 s.logKey b 256 "").take 8)

/-- Hands a record to the mfs port; during a compaction it carries the new generation (R302). -/
def State.appendLog (s : State) (f : LogFor) (kind : Nat) (keyId : Bytes) (high : Nat) : State :=
  let gen := if s.keep.newRecords.isSome then (s.keep.logGen + 1) % 256 else s.keep.logGen
  let magic := if f = .commit then 0x5034 else 0x5033
  { s with
    hbs := { s.hbs with appends := s.hbs.appends ++ [{ purpose := f, high := high, gen := gen, words := s.logWords magic kind gen keyId high }] }
    keep := { s.keep with logSeq := s.keep.logSeq + 1 } }

/-- HBS_WINDOW_APPEND: the next window is reserved when the one in force runs low (R297). -/
def State.windowCheck (s : State) (i : Nat) : State :=
  let x := s.hbsRec i
  if x.state = 1 ∧ x.high - x.next ≤ s.hbsWindow / 8 ∧ x.high < x.limit ∧ !x.pending then
    (s.updRec i (fun x => { x with pending := true })).appendLog (.window x.keyId) x.kind x.keyId (min (x.high + s.hbsWindow) x.limit)
  else s

/-! ### Key generation (R301) -/

/-- The parameter codes of a keygen from its auxiliary buffer: their length and the types they name (R291, R292). -/
def hbsKeygenFault (d : Desc) (aux : Bytes) : Option Fail :=
  if isLms d.algN ∧ (be32 aux 0 = 0 ∨ 8 < be32 aux 0 ∨ (d.algN = 0x21 ∧ be32 aux 0 ≠ 1)) then some ⟨.paramInvalid, none⟩
  else if isLms d.algN ∧ aux.length ≠ 4 + 8 * be32 aux 0 then some ⟨.badLength, none⟩
  else if !hbsMakes d.algN aux then some ⟨.paramInvalid, none⟩
  else none

/-- The private key of a keygen, from what the towpath gave (R292). -/
def State.hbsPrivate (s : State) (r : Req) : Bytes :=
  let seed := s.value r (hbsSeedLen r.desc.algN r.aux)
  if isLms r.desc.algN then seed else seed ++ hbsRoot r.desc.alg r.aux seed

def State.hbsKeygen (s : State) (rid : Nat) (op : Op) : State :=
  s.runOp rid op (fun s r =>
    let d := r.desc
    let aux := r.aux
    if r.result.isSome then s
    else
      match hbsKeygenFault d aux with
      | some f => s.failOp rid f
      | none =>
        match s.resultFault r 2 [usSign] (hbsKeyLen d.algN aux), s.recFor with
        | some st, _ => s.failOp rid ⟨st, none⟩
        | none, none => s.failOp rid ⟨.resourceBusy, none⟩
        | none, some i =>
          if s.keep.carried = 2048 then s.failOp rid ⟨.resourceBusy, some 0x0211⟩
          else
            let priv := s.hbsPrivate r
            let s := s.drawn.hashCalls r
            let pub := hbsPublicKey d.alg priv aux
            let id := hbsKeyId pub
            let kind := hbsKind d.algN
            let out := pub ++ s.hbsBlob r kind id 0 (hbsState d.alg priv aux 0)
            if d.dstLen.toNat < out.length then s.failOp rid ⟨.badLength, none⟩
            else
              let lim := hbsLimit d.alg aux
              let s := s.putRec i {
                state := 1, keyId := id, owner := r.ptn, kind := kind, limit := lim, pending := true, alg := d.alg, params := aux }
              let slot := handleIndex ((s.resolve r d.resultH).getD 0)
              let s := if s.poisoned r then s else
                s.putKey slot { s.key slot with state := .valid, len := priv.length, recNo := i } priv ((s.key slot).pair == 1)
              let res : Result := {
                status := .ok, out := out, outLen := out.length, resultH := if s.poisoned r then 0 else slotHandle slot,
                unit := r.unit, inst := r.inst }
              (s.updReq rid (fun r => { r with result := some res })).appendLog (.keygen id rid) kind id (min s.hbsWindow lim))

/-! ### Signing (R294, R295, R298) -/

/-- The record number of a key that stands in a slot follows its record. -/
def State.linkRec (s : State) (m : KeyMat) (i : Nat) : State :=
  match m.slot with
  | none => s
  | some j => (s.slotsOf j).foldl (fun s j =>
      if (s.key j).recNo = i then s else s.rewriteSlot j { s.key j with recNo := i }) s

/-- Steps 3 to 5 of R298 with record i: the request takes its index, or waits for a window. -/
def State.hbsIssue (s : State) (r : Req) (i : Nat) : State :=
  let x := s.hbsRec i
  if x.state = 2 ∨ x.next = x.limit then
    (s.updRec i (fun x => { x with state := 2 })).failOp r.id ⟨.stateExhausted, none⟩
  else if x.high ≤ x.next then
    let s := s.windowCheck i
    { s with hbs := { s.hbs with waiters := s.hbs.waiters.filter (·.1 ≠ r.id) ++ [(r.id, x.keyId)] } }
  else
    ((s.putRec i { x with next := x.next + 1 }).updReq r.id (fun r => { r with stateIndex := some x.next })).windowCheck i

/-- Steps 6 and 7 of R298: the signature under index q, and the new blob. -/
def State.hbsGive (s : State) (r : Req) (q : Nat) (key params body msg : Bytes) : State :=
  let d := r.desc
  let s := s.hashCalls r
  s.succeed r.id (fit (hbsSigLen d.algN params) (Config.std .hbsSign [[d.alg], key, params, body, toLe 8 q, msg]) ++
    s.hbsBlob r (hbsKind d.algN) (slice r.aux 8 16) (q + 1) (fit body.length (hbsState d.alg key params (q + 1))))

/-- The key of a signing request: one slot of 40 or 48 bytes, or a pair (R288, R292). -/
def hbsNeed (alg : Nat) : KeyNeed :=
  if isLms alg then { usages := [usSign], kind := 2, lens := [40, 48] } else { usages := [usSign], kind := 2, lens := [96, 128], pair := true }

/-- HSS_SIGN and XMSS_SIGN come twice for a request: first it takes its index, then it is given the signature, and a stop may fall in
between (R298, R303). DESIGN CHOICE; log entry 112. -/
def State.hbsSign (s : State) (rid : Nat) (op : Op) : State :=
  s.runOp rid op (fun s r =>
    s.withKey r (hbsNeed r.desc.algN) (fun s m src =>
      let d := r.desc
      let b := r.aux
      let body := s.hbsBody r b
      let params := hbsParams d.alg body
      match r.stateIndex, s.hbsBlobFault r (hbsKind d.algN) b with
      | some q, _ => s.hbsGive r q m.bytes params body src
      | none, some f => s.failOp rid f
      | none, none =>
        let id := hbsKeyId (hbsPublicKey d.alg m.bytes params)
        if id ≠ slice b 8 16 then s.failOp rid ⟨.paramInvalid, some 0x0202⟩
        else if d.dstLen.toNat < hbsSigLen d.algN params + b.length then s.failOp rid ⟨.badLength, none⟩
        else
          match s.recOf id with
          | some i =>
            if (s.hbsRec i).next < le64 b 0x18 then s.failOp rid ⟨.paramInvalid, some 0x0203⟩
            else (s.linkRec m i).hbsIssue r i
          | none =>
            if s.hbs.unknown.contains id then
              ({ s with hbs := { s.hbs with unknown := s.hbs.unknown.filter (· ≠ id) } } : State).failOp rid ⟨.keyPolicy, some 0x0210⟩
            else if s.hbs.noRoom.contains id then
              ({ s with hbs := { s.hbs with noRoom := s.hbs.noRoom.filter (· ≠ id) } } : State).failOp rid ⟨.resourceBusy, none⟩
            else if s.hbs.scan.isSome then s
            else
              ({ s with hbs := { s.hbs with scan := some {
                state := 1, keyId := id, owner := r.ptn, kind := hbsKind d.algN, limit := hbsLimit d.alg params, alg := d.alg,
                params := params } } } : State).setB .hbsStatus 14 true))

/-- HSS_VERIFY and XMSS_VERIFY (R291, R292). -/
def State.hbsVerify (s : State) (rid : Nat) (op : Op) : State :=
  s.runOp rid op (fun s r =>
    match s.srcOf r with
    | .error f => s.failOp rid f
    | .ok src =>
      let d := r.desc
      let n := d.param.toNat
      if !hbsPubListed d.algN r.aux then s.failOp rid ⟨.paramInvalid, none⟩
      else if r.aux.length ≠ hbsPubLen d.algN r.aux then s.failOp rid ⟨.badLength, none⟩
      else
        match hbsSigFlaw d.algN r.aux (src.take n) with
        | some .unlisted => s.failOp rid ⟨.paramInvalid, none⟩
        | some .mismatch => s.failOp rid ⟨.verifyFailed, none⟩
        | none => (s.hashCalls r).verdict rid (Config.holds .hbsVerify [[d.alg], r.aux, src.take n, src.drop n]))

/-! ### The log's events (R59 to R61, R300, R302) -/

/-- The records of a log that is read from word 0: six words each (R299). -/
def logRecords : List W64 → List (List W64)
  | a :: b :: c :: d :: e :: f :: rest => [a, b, c, d, e, f] :: logRecords rest
  | _ => []

/-- What a record says: its kind, KEY_ID and HIGH; none with a wrong MAGIC or TAG, and none of a commit record (R300, R302). -/
def State.logMark (s : State) (x : List W64) : Option (Nat × Bytes × Nat) :=
  let b := x.flatMap (fun w => toLe 8 w.toNat)
  if le16 b 6 = 0x5033 ∧ slice b 40 8 = (kmac256 s.logKey (b.take 40) 256 "").take 8 then some (byteAt b 5, slice b 8 16, le64 b 24) else none

/-- The marks of a log. -/
def State.logMarks (s : State) (log : List W64) : List (Nat × Bytes × Nat) := (logRecords log).filterMap s.logMark

/-- The highest HIGH of a KEY_ID among the marks; none if it appears in none. -/
def highestOf (marks : List (Nat × Bytes × Nat)) (id : Bytes) : Option Nat :=
  match marks.filter (fun m => m.2.1 = id) with
  | [] => none
  | ms => some ((ms.map (·.2.2)).foldl max 0)

/-- A compaction begins: step 1 of R302, whose working table the pool supplies when it can. -/
def State.startCompact (s : State) : State :=
  if s.keep.newRecords.isSome ∨ s.keep.genRecords < 4096 then s
  else
    ({ s with keep := { s.keep with newRecords := some 0 }, hbs := { s.hbs with compact := some {} } } : State).setB .hbsStatus 13 true

/-- A compaction that a reset interrupted starts again from step 1 with the same generation (R302). -/
def State.resumeCompact (s : State) : State :=
  if s.keep.newRecords.isSome ∧ s.hbs.compact.isNone then
    ({ s with hbs := { s.hbs with compact := some {} } } : State).setB .hbsStatus 13 true
  else s

/-- The LOG_GEN of a valid record, and whether it is a commit record (R299, R302). -/
def State.logStamp (s : State) (x : List W64) : Option (Nat × Bool) :=
  let b := x.flatMap (fun w => toLe 8 w.toNat)
  if (le16 b 6 = 0x5033 ∨ le16 b 6 = 0x5034) ∧ slice b 40 8 = (kmac256 s.logKey (b.take 40) 256 "").take 8 then
    some (byteAt b 4, decide (le16 b 6 = 0x5034))
  else none

/-- After the loss of the keep domain, the first scan finds the generations again. Of two adjacent ones, the newer is current once its
commit record stands in the log, and else the one that a compaction was writing (R302). DEDUCED; log entry 106. -/
def State.relearnLog (s : State) (log : List W64) : State :=
  if !s.keep.logLost then s
  else
    let found := (logRecords log).filterMap s.logStamp
    let gens := found.map (·.1)
    let count (g : Nat) : Nat := (gens.filter (· = g)).length
    let known : State := { s with keep := { s.keep with logLost := false } }
    match gens.find? (fun g => !gens.contains ((g + 1) % 256)) with
    | none => known
    | some top =>
      let old := (top + 255) % 256
      if gens.contains old ∧ !found.contains (top, true) then
        ({ known with keep := { known.keep with logGen := old, genRecords := count old, newRecords := some (count top) } } : State).resumeCompact
      else { known with keep := { known.keep with logGen := top, genRecords := count top } }

/-- LOG_SCAN_DONE: the record of the key looked up is created from the highest mark found, or there is none (R300). -/
def State.logScanDone (s : State) (log : List W64) : State :=
  match s.hbs.scan with
  | none => s
  | some x =>
    let s := s.relearnLog log
    let marks := s.logMarks log
    let s := ({ s with hbs := { s.hbs with scan := none } } : State).setB .hbsStatus 14 false
    match highestOf marks x.keyId with
    | none => { s with hbs := { s.hbs with unknown := s.hbs.unknown ++ [x.keyId] } }
    | some high =>
      match s.recFor with
      | none => { s with hbs := { s.hbs with noRoom := s.hbs.noRoom ++ [x.keyId] } }
      | some i => s.putRec i { x with next := high, high := high }

/-- The working table of a compaction takes its cells in queue 0x7E1. -/
def State.tableCells (s : State) : State :=
  match s.hbs.compact with
  | none => s
  | some c =>
    if !c.cells.isEmpty ∨ !s.canGrant 0 192 then s
    else
      match s.takeCells 192 s.basin.free s.basin.next with
      | none => s
      | some (banks, free, next) =>
        ({ s with
          basin := { s.basin with free := free, next := next }
          hbs := { s.hbs with compact := some { c with cells := banks } } } : State).watermark 0x7E1 0 192

/-- The links of the working table are read; an uncorrectable one loses the table (R236). -/
def State.tableLinks (s : State) : State :=
  match lookupKey 0x7E1 s.basin.badLinks, s.hbs.compact with
  | some false, some c => s.fixLinks 0x7E1 (c.cells.headD 0)
  | some true, some c =>
    let t := s.loseLinks 0x7E1 c.cells
    ({ t with hbs := { t.hbs with compact := some { c with cells := [] } } } : State).dropTable
  | _, _ => s

/-- The words of the working table are read: one with a bad symbol is corrected with its event, and one with more loses the table, so the
compaction begins again (R234). -/
def State.tableWords (s : State) : State :=
  match s.hbs.compact with
  | none => s
  | some c =>
    let t := (c.bad.filter (fun e => !e.2)).foldl (fun t e => t.wordCorrected (c.cells.getD (e.1 / 8) 0)) s
    if c.bad.any (·.2) then t.dropTable
    else if c.bad.isEmpty then s
    else { t with hbs := { t.hbs with compact := some { c with bad := [] } } }

/-- The KEY_IDs of the marks that are not carried yet, each once. -/
def newIds (marks : List (Nat × Bytes × Nat)) (carried : List Bytes) : List Bytes :=
  marks.foldl (fun ids m => if ids.contains m.2.1 ∨ carried.contains m.2.1 then ids else ids ++ [m.2.1]) []

/-- Step 2 of R302 for one KEY_ID. -/
def State.carry (s : State) (marks : List (Nat × Bytes × Nat)) (id : Bytes) : State :=
  let own := (s.recOf id).map (fun i => (s.hbsRec i).high)
  s.appendLog (.carry id) (((marks.filter (fun m => m.2.1 = id)).getLast?.map (·.1)).getD 0) id
    (max ((highestOf marks id).getD 0) (own.getD 0))

/-- Step 3 of R302. -/
def State.commitLog (s : State) : State := s.appendLog .commit 0 [] 0

/-- COMPACTION_SCAN_DONE: one scan of the log has gathered a batch of up to 1,024 KEY_IDs with their highest marks (R302). -/
def State.compactScan (s : State) (log : List W64) : State :=
  let s := s.tableCells.tableLinks.tableWords
  match s.hbs.compact with
  | none => s
  | some c =>
    if !c.scanning ∨ c.cells.isEmpty then s
    else
      let marks := s.logMarks log
      let ids := newIds marks c.carried
      let batch := ids.take 1024
      let s : State := { s with hbs := { s.hbs with compact := some { c with
        scanning := false, carried := c.carried ++ batch, waiting := batch.length, last := decide (ids.length ≤ 1024) } } }
      if batch.isEmpty then s.commitLog else batch.foldl (fun s id => s.carry marks id) s

/-- A record of a compaction has been acknowledged. -/
def State.carried (s : State) : State :=
  match s.hbs.compact with
  | none => s
  | some c =>
    let c := { c with waiting := c.waiting - 1 }
    let s : State := { s with hbs := { s.hbs with compact := some { c with scanning := decide (c.waiting = 0) && !c.last } } }
    if c.waiting = 0 ∧ c.last then s.commitLog else s

/-- Step 4 of R302. -/
def State.compacted (s : State) : State :=
  match s.hbs.compact with
  | none => s
  | some c =>
    (({ s with
        keep := { s.keep with
          logGen := (s.keep.logGen + 1) % 256, genRecords := s.keep.newRecords.getD 0, newRecords := none, carried := c.carried.length }
        hbs := { s.hbs with compact := none } } : State).returnCells c.cells).setB .hbsStatus 13 false

/-- An append failed during a compaction: it starts again from step 1 with the same generation. -/
def State.compactAgain (s : State) : State :=
  match s.hbs.compact with
  | none => s
  | some c =>
    { s with hbs := { s.hbs with
        compact := some { c with scanning := true, carried := [], waiting := 0, last := false }
        appends := s.hbs.appends.filter (fun a => match a.purpose with | .carry _ => false | .commit => false | _ => true) } }

/-- The oldest record of the mfs port leaves it. -/
def State.popAppend (s : State) : State := { s with hbs := { s.hbs with appends := s.hbs.appends.drop 1 } }

/-- The record counts for its generation. -/
def State.countRecord (s : State) (gen : Nat) : State :=
  if gen = s.keep.logGen then { s with keep := { s.keep with genRecords := s.keep.genRecords + 1 } }
  else { s with keep := { s.keep with newRecords := s.keep.newRecords.map (· + 1) } }

/-- A window is acknowledged: HIGH takes its value, and requests that waited go on (R297). -/
def State.windowAcked (s : State) (id : Bytes) (high : Nat) : State :=
  let s : State := { s with hbs := { s.hbs with waiters := s.hbs.waiters.filter (·.2 ≠ id) } }
  match s.recOf id with
  | none => s
  | some i => s.updRec i (fun x => { x with high := max x.high high, pending := false })

/-- MFS_APPEND_ACK (R59, R297, R301, R302). DESIGN CHOICE: one that comes after the timeout of its record is taken for the record that
is waiting; log entry 87. -/
def State.appendAck (s : State) : State :=
  match s.hbs.appends with
  | [] => s
  | a :: _ =>
    let s := (s.popAppend.countRecord a.gen).setF .hbsStatus 31 16 (satAdd 0xFFFF (s.regF .hbsStatus 31 16) 1)
    let s := match a.purpose with
      | .window id => s.windowAcked id a.high
      | .keygen id rid =>
        let s := s.windowAcked id a.high
        match s.findReq rid with
        | some r => match r.phase, r.result with
          | .running, some res => s.produce rid res
          | _, _ => s
        | none => s
      | .carry _ => s.carried
      | .commit => s.compacted
    s.startCompact

/-- The keygen whose first window cannot be appended zeroizes the slots it wrote (R301). -/
def State.keygenFailed (s : State) (id : Bytes) (rid : Nat) : State :=
  let s := match s.recOf id with
    | some i => s.freeRecord i
    | none => s
  match s.findReq rid with
  | some r => match r.phase, r.result with
    | .running, some res =>
      let s := if res.resultH = 0 then s else s.clearSlot (handleIndex res.resultH)
      (s.updReq rid (fun r => { r with result := none })).failOp rid ⟨.resourceBusy, none⟩
    | _, _ => s
  | none => s

/-- MFS_APPEND_ERR and MFS_APPEND_TIMEOUT (R61): the requests that wait for the record complete with RESOURCE_BUSY. -/
def State.appendFail (s : State) : State :=
  match s.hbs.appends with
  | [] => s
  | a :: _ =>
    let s := (s.popAppend.setB .hbsStatus 15 true).event srcMfsAppend 0 0
    match a.purpose with
    | .window id =>
      let ws := s.hbs.waiters.filter (·.2 = id)
      let s : State := { s with hbs := { s.hbs with waiters := s.hbs.waiters.filter (·.2 ≠ id) } }
      let s := match s.recOf id with
        | some i => s.updRec i (fun x => { x with pending := false })
        | none => s
      ws.foldl (fun s w => match s.findReq w.1 with
        | some r => if r.phase = .running then s.failOp w.1 ⟨.resourceBusy, none⟩ else s
        | none => s) s
    | .keygen id rid => s.keygenFailed id rid
    | .carry _ | .commit => s.compactAgain

/-! ### The commands -/

def execHssKeygen (rid : Nat) (s : State) : Host.Outcome State Fault Refusal := s.run (fun s => s.hbsKeygen rid .hssKeygen)
def execXmssKeygen (rid : Nat) (s : State) : Host.Outcome State Fault Refusal := s.run (fun s => s.hbsKeygen rid .xmssKeygen)
def execHssSign (rid : Nat) (s : State) : Host.Outcome State Fault Refusal := s.run (fun s => s.hbsSign rid .hssSign)
def execXmssSign (rid : Nat) (s : State) : Host.Outcome State Fault Refusal := s.run (fun s => s.hbsSign rid .xmssSign)
def execHssVerify (rid : Nat) (s : State) : Host.Outcome State Fault Refusal := s.run (fun s => s.hbsVerify rid .hssVerify)
def execXmssVerify (rid : Nat) (s : State) : Host.Outcome State Fault Refusal := s.run (fun s => s.hbsVerify rid .xmssVerify)
/-- LOG_SCAN_DONE: the words of the log region, and how many of them from word 0 the S9 delivered before the scan ended (R58, R300). -/
def execLogScanDone (region : List W64) (words : Nat) (s : State) : Host.Outcome State Fault Refusal :=
  s.run (fun s => s.logScanDone (region.take words))
/-- MFS_APPEND_ACK (R59). -/
def execMfsAppendAck (s : State) : Host.Outcome State Fault Refusal := s.run State.appendAck
/-- MFS_APPEND_ERR (R61). -/
def execMfsAppendErr (s : State) : Host.Outcome State Fault Refusal := s.run State.appendFail
/-- MFS_APPEND_TIMEOUT (R61). -/
def execMfsAppendTimeout (s : State) : Host.Outcome State Fault Refusal := s.run State.appendFail
/-- COMPACTION_SCAN_DONE (R302). -/
def execCompactionScanDone (log : List W64) (s : State) : Host.Outcome State Fault Refusal := s.run (fun s => s.compactScan log)

end Sys2Proof.Machine
end

