-- ==== Sys2Proof/Machine/OpsCod.lean ====
section
/-!
DEFINITION. The code engines and the code key cache: HQC, Classic McEliece, CKC_LOAD and CKC_EVICT (R336 to R357, R434).
-/
namespace Sys2Proof.Machine

/-- An operation of a code engine completes: COD_OPS counts it. -/
def State.codDone (s : State) (r : Req) : State := s.setReg .codOps (s.reg .codOps r.inst + 1) r.inst

/-- Gives a shared secret to RESULT_H and a public output to the destination (R310, R343). -/
def State.giveSecret (s : State) (r : Req) (k out : Bytes) (usage : Nat) : State := (s.codDone r).giveKeyPair r k out 0 [usage]

/-! ### HQC (R341 to R344) -/

/-- The bits of a packed vector over GF(2)^n in its last byte (R344). -/
def hqcTop (alg : Nat) : Nat := if alg = 2 then 3 else 5

/-- The last byte of a packed vector of n bits has no bit above n − 1: that of s, which ends an ek, and that of u, which begins a c. The
other vector of a c fills its bytes (R344). -/
def hqcVectorsOk (alg : Nat) (ek : Bool) (b : Bytes) : Bool :=
  decide (byteAt b (if ek then (hqcLens alg).1 - 1 else (hqcLens alg).1 - 33) < 2 ^ hqcTop alg)

def State.hqcKeygen (s : State) (rid : Nat) : State :=
  s.runOp rid .hqcKeygen (fun s r =>
    let d := r.desc
    let seed := if d.param.getLsbD 0 then fit 32 r.aux else s.value r 32
    let s := if d.param.getLsbD 0 then s else s.drawn
    s.giveSecret r seed (fit (hqcLens d.algN).1 (Config.std .hqcPublic [[d.alg], seed])) usDecap)

def State.hqcEncaps (s : State) (rid : Nat) : State :=
  s.runOp rid .hqcEncaps (fun s r =>
    match s.srcOf r with
    | .error f => s.failOp rid f
    | .ok ek =>
      let d := r.desc
      if !hqcVectorsOk d.algN true ek then (s.codDone r).failOp rid ⟨.inputRange, none⟩
      else
        let n := (hqcLens d.algN).2.2 + 16
        let m := if d.param.getLsbD 0 then fit n r.aux else s.value r n
        let s := if d.param.getLsbD 0 then s else s.drawn
        s.giveSecret r (fit 32 (Config.std .hqcShared [[d.alg], ek, m])) (fit (hqcLens d.algN).2.1 (Config.std .hqcCipher [[d.alg], ek, m]))
          usDerive)

def State.hqcDecaps (s : State) (rid : Nat) : State :=
  s.runOp rid .hqcDecaps (fun s r =>
    let d := r.desc
    s.withKey r { usages := [usDecap], lens := [32], holdLen := some 32 } (fun s m c =>
      if c.length ≠ (hqcLens d.algN).2.1 then s.failOp rid ⟨.badLength, none⟩
      else if !hqcVectorsOk d.algN false c then (s.codDone r).failOp rid ⟨.inputRange, none⟩
      else s.giveSecret r (fit 32 (Config.std .hqcDecaps [[d.alg], m.bytes, c])) [] usDerive))

/-! ### The code key cache (R350 to R353) -/

/-- Granules that a partition holds, and those of every other entry. -/
def State.ckcUsed (s : State) (p : Nat) : Nat := ((s.ckc.entries.filter (fun e => e.2.owner = p)).map (fun e => e.2.granules)).sum

def State.ckcIsoRsv (s : State) : Nat := min (s.regF .ckcCfg 8 0) 256
def State.ckcIsoShare (s : State) : Nat := if s.isoHolders.length = 0 then 0 else s.ckcIsoRsv / s.isoHolders.length

/-- Granules free in the isolated reserve, and in the shared pool (CKC_STATUS): the whole of ISO_RSV is kept apart, and a reserve that was
raised takes granules as they are freed (R351). -/
def State.ckcFree (s : State) : Nat := 512 - (s.ckc.entries.map (fun e => e.2.granules)).sum
def State.ckcIsoFree (s : State) : Nat := min (s.ckcIsoRsv - (s.isoHolders.map s.ckcUsed).sum) s.ckcFree
def State.ckcSharedFree (s : State) : Nat := s.ckcFree - s.ckcIsoFree

/-- The cache has `n` granules for partition p within its quota; an isolated partition takes them from its share alone (R224, R351). -/
def State.ckcRoom (s : State) (p n : Nat) : Bool :=
  decide (s.ckcUsed p + n ≤ min (s.regF .ckcPtn 25 16 p) 512) && !s.unitOut 9 0 &&
  (if s.ckcIsoRsv ≠ 0 ∧ s.isolated p then
    s.isoHolders.contains p && decide (s.ckcUsed p + n ≤ s.ckcIsoShare) && decide (n ≤ s.ckcIsoFree)
   else decide (n ≤ s.ckcSharedFree))

/-- The lowest entry number that is not in use. -/
def State.ckcFresh (s : State) : Nat := ((numsFrom 0 512).find? (fun n => decide ((s.ckcEntry n).granules = 0))).getD 0

/-- Makes an entry; the generation of its number moves on (R434). -/
def State.ckcPut (s : State) (n : Nat) (e : CkcEntry) : State :=
  let g := (getKey 0 s.ckc.gens n + 1) % 2 ^ 32
  { s with ckc := { entries := setKey {} s.ckc.entries n { e with gen := g }, gens := setKey 0 s.ckc.gens n g } }

/-- What a read of entry n by a request leaves behind: a corrected word is rewritten and counted; an uncorrectable one
poisons the request and frees the entry (R357). -/
def State.noteCkcRead (s : State) (rid n : Nat) : State :=
  let e := s.ckcEntry n
  if e.mem = 2 then
    ((({ s with ckc := { s.ckc with entries := dropKey n s.ckc.entries } } : State).poisonTag rid).setF .ckcErr 15 0
      (satAdd 0xFFFF (s.regF .ckcErr 15 0) 1)).event srcCkcUncorr 79 0
  else if e.mem = 1 then
    ((({ s with ckc := { s.ckc with entries := setKey {} s.ckc.entries n { e with mem := 0 } } } : State)).setF .ckcErr 31 16
      (satAdd 0xFFFF (s.regF .ckcErr 31 16) 1)).event srcCkcCorr 79 0
  else s

/-- The padding bits of mceliece6960119 are zero: the top three of each of the 1,547 rows of 677 bytes of a public key, and the top five
of the last byte of a ciphertext. The other sets have none (R349). -/
def mcePaddingOk (alg : Nat) (key : Bool) (b : Bytes) : Bool :=
  if (alg - 0x11) / 2 ≠ 3 then true
  else if key then (numsFrom 0 1547).all (fun i => decide (byteAt b (677 * i + 676) < 32))
  else decide (byteAt b 193 < 8)

/-- CKC_LOAD (R349, R352). -/
def State.ckcLoad (s : State) (rid : Nat) : State :=
  s.runOp rid .ckcLoad (fun s r =>
    match s.srcOf r with
    | .error f => s.failOp rid f
    | .ok pk =>
      let d := r.desc
      let s := s.codDone r
      if !mcePaddingOk d.algN true pk then s.failOp rid ⟨.inputRange, none⟩
      else
        let id := sha3 pk
        match s.ckcPublic r.ptn id d.algN with
        | some _ => s.succeed rid id
        | none =>
          let g := (mceSet d.algN).pubGran
          if !s.ckcRoom r.ptn g then s.failOp rid ⟨.resourceBusy, none⟩
          else
            (if s.poisoned r then s else
              s.ckcPut s.ckcFresh { owner := r.ptn, alg := d.algN, pkid := id, granules := g, data := pk, loading := some rid }).succeed rid id)

/-- CKC_EVICT: the entry is freed once the requests that read it have ended (R353). -/
def State.ckcEvict (s : State) (rid : Nat) : State :=
  s.runOp rid .ckcEvict (fun s r =>
    match r.stateIndex with
    | some n => if (s.ckcEntry n).doomed then s else (s.codDone r).succeed rid []
    | none =>
      match s.ckcPublic r.ptn (fit 32 r.aux) r.desc.algN with
      | none => (s.codDone r).failOp rid ⟨.paramInvalid, some 0x0304⟩
      | some n =>
        let s := s.ckcRelease n
        if (s.ckcEntry n).doomed then s.updReq rid (fun r => { r with stateIndex := some n }) else (s.codDone r).succeed rid [])

/-! ### Classic McEliece (R345 to R349) -/

/-- MCE_IMPORT (R346). The slot receives its reference as the import completes; `State.finishLoads`. -/
def State.mceImport (s : State) (rid : Nat) : State :=
  s.runOp rid .mceImport (fun s r =>
    let d := r.desc
    s.withKey r { usages := [usWrap], lens := [32] } (fun s m src =>
      let s := s.codDone r
      let aux := r.aux
      let set := mceSet d.algN
      let iv := src.take 12
      let n := src.length - 28
      let body := slice src 12 n
      match s.resultFault r 1 [usDecap] 40 with
      | some st => s.failOp rid ⟨st, none⟩
      | none =>
        let sk := fit n (Config.std .gcmPlain [m.bytes, iv, aux, body])
        let pk := fit set.pk (Config.std .mcePublic [[d.alg], sk])
        if fit 16 (Config.std .gcmTag [m.bytes, iv, aux, body]) ≠ slice src (12 + n) 16 then s.failOp rid ⟨.keyPolicy, some 0x0301⟩
        else if !isMce d.algN ∨ aux.take 4 ≠ ascii "MCSK" ∨ byteAt aux 4 ≠ d.algN ∨ !allZero (slice aux 5 11) then
          s.failOp rid ⟨.paramInvalid, some 0x0302⟩
        else if !Config.holds .mceKeyOk [[d.alg], sk] then s.failOp rid ⟨.paramInvalid, some 0x0303⟩
        else if sha3 pk ≠ slice aux 16 32 then s.failOp rid ⟨.paramInvalid, some 0x0305⟩
        else if !s.ckcRoom r.ptn set.privGran then s.failOp rid ⟨.resourceBusy, none⟩
        else if s.poisoned r then s.succeed rid (sha3 pk)
        else
          let h := (s.resolve r d.resultH).getD 0
          (s.ckcPut s.ckcFresh {
            owner := r.ptn, alg := d.algN, isPrivate := true, pkid := sha3 pk, rootReal := s.realTags, granules := set.privGran, data := sk,
            loading := some rid, target := handleIndex h }).succeed rid (sha3 pk) h))

/-- Entry n is a PUBLIC one of the partition with the PKID and the ALG (R348, R350). -/
def State.ckcServes (s : State) (n p : Nat) (pkid : Bytes) (alg : Nat) : Bool :=
  let e := s.ckcEntry n
  decide (e.granules ≠ 0) && decide (e.owner = p) && !e.isPrivate && e.pkid == pkid && decide (e.alg = alg)

/-- The public key that an encapsulation uses: its source, or the cached entry, which a request that reads it already keeps though it is
being evicted (R348, R353). -/
def State.mcePublicKey (s : State) (r : Req) : Except Fail (Bytes × Option Nat) :=
  if r.desc.cached then
    match (r.entry.filter (fun n => s.ckcServes n r.ptn (fit 32 r.aux) r.desc.algN)).orElse
        (fun _ => s.ckcPublic r.ptn (fit 32 r.aux) r.desc.algN) with
    | some n => .ok ((s.ckcEntry n).data, some n)
    | none => .error ⟨.paramInvalid, some 0x0304⟩
  else (s.srcOf r).map (fun b => (b, none))

/-- All 96 FixedWeight attempts failed (R348). -/
def State.fixwFail (s : State) (r : Req) : State :=
  ((s.setB .codErr 2 true r.inst).event srcCodEngine (s.unitDomain 4 r.inst) r.inst).failOp r.id ⟨.engineFault, none⟩

def State.mceEncaps (s : State) (rid : Nat) : State :=
  s.runOp rid .mceEncaps (fun s r =>
    let d := r.desc
    match s.mcePublicKey r with
    | .error f => s.failOp rid f
    | .ok (pk, n) =>
      let s := match n with
        | some n => s.noteCkcRead rid n
        | none => s
      if !mcePaddingOk d.algN true pk then (s.codDone r).failOp rid ⟨.inputRange, none⟩
      else
        let seed := s.value r 32
        let s := s.drawn
        if Config.holds .fixw [[d.alg], seed] then (s.codDone r).fixwFail r
        else s.giveSecret r (fit 32 (Config.std .mceShared [[d.alg], pk, seed])) (fit (mceSet d.algN).ct (Config.std .mceCipher [[d.alg], pk, seed])) usDerive)

/-- The key of MCE_DECAPS: a code-key reference (R347). -/
def codeKey : KeyNeed := { usages := [usDecap], kind := 1 }

/-- MCE_DECAPS (R347). -/
def State.mceDecaps (s : State) (rid : Nat) : State :=
  s.runOp rid .mceDecaps (fun s r =>
    let d := r.desc
    s.withKey r codeKey (fun s m c =>
      if byteAt m.bytes 32 ≠ d.algN then s.failOp rid ⟨.keyPolicy, none⟩
      else
        let n := le16 m.bytes 34
        let e := s.ckcEntry n
        if e.granules = 0 ∨ e.gen ≠ le32 m.bytes 36 then s.failOp rid ⟨.keyHandleInvalid, none⟩
        else
          let s := s.noteCkcRead rid n
          if !mcePaddingOk d.algN false c then (s.codDone r).failOp rid ⟨.inputRange, none⟩
          else s.giveSecret r (fit 32 (Config.std .mceDecaps [[d.alg], e.data, c])) [] usDerive))

/-- What a code engine takes as its request starts: the cache entry that it reads, which stays until it has ended, and the reference of
MCE_DECAPS (R24, R353). -/
def State.startEntry (s : State) (r : Req) : State :=
  match r.desc.op with
  | some .mceEncaps => s.updReq r.id (fun x => { x with entry := if r.desc.cached then s.ckcPublic r.ptn (fit 32 r.aux) r.desc.algN else none })
  | some .mceDecaps =>
    match s.ensureKey r codeKey with
    | (s, .error f) => s.failOp r.id f
    | (s, .ok m) => s.updReq r.id (fun x => { x with entry := s.ckcNamed m.bytes })
  | _ => s

/-! ### The commands -/

def execHqcKeygen (rid : Nat) (s : State) : Host.Outcome State Fault Refusal := s.run (fun s => s.hqcKeygen rid)
def execHqcEncaps (rid : Nat) (s : State) : Host.Outcome State Fault Refusal := s.run (fun s => s.hqcEncaps rid)
def execHqcDecaps (rid : Nat) (s : State) : Host.Outcome State Fault Refusal := s.run (fun s => s.hqcDecaps rid)
def execMceImport (rid : Nat) (s : State) : Host.Outcome State Fault Refusal := s.run (fun s => s.mceImport rid)
def execMceEncaps (rid : Nat) (s : State) : Host.Outcome State Fault Refusal := s.run (fun s => s.mceEncaps rid)
def execMceDecaps (rid : Nat) (s : State) : Host.Outcome State Fault Refusal := s.run (fun s => s.mceDecaps rid)
def execCkcLoad (rid : Nat) (s : State) : Host.Outcome State Fault Refusal := s.run (fun s => s.ckcLoad rid)
def execCkcEvict (rid : Nat) (s : State) : Host.Outcome State Fault Refusal := s.run (fun s => s.ckcEvict rid)

end Sys2Proof.Machine
end

