-- ==== Sys2Proof/Machine/OpsPly.lean ====
section
/-!
DEFINITION. The polynomial engines' operations: ML-KEM, ML-DSA and loaded sets of their families, masking orders, and
the expansion cache (R307 to R327, R333).
-/
namespace Sys2Proof.Machine

/-! ### Masking order (R308) -/

/-- PLY_CFG.DEFAULT_ORDER as the request was issued. -/
def Req.defaultOrder (r : Req) : Nat := min (fld r.plyCfg 9 8) 2

/-- Where a key carries a masking order: a slot or a blob that KEY_H names; a hold does not, nor what a tow result resolves to. -/
def Req.keyOrder (r : Req) (m : KeyMat) : Nat :=
  if m.fromHold || (handleTow r.desc.usedKey).isSome then r.defaultOrder else m.order

/-- The order of a key generation: that of the result slot. -/
def State.targetOrder (s : State) (r : Req) : Nat :=
  match s.resolve r r.desc.resultH with
  | some h => if handleType h = 1 then (s.key (handleIndex h)).order else r.defaultOrder
  | none => r.defaultOrder

/-- The recipe that engine n runs for a request: a loaded set, or none for a fixed verification recipe. -/
def State.plyRecipe (s : State) (n : Nat) (o : Op) (alg : Nat) : Option RecipeSet := (s.ply n).rcp.find o alg

/-- The recipe of a request supports a masking order; a verification depends on none. -/
def State.orderOk (s : State) (r : Req) (o : Op) (order : Nat) : Bool :=
  match s.plyRecipe r.inst o r.desc.algN with
  | some b => (rsOrders b).testBit order
  | none => true

/-- What the standards' functions are told of the set: the ALG, and a loaded set's descriptor for an ALG of its own. -/
def State.plySetBytes (s : State) (r : Req) (o : Op) : Bytes :=
  r.desc.alg :: (if 0x80 ≤ r.desc.algN then (s.plyRecipe r.inst o r.desc.algN).getD [] else [])

/-- PK_LEN and CT_LEN of the recipe that the request runs. -/
def State.plyPk (s : State) (r : Req) (o : Op) : Nat := (setLens (s.plyRecipe r.inst o r.desc.algN) r.desc.algN).1
def State.plyCt (s : State) (r : Req) (o : Op) : Nat := (setLens (s.plyRecipe r.inst o r.desc.algN) r.desc.algN).2

/-- The words of recipe memory that a run reads from `pc` on, to its END (R331). -/
def runWords (m : Recipes) : Nat → Nat → List Nat
  | 0, _ => []
  | n + 1, pc => if 8192 ≤ pc then [] else pc :: (if fld (getKey 0 m.words pc) 31 26 = 0 then [] else runWords m n (pc + 1))

/-- The words with bad symbols that the recipe of a request reads: its code, from its entry and from the iteration entry, and its
constants. -/
def State.recipeFlaws (s : State) (r : Req) (o : Op) : SMap Bool :=
  let p := s.ply r.inst
  match p.rcp.find o r.desc.algN with
  | none => []
  | some b =>
    if p.bad.isEmpty then []
    else
      let ws := runWords p.rcp 8192 (rsEntry b o.plyEntry) ++ (if o == .mldsaSign || o == .mldsaSignMu then runWords p.rcp 8192 (rsEntry b 5) else []) ++
        numsFrom (rsConstOff b) (rsConstLen b)
      p.bad.filter (fun e => ws.contains e.1)

/-- An uncorrectable word in a recipe memory: the running request ends with ENGINE_FAULT and the engine leaves service
until it is restored (R335). -/
def State.recipeLost (s : State) (n : Nat) : State :=
  let s := ((s.updPly n (fun p => { p with restoring := true })).failUnit .ply n).moveReservations 3 n
  s.event srcPlyMemUncorr (s.unitDomain 3 n) n

/-- Words of recipe memory with one bad symbol are corrected as they are read. -/
def State.recipeFixed (s : State) (n : Nat) (words : List Nat) : State :=
  words.foldl (fun s k => (s.updPly n (fun p => { p with bad := dropKey k p.bad })).event srcPlyMemCorr (s.unitDomain 3 n) n) s

/-- An operation of a polynomial engine, run by its recipe: a word of the recipe that cannot be corrected ends it (R335). -/
def State.plyOp (s : State) (rid : Nat) (o : Op) (f : State → Req → State) : State :=
  s.runOp rid o (fun s r =>
    let flaws := s.recipeFlaws r o
    if flaws.any (·.2) then s.recipeLost r.inst else f (s.recipeFixed r.inst (flaws.map (·.1))) r)

/-- An operation of a polynomial engine completes: PLY_OPS counts it. -/
def State.plyDone (s : State) (r : Req) : State := s.setReg .plyOps (s.reg .plyOps r.inst + 1) r.inst

def State.giveLattice (s : State) (r : Req) (priv pub : Bytes) (usage : Nat) : State := (s.plyDone r).giveKeyPair r priv pub 0 [usage]

/-! ### ML-KEM (R311 to R314) -/

/-- The modulus check of an encapsulation key (R313): each 12 bits of the 384k bytes of t̂ are below q. For a loaded set of its own ALG it
is the recipe's. -/
def kemRangeOk (alg : Nat) (set ek : Bytes) : Bool :=
  if alg ≤ 3 then
    (numsFrom 0 (128 * (alg + 1))).all (fun i =>
      let v := leNat (slice ek (3 * i) 3)
      decide (v % 4096 < 3329 ∧ v / 4096 < 3329))
  else Config.holds .kemRange [set, ek]

def State.kemKeygen (s : State) (rid : Nat) : State :=
  s.plyOp rid .mlkemKeygen (fun s r =>
    if !s.orderOk r .mlkemKeygen (s.targetOrder r) then (s.plyDone r).failOp rid ⟨.keyPolicy, none⟩
    else
      let seed := if r.desc.param.getLsbD 0 then fit 64 r.aux else s.value r 64
      let ek := fit (s.plyPk r .mlkemKeygen) (Config.std .kemPublic [s.plySetBytes r .mlkemKeygen, seed])
      (if r.desc.param.getLsbD 0 then s else s.drawn).giveLattice r seed ek usDecap)

def State.kemEncaps (s : State) (rid : Nat) : State :=
  s.plyOp rid .mlkemEncaps (fun s r =>
    match s.srcOf r with
    | .error f => s.failOp rid f
    | .ok ek =>
      let set := s.plySetBytes r .mlkemEncaps
      if !s.orderOk r .mlkemEncaps r.defaultOrder then (s.plyDone r).failOp rid ⟨.keyPolicy, none⟩
      else if !kemRangeOk r.desc.algN set ek then (s.plyDone r).failOp rid ⟨.inputRange, none⟩
      else
        let m := if r.desc.param.getLsbD 0 then fit 32 r.aux else s.value r 32
        let c := fit (s.plyCt r .mlkemEncaps) (Config.std .kemCipher [set, ek, m])
        (if r.desc.param.getLsbD 0 then s else s.drawn).giveLattice r (fit 32 (Config.std .kemShared [set, ek, m])) c usDerive)

def State.kemDecaps (s : State) (rid : Nat) : State :=
  s.plyOp rid .mlkemDecaps (fun s r => s.withKey r { usages := [usDecap], lens := [64], holdLen := some 64 } (fun s m c =>
    if !s.orderOk r .mlkemDecaps (r.keyOrder m) then (s.plyDone r).failOp rid ⟨.keyPolicy, none⟩
    else if c.length ≠ s.plyCt r .mlkemDecaps then (s.plyDone r).failOp rid ⟨.badLength, none⟩
    else s.giveLattice r (fit 32 (Config.std .kemDecaps [s.plySetBytes r .mlkemDecaps, m.bytes, c])) [] usDerive))

/-! ### Linked berths (R319 to R322) -/

/-- TR of a linked berth, and its masking order. -/
def Berth.tr (b : Berth) : Bytes := fit 16 b.hsub ++ fit 16 b.cb ++ fit 16 b.acc ++ (fit 32 b.auxk).take 16
def Berth.linkOrder (b : Berth) : Nat := min (byteAt b.key 32) 2

/-- Cache areas that a set needs (R317, R330). -/
def State.plyAreas (s : State) (r : Req) (o : Op) : Nat :=
  match s.plyRecipe r.inst o r.desc.algN with
  | some b => rsAreas b
  | none => 0

/-- The first of `k` consecutive free areas of an engine. -/
def Ply.freeAreas (p : Ply) (k : Nat) : Option Nat :=
  (numsFrom 0 12).find? (fun a => decide (a + k ≤ 12) && (numsFrom a k).all (fun i => (lookupKey i p.areas).isNone))

/-- The least recently used link of an engine that may be dropped: never one of an isolated partition (R322). -/
def State.oldestLink (s : State) (p : Ply) : Option Nat :=
  ((p.areas.filter (fun e => !s.isolated (s.berth e.2.berth).owner)).foldl (fun best e => match best with
    | none => some e.2
    | some b => if e.2.used < b.used then some e.2 else best) none).map (·.berth)

/-- LINK of a berth set. -/
def State.setLink (s : State) (i n first count : Nat) : State :=
  let b := s.berth i
  s.setBerth i { b with auxk := (fit 32 b.auxk).take 16 ++ toLe 8 ((n + 1) * 2 ^ 56 + first * 2 ^ 48 + count * 2 ^ 40) ++ zeros 8 }

/-- Links berth i to `k` areas of engine n; links are dropped for it as long as one may be (R321, R322). -/
def State.makeLink (s : State) (i n k : Nat) : Nat → State
  | 0 => s
  | fuel + 1 =>
    let p := s.ply n
    match p.freeAreas k with
    | some a =>
      let s := s.updPly n (fun p => { p with
        useCount := p.useCount + 1
        areas := (numsFrom a k).foldl (fun m x => insertKey x { berth := i, used := p.useCount } m) p.areas })
      s.setLink i n a k
    | none =>
      match s.oldestLink p with
      | none => s
      | some j => ((s.freeAreas j).clearLink j).makeLink i n k fuel

/-- Berth i is linked to areas of engine n. -/
def State.linkedOn (s : State) (i n : Nat) : Bool := (s.ply n).areas.any (fun e => e.2.berth = i)

/-- A request reads cache areas of engine n. An uncorrectable word poisons it, and the area is freed with the link to it (R335). -/
def State.readAreas (s : State) (r : Req) (n : Nat) (areas : List Nat) : State × Req :=
  areas.foldl (fun (s, r) a =>
    match lookupKey a (s.ply n).areas with
    | none => (s, r)
    | some x =>
      if x.mem = 2 then
        ((((s.freeAreas x.berth).clearLink x.berth).poisonTag r.id).event srcPlyMemUncorr (s.unitDomain 3 n) n, { r with poison := true })
      else if x.mem = 1 then
        ((s.updPly n (fun p => { p with areas := p.areas.map (fun e => if e.1 = a then (a, { e.2 with mem := 0 }) else e) })).event srcPlyMemCorr
          (s.unitDomain 3 n) n, r)
      else (s, r)) (s, r)

/-- A signing request has used berth i on engine n: a hit is counted, a miss makes a link where it can (R321). -/
def State.useLink (s : State) (r : Req) (i k : Nat) : State :=
  if s.linkedOn i r.inst then
    let s := (s.readAreas r r.inst (((s.ply r.inst).areas.filter (fun e => e.2.berth = i)).map (·.1))).1
    (s.updPly r.inst (fun p => { p with
      useCount := p.useCount + 1
      areas := p.areas.map (fun e => if e.2.berth = i then (e.1, { e.2 with used := p.useCount }) else e) })).setF .plyEvents 15 0
        (s.regF .plyEvents 15 0 r.inst + 1) r.inst
  else if k = 0 then s
  else ((s.freeAreas i).clearLink i).makeLink i r.inst k 13

/-- The berth that CACHE allocates (R319, R320). -/
def State.newLinked (s : State) (r : Req) (i : Nat) (seed tr : Bytes) (order : Nat) : State :=
  s.fillBerth i {
    state := .idle, owner := r.ptn, rootReal := !s.pins.dbgEn, dir := 0, alg := r.desc.algN + 0x80
    key := fit 64 (fit 32 seed ++ toLe 1 order), hsub := slice tr 0 16, cb := slice tr 16 16, acc := slice tr 32 16
    fixed := zeros 4, auxk := slice tr 48 16 ++ zeros 16 }

/-- What a request that names a linked berth meets as it starts (R258, R320). -/
def State.linkedFault (s : State) (r : Req) (i : Nat) : Option Fail :=
  let b := s.berth i
  if b.state = .free ∨ b.owner ≠ r.ptn ∨ b.state = .invalid ∨ b.alg < 0x91 ∨ 0x93 < b.alg then some ⟨.berthInvalid, none⟩
  else if b.alg ≠ r.desc.algN + 0x80 then some ⟨.paramInvalid, none⟩
  else none

/-! ### ML-DSA (R315 to R318, R325, R326) -/

def State.dsaKeygen (s : State) (rid : Nat) : State :=
  s.plyOp rid .mldsaKeygen (fun s r =>
    if !s.orderOk r .mldsaKeygen (s.targetOrder r) then (s.plyDone r).failOp rid ⟨.keyPolicy, none⟩
    else
      let xi := if r.desc.internal then fit 32 r.aux else s.value r 32
      let pk := fit (s.plyPk r .mldsaKeygen) (Config.std .dsaPublic [s.plySetBytes r .mldsaKeygen, xi])
      (if r.desc.internal then s else s.drawn).giveLattice r xi pk usSign)

/-- The bound B of R326. -/
def Req.iterBound (r : Req) : Nat := if r.desc.bound ≠ 0 then r.desc.bound else max 1 (fld r.plyCfg 7 0)

/-- ITER_MAX of a request's recipe. -/
def State.iterMax (s : State) (r : Req) (o : Op) : Nat :=
  match s.plyRecipe r.inst o r.desc.algN with
  | some b => rsIterMax b
  | none => 65535

/-- Ends a signature of `n` iterations: PLY_ITER counts them, and under FIXED an overrun is flagged (R325, R326). -/
def State.dsaFinish (s : State) (r : Req) (o : Op) (sig : Bytes) (n : Nat) (resultH : W32) : State :=
  let s := (s.plyDone r).setReg .plyIter (s.reg .plyIter r.inst + BitVec.ofNat 32 n) r.inst
  if s.iterMax r o ≤ n then s.failOp r.id ⟨.engineFault, none⟩
  else
    let overrun := r.desc.fixed && decide (r.iterBound < n)
    let s := if overrun then s.setF .plyEvents 31 16 (s.regF .plyEvents 31 16 r.inst + 1) r.inst else s
    s.produce r.id {
      status := .ok, out := sig, outLen := sig.length, resultH := resultH, iterOverrun := overrun, unit := r.unit, inst := r.inst }

/-- Signs with a seed at a masking order. -/
def State.dsaCompute (s : State) (r : Req) (o : Op) (seed : Bytes) (src : Bytes) (resultH : W32) : State :=
  let d := r.desc
  let rnd := if d.hedged then s.value r 32 else zeros 32
  let s := if d.hedged then s.drawn else s
  let inp := [s.plySetBytes r o, d.head, seed, r.aux, src, rnd]
  s.dsaFinish r o (fit (s.plyCt r o) (Config.std .dsaSign inp)) (1 + Config.size .dsaIters inp) resultH

/-- Length of what is signed, with a blob before it. -/
def dsaMsgOk (o : Op) (d : Desc) (n : Nat) : Bool := if o = .mldsaSignMu then n == 64 else signedLenOk d n 0

/-- MLDSA_SIGN and MLDSA_SIGN_MU. -/
def State.dsaSign (s : State) (rid : Nat) (o : Op) : State :=
  s.plyOp rid o (fun s r =>
    let d := r.desc
    match r.berth with
    | some i =>
      match s.linkedFault r i, s.srcOf r with
      | some f, _ => s.failOp rid f
      | _, .error f => s.failOp rid f
      | none, .ok src =>
        if !s.orderOk r o (s.berth i).linkOrder then (s.plyDone r).failOp rid ⟨.keyPolicy, none⟩
        else (s.useLink r i (s.plyAreas r o)).dsaCompute r o ((s.berth i).key.take 32) src 0
    | none =>
      s.withKey r { usages := [usSign], lens := [32], holdLen := some 32 } (fun s m src =>
        let order := r.keyOrder m
        if !s.orderOk r o order then (s.plyDone r).failOp rid ⟨.keyPolicy, none⟩
        else if !dsaMsgOk o d src.length then (s.plyDone r).failOp rid ⟨.badLength, none⟩
        else if !d.cache then s.dsaCompute r o m.bytes src 0
        else
          match s.allocBerth r.ptn with
          | none => (s.plyDone r).failOp rid ⟨.resourceBusy, none⟩
          | some i =>
            if s.poisoned r then s.drawn.dsaCompute r o m.bytes src 0
            else
              let tr := fit 64 (Config.std .dsaPublic [s.plySetBytes r o, m.bytes, ascii "tr"])
              let s := ((s.drawn.newLinked r i m.bytes tr order).makeLink i r.inst (s.plyAreas r o) 13)
              s.dsaCompute r o m.bytes src (berthHandle i)))

/-- MLDSA_VERIFY and MLDSA_VERIFY_MU (R316, R318). -/
def State.dsaVerify (s : State) (rid : Nat) (o : Op) : State :=
  s.plyOp rid o (fun s r =>
    match s.srcOf r with
    | .error f => s.failOp rid f
    | .ok src =>
      let k := s.plyPk r o
      let n := s.plyCt r o
      (s.plyDone r).verdict rid (Config.holds .dsaVerify
        [s.plySetBytes r o, r.desc.head, r.aux.take k, r.aux.drop k, src.take n, src.drop n]))

/-! ### Declared times and pauses (R324, R327) -/

/-- DECLARED_TIME_END: a recipe that has not reached END (R324). -/
def State.timeOver (s : State) (rid : Nat) : State :=
  match s.findReq rid with
  | none => s
  | some r =>
    if r.unit = .ply ∧ r.phase = .running ∧ (s.ply r.inst).run.map (·.req) = some rid then
      (((s.setB .plyErr 2 true r.inst).event srcPlyEngine (s.unitDomain 3 r.inst) r.inst).plyDone r).failOp rid ⟨.engineFault, none⟩
    else s

/-- The signature has overrun its bound: its rejected iterations have reached it. How far an operation has come whose micro-commands are
not run one by one is a free value. DESIGN CHOICE; log entry 132. -/
def State.overruns (s : State) (r : Req) : Bool :=
  r.desc.fixed && match (s.ply r.inst).run with
    | some x => decide (x.req = r.id) && (decide (r.iterBound ≤ x.iters) || (decide (x.iters = 0) && decide (s.pick % 2 = 1)))
    | none => false

/-- INTERVAL_END_PAUSE: an overrunning signature of an isolated partition on a unit that is not dedicated (R327). -/
def State.pauseSign (s : State) (rid : Nat) : State :=
  match s.findReq rid with
  | none => s
  | some r =>
    let es := s.unitIntervals r.ptn 3 r.inst
    if r.unit = .ply ∧ r.phase = .running ∧ s.isolated r.ptn ∧ (r.desc.opIs .mldsaSign ∨ r.desc.opIs .mldsaSignMu) ∧
        !es.isEmpty ∧ es.all (fun e => e.2 < 1000) then
      if s.overruns r then s.drawn.updReq rid (fun r => { r with phase := .paused }) else s.drawn
    else s

/-- PAUSED_SIGN_RESUME: at the start of the partition's next interval on the same engine (R327). -/
def State.resumeSign (s : State) (rid : Nat) : State :=
  match s.findReq rid with
  | none => s
  | some r =>
    if r.phase = .paused ∧ !(s.unitIntervals r.ptn 3 r.inst).isEmpty then s.updReq rid (fun r => { r with phase := .running }) else s

/-! ### The commands -/

def execMlkemKeygen (rid : Nat) (s : State) : Host.Outcome State Fault Refusal := s.run (fun s => s.kemKeygen rid)
def execMlkemEncaps (rid : Nat) (s : State) : Host.Outcome State Fault Refusal := s.run (fun s => s.kemEncaps rid)
def execMlkemDecaps (rid : Nat) (s : State) : Host.Outcome State Fault Refusal := s.run (fun s => s.kemDecaps rid)
def execMldsaKeygen (rid : Nat) (s : State) : Host.Outcome State Fault Refusal := s.run (fun s => s.dsaKeygen rid)
def execMldsaSign (rid : Nat) (s : State) : Host.Outcome State Fault Refusal := s.run (fun s => s.dsaSign rid .mldsaSign)
def execMldsaVerify (rid : Nat) (s : State) : Host.Outcome State Fault Refusal := s.run (fun s => s.dsaVerify rid .mldsaVerify)
def execMldsaSignMu (rid : Nat) (s : State) : Host.Outcome State Fault Refusal := s.run (fun s => s.dsaSign rid .mldsaSignMu)
def execMldsaVerifyMu (rid : Nat) (s : State) : Host.Outcome State Fault Refusal := s.run (fun s => s.dsaVerify rid .mldsaVerifyMu)
/-- DECLARED_TIME_END (R324). -/
def execDeclaredTimeEnd (rid : Nat) (s : State) : Host.Outcome State Fault Refusal := s.run (fun s => s.timeOver rid)
/-- INTERVAL_END_PAUSE (R327). -/
def execIntervalEndPause (rid : Nat) (s : State) : Host.Outcome State Fault Refusal := s.run (fun s => s.pauseSign rid)
/-- PAUSED_SIGN_RESUME (R327). -/
def execPausedSignResume (rid : Nat) (s : State) : Host.Outcome State Fault Refusal := s.run (fun s => s.resumeSign rid)

end Sys2Proof.Machine
end

