-- ==== Sys2Proof/Machine/OpsRecipe.lean ====
section
/-!
DEFINITION. Recipe micro-commands one by one, and the restore and scrub of recipe memory (R305, R331, R335, R523).
A slot holds the value that its shares recombine to, with the shares of a masked slot beside it.
-/
namespace Sys2Proof.Machine

/-- A micro-command (R331). -/
structure Micro where
  op : Nat
  d : Nat
  a : Nat
  b : Nat
  x : Nat
  deriving DecidableEq, Repr

def Micro.ofWord (w : W32) : Micro := { op := fld w 31 26, d := fld w 25 19, a := fld w 18 12, b := fld w 11 5, x := fld w 4 0 }

/-- The fields of a micro-command that name a slot or a stream: D, A and B (R331). -/
def microUses : Nat → Bool × Bool × Bool
  | 0x02 | 0x03 | 0x0F | 0x10 | 0x11 | 0x12 | 0x19 => (true, true, false)
  | 0x04 | 0x05 | 0x06 | 0x07 | 0x13 | 0x17 => (true, true, true)
  | 0x09 | 0x14 | 0x18 => (false, true, false)
  | 0x0A | 0x0B | 0x0C | 0x0D | 0x0E => (true, false, false)
  | 0x16 => (false, true, true)
  | _ => (false, false, false)

/-- A word of a recipe memory; one that is not listed is zero, which is END (R329). Beyond the memory, where no entry leads, nothing runs:
an absent entry ends the operation (R332). -/
def Recipes.word (m : Recipes) (i : Nat) : W32 := if i < 8192 then getKey 0 m.words i else 0

/-- A micro-command that takes random words of the mask expander: from stream 0x7B, or to share a secret (R307, R331). -/
def Micro.drawsMask (m : Micro) : Bool := ((microUses m.op).2.1 && m.a == 0x7B) || m.op == 0x18

/-- What a running recipe works on. -/
structure RecipeEnv where
  ply : Nat
  req : Req
  op : Op
  run : RecipeRun
  mem : Recipes
  slots : SMap (List Nat)
  shares : SMap Shares
  /-- The masking order (R308). -/
  order : Nat
  /-- The seed or key, and the source behind a blob. -/
  key : KeyMat
  src : Bytes
  deriving DecidableEq, Repr

/-! ### Slots -/

/-- n coefficients of the polynomial in the slots from `i` (R305). -/
def slotPoly (m : SMap (List Nat)) (n i : Nat) : List Nat :=
  ((numsFrom i (n / 256)).flatMap (fun k => getKey (List.replicate 256 0) m k)).take n

/-- Puts a polynomial into the slots from `i`; there are 80. -/
def putPoly (m : SMap (List Nat)) (n i : Nat) (c : List Nat) : SMap (List Nat) :=
  (numsFrom 0 (n / 256)).foldl (fun m k =>
    if i + k < 80 then setKey (List.replicate 256 0) m (i + k) ((c.drop (256 * k)).take 256 ++ List.replicate (256 - ((c.drop (256 * k)).take 256).length) 0)
    else m) m

def coefBytes (c : List Nat) : Bytes := c.flatMap (toLe 4)

/-- `n` coefficients of four bytes each, below q. -/
def coefsOf (q : Nat) : Nat → Bytes → List Nat
  | 0, _ => []
  | n + 1, b => (le32 b 0 % max q 1) :: coefsOf q n (b.drop 4)

namespace RecipeEnv

def n (e : RecipeEnv) : Nat := rsN e.run.set
def poly (e : RecipeEnv) (i : Nat) : List Nat := slotPoly e.slots e.n i
def put (e : RecipeEnv) (i : Nat) (c : List Nat) : RecipeEnv := { e with slots := putPoly e.slots e.n i c }

/-- The constants of the set (R330). -/
def consts (e : RecipeEnv) : Bytes :=
  (numsFrom (rsConstOff e.run.set) (rsConstLen e.run.set)).flatMap (fun i => toLe 4 (e.mem.word i).toNat)
def const (e : RecipeEnv) (i : Nat) : Nat := (e.mem.word (rsConstOff e.run.set + i)).toNat

/-- The parameters that a function of the standards is told. -/
def params (e : RecipeEnv) (m : Micro) : Bytes := toLe 4 e.run.q ++ toLe 2 e.n ++ toLe 1 m.op ++ toLe 1 m.a ++ toLe 1 m.x

/-! ### Streams -/

/-- The input item as the recipe reads it: auxiliary buffer, then source. -/
def item (e : RecipeEnv) : Bytes := e.req.aux ++ e.src

/-- Bytes per Keccak block: SHAKE128, SHAKE256, SHA3-256, SHA3-512. -/
def rate (e : RecipeEnv) : Nat := [168, 136, 136, 72].getD e.run.kFn 136

/-- What the key stream carries: the seed, and after it the DRBG values that the request drew. DESIGN CHOICE; log entry 131. -/
def keyStream (e : RecipeEnv) : Bytes := e.key.bytes ++ e.req.draws

/-- `n` bytes read from a stream; none when the stream cannot be read. -/
def read (e : RecipeEnv) (code n draw : Nat) : RecipeEnv × Bytes :=
  if code = 0x7B then (e, numsFrom 0 n |>.map (Config.rand draw))
  else if code = 0x7C then
    ({ e with run := { e.run with keyPos := e.run.keyPos + n } }, fit n (slice e.keyStream e.run.keyPos n))
  else if code = 0x7E then
    ({ e with run := { e.run with kOut := e.run.kOut + n } }, fit n (Config.std .keccak [toLe 1 e.run.kFn, e.run.kIn, toLe 4 e.run.kOut, toLe 4 n]))
  else ({ e with run := { e.run with itemPos := e.run.itemPos + n } }, fit n (slice e.item e.run.itemPos n))

/-- Bytes left in a stream that ends. -/
def left (e : RecipeEnv) (code : Nat) : Nat :=
  if code = 0x7C then e.keyStream.length - e.run.keyPos else if code = 0x7F then e.item.length - e.run.itemPos else 0

/-- Bytes written to a stream. -/
def write (e : RecipeEnv) (code : Nat) (b : Bytes) : RecipeEnv :=
  { e with run :=
      if code = 0x7D then { e.run with result := e.run.result ++ b }
      else if code = 0x7E then { e.run with kIn := e.run.kIn ++ b }
      else { e.run with out := e.run.out ++ b } }

/-- The polynomial that A names: a slot's, or four bytes a coefficient from a stream. -/
def load (e : RecipeEnv) (code draw : Nat) : RecipeEnv × List Nat :=
  if code < 80 then (e, e.poly code)
  else
    let (e, b) := e.read code (4 * e.n) draw
    (e, coefsOf (2 ^ 32) e.n b)

/-- A polynomial goes to D: a slot, or a stream at four bytes a coefficient. -/
def store (e : RecipeEnv) (code : Nat) (c : List Nat) : RecipeEnv := if code < 80 then e.put code c else e.write code (coefBytes c)

/-- A sampler reads squeezed bytes and fills D; how many it reads follows from the standard's sampler. -/
def sampler (e : RecipeEnv) (m : Micro) (_ : Nat) : RecipeEnv :=
  let inp := [e.params m, e.consts, toLe 1 e.run.kFn, e.run.kIn, toLe 4 e.run.kOut]
  let e' := e.store m.d (coefsOf e.run.q e.n (fit (4 * e.n) (Config.std .sample inp)))
  { e' with run := { e'.run with kOut := e.run.kOut + Config.size .sample inp } }

/-- A function of the standards of two polynomials. -/
def apply (e : RecipeEnv) (m : Micro) (f : Std) (a b : List Nat) : List Nat :=
  coefsOf e.run.q e.n (fit (4 * e.n) (Config.std f [e.params m, e.consts, coefBytes a, coefBytes b]))

/-- D from A, or from A and B, by a function of the standards. -/
def map (e : RecipeEnv) (m : Micro) (f : Std) (draw : Nat) : RecipeEnv :=
  let (e, a) := e.load m.a draw
  e.store m.d (e.apply m f a (e.poly m.b))

/-- Coefficient by coefficient modulo q. -/
def zip (e : RecipeEnv) (f : Nat → Nat → Nat) (a b : List Nat) : List Nat := List.zipWith (fun x y => f x y % max e.run.q 1) a b

/-- A ∘ B: coefficient-wise products, or with X = 1 degree-2 base-case products. -/
def times (e : RecipeEnv) (m : Micro) (a b : List Nat) : List Nat := if m.x = 1 then e.apply m .pointwise a b else e.zip (· * ·) a b

end RecipeEnv

/-- Coefficients at X bits each, lowest first, as bytes. -/
def packBits (x : Nat) (c : List Nat) : Bytes :=
  toLe (ceilDiv (x * c.length) 8) (c.foldr (fun v acc => v % 2 ^ x + 2 ^ x * acc) 0)
def unpackBits (x n : Nat) (b : Bytes) : List Nat :=
  let v := leNat b
  (numsFrom 0 n).map (fun i => v / 2 ^ (x * i) % 2 ^ x)

/-- The distance of a residue from zero. -/
def centred (q c : Nat) : Nat := min (c % max q 1) (q - c % max q 1)

/-! ### The actions of R331 -/

namespace RecipeEnv

/-- Modulus set X of the constants, whose layout is the recipe's own: its q is a free value (R331). -/
def setq (e : RecipeEnv) (m : Micro) (_ : Nat) : RecipeEnv :=
  { e with run := { e.run with q := Config.size .nttFwd [e.consts, toLe 1 (m.x % 4)] } }
def ntt (e : RecipeEnv) (m : Micro) (draw : Nat) : RecipeEnv := e.map m .nttFwd draw
def intt (e : RecipeEnv) (m : Micro) (draw : Nat) : RecipeEnv := e.map m .nttInv draw
def pmul (e : RecipeEnv) (m : Micro) (draw : Nat) : RecipeEnv :=
  let (e, a) := e.load m.a draw
  e.store m.d (e.times m a (e.poly m.b))
def pmac (e : RecipeEnv) (m : Micro) (draw : Nat) : RecipeEnv :=
  let (e, a) := e.load m.a draw
  e.store m.d (e.zip (· + ·) (e.poly m.d) (e.times m a (e.poly m.b)))
def padd (e : RecipeEnv) (m : Micro) (draw : Nat) : RecipeEnv :=
  let (e, a) := e.load m.a draw
  e.store m.d (e.zip (· + ·) a (e.poly m.b))
def psub (e : RecipeEnv) (m : Micro) (draw : Nat) : RecipeEnv :=
  let (e, a) := e.load m.a draw
  e.store m.d (e.zip (fun x y => x + (e.run.q - y % max e.run.q 1)) a (e.poly m.b))
def kinit (e : RecipeEnv) (m : Micro) (_ : Nat) : RecipeEnv := { e with run := { e.run with kFn := m.x % 4, kIn := [], kOut := 0 } }
def kabs (e : RecipeEnv) (m : Micro) (draw : Nat) : RecipeEnv :=
  if m.a < 80 then
    let b := coefBytes (e.poly m.a)
    e.write 0x7E (if m.b = 0 then b else b.take (16 * m.b))
  else
    let (e, b) := e.read m.a (if m.b = 0 then e.left m.a else 16 * m.b) draw
    e.write 0x7E b
/-- Packed bytes go to stream D; a slot takes them as the bytes of its coefficients. -/
def pack (e : RecipeEnv) (m : Micro) (draw : Nat) : RecipeEnv :=
  let (e, a) := e.load m.a draw
  let b := packBits m.x a
  if m.d < 80 then e.put m.d (coefsOf (2 ^ 32) e.n (fit (4 * e.n) b)) else e.write m.d b
/-- Packed bytes come from stream A, or are the bytes of a slot's coefficients. -/
def unpk (e : RecipeEnv) (m : Micro) (draw : Nat) : RecipeEnv :=
  let len := ceilDiv (m.x * e.n) 8
  let (e, b) := if m.a < 80 then (e, (coefBytes (e.poly m.a)).take len) else e.read m.a len draw
  e.store m.d (unpackBits m.x e.n b)
def norm (e : RecipeEnv) (m : Micro) (draw : Nat) : RecipeEnv :=
  let (e, a) := e.load m.a draw
  if a.any (fun c => decide (e.const m.x ≤ centred e.run.q c)) then { e with run := { e.run with reject := true } } else e
def ceq (e : RecipeEnv) (m : Micro) (_ : Nat) : RecipeEnv :=
  let same := (numsFrom 0 (m.x + 1)).all (fun k =>
    decide (getKey (List.replicate 256 0) e.slots (m.a + k) = getKey (List.replicate 256 0) e.slots (m.b + k)))
  { e with run := { e.run with flag := same } }
def csel (e : RecipeEnv) (m : Micro) (draw : Nat) : RecipeEnv :=
  let (e, a) := e.load m.a draw
  e.store m.d (if e.run.flag then a else e.poly m.b)

/-- `k` random shares of a slot. -/
def masks (e : RecipeEnv) (draw slot k : Nat) : List (List Nat) :=
  (numsFrom 0 k).map (fun j => coefsOf e.run.q 256 ((numsFrom (4096 * slot + 1024 * j) 1024).map (Config.rand draw)))

/-- The shares of a slot after SHARE: split into one more than the order, recombined, refreshed, or converted; the value that they stand for
does not change. -/
def shareSlot (e : RecipeEnv) (x draw i : Nat) : Shares :=
  let old := getKey {} e.shares i
  match x with
  | 0 => { masks := e.masks draw i e.order }
  | 1 => {}
  | 2 => { old with masks := e.masks draw i old.masks.length }
  | 3 => { boolean := true, masks := e.masks draw i old.masks.length }
  | 4 => { boolean := false, masks := e.masks draw i old.masks.length }
  | _ => old
def share (e : RecipeEnv) (m : Micro) (draw : Nat) : RecipeEnv :=
  { e with shares := (numsFrom m.a (e.n / 256)).foldl (fun sh i =>
      if i < 80 then setKey {} sh i (e.shareSlot m.x draw i) else sh) e.shares }

/-- A micro-command on a secret runs on every share: a slot that it fills is shared as those that it reads are. DESIGN CHOICE: the values of
its shares are those of the slot read; log entry 133. -/
def follow (e : RecipeEnv) (m : Micro) : RecipeEnv :=
  let (d, a, b) := microUses m.op
  if !d ∨ 80 ≤ m.d then e
  else
    let from_ (k : Nat) : Shares :=
      let x : Shares := if a && decide (m.a < 80) then getKey {} e.shares (m.a + k) else {}
      if x.masks.isEmpty && b && decide (m.b < 80) then getKey {} e.shares (m.b + k) else x
    { e with shares := (numsFrom 0 (e.n / 256)).foldl (fun sh k => setKey {} sh (m.d + k) (from_ k)) e.shares }

/-- MOVE. Between streams its length is not given; a slot is four bytes a coefficient. -/
def move (e : RecipeEnv) (m : Micro) (draw : Nat) : RecipeEnv :=
  if m.x = 1 then (if m.d < 80 then e.put m.d [] else e)
  else
    let n := if m.d < 80 then 4 * e.n else if m.a < 80 then 4 * e.n else Config.size .recipe [e.params m, toLe 1 m.a, toLe 1 m.d]
    let (e, b) := if m.a < 80 then (e, coefBytes (e.poly m.a)) else e.read m.a n draw
    if m.d < 80 then e.put m.d (coefsOf (2 ^ 32) e.n b) else e.write m.d b

end RecipeEnv

/-! ### Running a micro-command -/

/-- What KEY_H gives a recipe, and the source behind a blob (R319, R431). -/
def State.recipeKey (s : State) (r : Req) (o : Op) : Ready :=
  match r.berth with
  | some i =>
    match s.srcOf r with
    | .error f => .fail f
    | .ok src => .ok { bytes := (s.berth i).key.take 32, order := (s.berth i).linkOrder } src
  | none =>
    s.keyAndSource r (if o.isKem then { usages := [usDecap], lens := [64], holdLen := some 64 }
      else { usages := [usSign], lens := [32], holdLen := some 32 })

/-- The masking order of a recipe's request (R308). -/
def State.recipeOrder (s : State) (r : Req) (o : Op) (key : KeyMat) : Nat :=
  match o with
  | .mlkemKeygen | .mldsaKeygen => s.targetOrder r
  | .mlkemEncaps => r.defaultOrder
  | .mldsaVerify | .mldsaVerifyMu => 1
  | _ => if r.berth.isSome then key.order else r.keyOrder key

/-- The recipe run on engine n that can go on: its request, opcode, key and source, and the micro-command at its place. -/
def State.recipeEnv (s : State) (n : Nat) : Option RecipeEnv :=
  let p := s.ply n
  match p.run with
  | none => none
  | some x =>
    match s.findReq x.req with
    | none => none
    | some r =>
      match r.desc.op with
      | none => none
      | some o =>
        if r.phase = .running ∧ r.unit = .ply ∧ r.inst = n ∧ r.itemHere then
          match s.recipeKey r o with
          | .ok m src => some {
              ply := n, req := r, op := o, run := x, mem := p.rcp, slots := p.slots, shares := p.shares, order := s.recipeOrder r o m
              key := m, src := src }
          | _ => none
        else none

/-- The words of recipe memory that a micro-command reads: its own, and the constants of the set where it works with them. -/
def microWords (e : RecipeEnv) (m : Micro) : List Nat :=
  let set := numsFrom (rsConstOff e.run.set) (rsConstLen e.run.set)
  e.run.pc :: match m.op with
    | 0x01 => set
    | 0x04 | 0x05 => if m.x = 1 then set else []
    | 0x02 | 0x03 | 0x0A | 0x0B | 0x0C | 0x0D | 0x0E | 0x0F | 0x12 | 0x13 => set
    | 0x14 => [rsConstOff e.run.set + m.x]
    | _ => []

/-- The cache areas that a micro-command reads slots of (R305). -/
def microAreas (e : RecipeEnv) (m : Micro) : List Nat :=
  let (_, a, b) := microUses m.op
  let k := if m.op = 0x16 then m.x + 1 else e.n / 256
  let reads := (if a then numsFrom m.a k else []) ++ (if b then numsFrom m.b k else []) ++ (if m.op = 0x05 then numsFrom m.d k else [])
  ((reads.filter (fun i => decide (32 ≤ i ∧ i < 80))).map (fun i => (i - 32) / 4)).eraseDups

/-- Nothing that a micro-command reads holds bad symbols, and no check of its engine will find a fault. -/
def State.microSound (s : State) (n : Nat) (e : RecipeEnv) (m : Micro) : Bool :=
  (microWords e m).all (fun k => (lookupKey k (s.ply n).bad).isNone) &&
  (microAreas e m).all (fun a => (lookupKey a (s.ply n).areas).all (fun x => x.mem == 0)) && s.soundFor e.req

/-- A micro-command that meets bad symbols or a fault: an uncorrectable word of recipe memory stops it, an uncorrectable word of an area
poisons the request, and what can be corrected is (R335). -/
def State.microFlawed (s : State) (n : Nat) (e : RecipeEnv) (m : Micro) (f : State → RecipeEnv → State) : State :=
  let flaws := (microWords e m).filter (fun k => (lookupKey k (s.ply n).bad).isSome)
  if flaws.any (fun k => lookupKey k (s.ply n).bad == some true) then s.recipeLost n
  else
    let s := s.recipeFixed n flaws
    let (s, r) := s.readAreas e.req n (microAreas e m)
    s.checked r false (fun s r => f s { e with req := r })

/-- Runs the micro-command at the place of engine n's recipe if it is `op`. -/
def State.recipeDo (s : State) (n op : Nat) (f : State → RecipeEnv → Micro → State) : State :=
  match s.recipeEnv n with
  | none => s
  | some e =>
    let m := Micro.ofWord (e.mem.word e.run.pc)
    if m.op ≠ op then s
    else if s.microSound n e m then f s e m
    else s.microFlawed n e m (fun s e => f s e m)

/-- Leaves a recipe behind as a micro-command changed it, at the next one. -/
def State.recipeNext (s : State) (e : RecipeEnv) : State :=
  s.updPly e.ply (fun p => { p with run := some { e.run with pc := e.run.pc + 1 }, slots := e.slots, shares := e.shares })

/-- A micro-command that changes the recipe's own state; the words that it takes of the mask expander are fresh. -/
def State.recipeOp (s : State) (n op : Nat) (f : RecipeEnv → Micro → Nat → RecipeEnv) : State :=
  s.recipeDo n op (fun s e m =>
    let t := s.recipeNext ((f e m s.free).follow m)
    if m.drawsMask then t.drawn else t)

/-- What END gives: the results of the opcode from the streams of the recipe (R310 to R318, R326). -/
def State.recipeGive (s : State) (e : RecipeEnv) : State :=
  let r := e.req
  let out := e.run.out
  match e.op with
  | .mlkemKeygen => s.giveLattice r (fit 64 e.run.result) (fit (s.plyPk r e.op) out) usDecap
  | .mlkemEncaps =>
    if !kemRangeOk r.desc.algN (s.plySetBytes r e.op) e.src then (s.plyDone r).failOp r.id ⟨.inputRange, none⟩
    else s.giveLattice r (fit 32 e.run.result) (fit (s.plyCt r e.op) out) usDerive
  | .mlkemDecaps =>
    if e.src.length ≠ s.plyCt r e.op then (s.plyDone r).failOp r.id ⟨.badLength, none⟩
    else s.giveLattice r (fit 32 e.run.result) [] usDerive
  | .mldsaKeygen => s.giveLattice r (fit 32 e.run.result) (fit (s.plyPk r e.op) out) usSign
  | .mldsaSign | .mldsaSignMu =>
    if !dsaMsgOk e.op r.desc e.src.length then (s.plyDone r).failOp r.id ⟨.badLength, none⟩
    else
    let sig := fit (s.plyCt r e.op) out
    match r.berth with
    | some i => (s.useLink r i (s.plyAreas r e.op)).dsaFinish r e.op sig (e.run.iters + 1) 0
    | none =>
      if !r.desc.cache then s.dsaFinish r e.op sig (e.run.iters + 1) 0
      else
        match s.allocBerth r.ptn with
        | none => (s.plyDone r).failOp r.id ⟨.resourceBusy, none⟩
        | some i =>
          let tr := fit 64 (Config.std .dsaPublic [s.plySetBytes r e.op, e.key.bytes, ascii "tr"])
          let s := if s.poisoned r then s.drawn
            else (s.drawn.newLinked r i e.key.bytes tr (e.req.keyOrder e.key)).makeLink i r.inst (s.plyAreas r e.op) 13
          s.dsaFinish r e.op sig (e.run.iters + 1) (if s.poisoned r then 0 else berthHandle i)
  | .mldsaVerify | .mldsaVerifyMu => (s.plyDone r).verdict r.id (e.run.flag && !e.run.reject)
  | _ => s

/-- END (R323, R331). -/
def State.recipeEnd (s : State) (n : Nat) : State :=
  s.recipeDo n 0x00 (fun s e _ =>
    if !s.orderOk e.req e.op e.order then (s.plyDone e.req).failOp e.req.id ⟨.keyPolicy, none⟩ else s.underRoots e.req (fun s _ => s.recipeGive e))

/-- ITER: a rejected iteration starts again at the iteration entry, until ITER_MAX (R325). -/
def State.recipeIter (s : State) (n : Nat) : State :=
  s.recipeDo n 0x15 (fun s e _ =>
    if !e.run.reject then s.recipeNext e
    else if rsIterMax e.run.set ≤ e.run.iters + 1 then
      let s := s.setReg .plyIter (s.reg .plyIter n + BitVec.ofNat 32 (e.run.iters + 1)) n
      (s.plyDone e.req).failOp e.req.id ⟨.engineFault, none⟩
    else s.updPly n (fun p => { p with
      run := some { e.run with reject := false, iters := e.run.iters + 1, pc := rsEntry e.run.set 5 } }))

/-! ### Restore and scrub (R335, R523) -/

/-- RECIPE_COPY: engine n takes its recipe memory from the lowest-numbered engine in service with its tag. -/
def State.recipeCopy (s : State) (n : Nat) : State :=
  let p := s.ply n
  if !p.restoring then s
  else
    match (numsFrom 0 16).find? (fun k => !s.unitOut 3 k && !(s.ply k).woken && decide ((s.ply k).rcp.tag = p.rcp.tag)) with
    | none => s
    | some k =>
      let from_ := (s.ply k).rcp
      let woken := p.woken
      let s := s.updPly n (fun p => { p with rcp := from_, bad := [], restoring := false, woken := false })
      if woken then s else (s.setB .plyErr 3 true n).event srcPlyRcpCopy (s.unitDomain 3 n) n

/-- RECIPE_SCRUB: every word is read; corrected words are counted, and an uncorrectable one acts as when it is read. -/
def State.recipeScrub (s : State) (n : Nat) : State :=
  let p := s.ply n
  if p.restoring then s
  else
    let s := (p.bad.filter (fun e => !e.2)).foldl (fun s _ => s.event srcPlyMemCorr (s.unitDomain 3 n) n)
      (s.updPly n (fun p => { p with bad := p.bad.filter (·.2) }))
    if p.bad.any (·.2) then s.recipeLost n else s

/-! ### The commands -/

def execRecipeEnd (ply : Fin 16) (s : State) : Host.Outcome State Fault Refusal := s.run (fun s => s.recipeEnd ply)
def execSetq (ply : Fin 16) (s : State) : Host.Outcome State Fault Refusal := s.run (fun s => s.recipeOp ply 0x01 RecipeEnv.setq)
def execNtt (ply : Fin 16) (s : State) : Host.Outcome State Fault Refusal := s.run (fun s => s.recipeOp ply 0x02 RecipeEnv.ntt)
def execIntt (ply : Fin 16) (s : State) : Host.Outcome State Fault Refusal := s.run (fun s => s.recipeOp ply 0x03 RecipeEnv.intt)
def execPmul (ply : Fin 16) (s : State) : Host.Outcome State Fault Refusal := s.run (fun s => s.recipeOp ply 0x04 RecipeEnv.pmul)
def execPmac (ply : Fin 16) (s : State) : Host.Outcome State Fault Refusal := s.run (fun s => s.recipeOp ply 0x05 RecipeEnv.pmac)
def execPadd (ply : Fin 16) (s : State) : Host.Outcome State Fault Refusal := s.run (fun s => s.recipeOp ply 0x06 RecipeEnv.padd)
def execPsub (ply : Fin 16) (s : State) : Host.Outcome State Fault Refusal := s.run (fun s => s.recipeOp ply 0x07 RecipeEnv.psub)
def execKinit (ply : Fin 16) (s : State) : Host.Outcome State Fault Refusal := s.run (fun s => s.recipeOp ply 0x08 RecipeEnv.kinit)
def execKabs (ply : Fin 16) (s : State) : Host.Outcome State Fault Refusal := s.run (fun s => s.recipeOp ply 0x09 RecipeEnv.kabs)
def execSuni (ply : Fin 16) (s : State) : Host.Outcome State Fault Refusal := s.run (fun s => s.recipeOp ply 0x0A RecipeEnv.sampler)
def execScbd (ply : Fin 16) (s : State) : Host.Outcome State Fault Refusal := s.run (fun s => s.recipeOp ply 0x0B RecipeEnv.sampler)
def execSeta (ply : Fin 16) (s : State) : Host.Outcome State Fault Refusal := s.run (fun s => s.recipeOp ply 0x0C RecipeEnv.sampler)
def execSmsk (ply : Fin 16) (s : State) : Host.Outcome State Fault Refusal := s.run (fun s => s.recipeOp ply 0x0D RecipeEnv.sampler)
def execSball (ply : Fin 16) (s : State) : Host.Outcome State Fault Refusal := s.run (fun s => s.recipeOp ply 0x0E RecipeEnv.sampler)
def execCmpr (ply : Fin 16) (s : State) : Host.Outcome State Fault Refusal := s.run (fun s => s.recipeOp ply 0x0F (fun e m => e.map m .compress))
def execPack (ply : Fin 16) (s : State) : Host.Outcome State Fault Refusal := s.run (fun s => s.recipeOp ply 0x10 RecipeEnv.pack)
def execUnpk (ply : Fin 16) (s : State) : Host.Outcome State Fault Refusal := s.run (fun s => s.recipeOp ply 0x11 RecipeEnv.unpk)
def execRound (ply : Fin 16) (s : State) : Host.Outcome State Fault Refusal := s.run (fun s => s.recipeOp ply 0x12 (fun e m => e.map m .compress))
def execHint (ply : Fin 16) (s : State) : Host.Outcome State Fault Refusal := s.run (fun s => s.recipeOp ply 0x13 (fun e m => e.map m .hint))
def execNorm (ply : Fin 16) (s : State) : Host.Outcome State Fault Refusal := s.run (fun s => s.recipeOp ply 0x14 RecipeEnv.norm)
def execIter (ply : Fin 16) (s : State) : Host.Outcome State Fault Refusal := s.run (fun s => s.recipeIter ply)
def execCeq (ply : Fin 16) (s : State) : Host.Outcome State Fault Refusal := s.run (fun s => s.recipeOp ply 0x16 RecipeEnv.ceq)
def execCsel (ply : Fin 16) (s : State) : Host.Outcome State Fault Refusal := s.run (fun s => s.recipeOp ply 0x17 RecipeEnv.csel)
def execShare (ply : Fin 16) (s : State) : Host.Outcome State Fault Refusal := s.run (fun s => s.recipeOp ply 0x18 RecipeEnv.share)
def execMove (ply : Fin 16) (s : State) : Host.Outcome State Fault Refusal := s.run (fun s => s.recipeOp ply 0x19 RecipeEnv.move)
/-- RECIPE_COPY (R335, R523). -/
def execRecipeCopy (ply : Fin 16) (s : State) : Host.Outcome State Fault Refusal := s.run (fun s => s.recipeCopy ply)
/-- RECIPE_SCRUB (R335). -/
def execRecipeScrub (ply : Fin 16) (s : State) : Host.Outcome State Fault Refusal := s.run (fun s => s.recipeScrub ply)

end Sys2Proof.Machine
end

