-- ==== Sys2Proof/Machine/OpsBne.lean ====
section
/-!
DEFINITION. The big-number engines: modular arithmetic, RSA, elliptic curves, operand memory and the checks of loadable
curves (R358 to R383).
-/
namespace Sys2Proof.Machine

/-! ### Ends of an operation -/

/-- An operation of a big-number engine: BNE_OPS counts it when it completes. -/
def State.bneOp (s : State) (rid : Nat) (op : Op) (f : State → Req → State) : State :=
  s.runOp rid op (fun s r =>
    let t := f s r
    if (t.findReq rid).map (·.phase) = some .produced then t.setReg .bneOps (t.reg .bneOps r.inst + 1) r.inst else t)

/-- Nothing is committed, and zeros are written over the `n` bytes of the output that OK would have written (R364). -/
def State.edge (s : State) (r : Req) (n : Nat) (st : Status) (detail : Option Nat) : State :=
  let s := if r.desc.holdOut ∧ !s.poisoned r then s.writeHold r (r.desc.dstAddr.toNat % 8) (zeros n) else s
  s.produce r.id {
    status := st, out := zeros n, detail := detail.map (BitVec.ofNat 32), scrubbed := decide (0 < n), unit := r.unit, inst := r.inst }

def State.edgeZero (s : State) (r : Req) (n : Nat) : State := s.edge r n .inputRange (some 0x0710)
def State.edgeRange (s : State) (r : Req) (n : Nat) : State := s.edge r n .inputRange (some 0x0711)
def State.edgePoint (s : State) (r : Req) (n : Nat) : State := s.edge r n .pointInvalid none
def State.edgeIdentity (s : State) (r : Req) (n : Nat) : State := s.edge r n .resultIdentity none

/-- A result check failed (R366). -/
def State.checkFail (s : State) (r : Req) : State :=
  (((s.setB .bneErr 2 true r.inst).event srcBneEngine (s.unitDomain 5 r.inst) r.inst).failOp r.id ⟨.engineFault, none⟩)

/-- Runs an operation on its source. -/
def State.withSource (s : State) (r : Req) (f : State → Bytes → State) : State :=
  match s.srcOf r with
  | .error e => s.failOp r.id e
  | .ok src => f s src

/-! ### Modular arithmetic (R367, R372) -/

def State.bneModmul (s : State) (rid : Nat) : State :=
  s.bneOp rid .modmul (fun s r => s.withSource r (fun s src =>
    let k := r.desc.modBytes
    let m := leNat (slice src 0 k)
    let a := leNat (slice src k k)
    let b := leNat (slice src (2 * k) k)
    if !modulusOk r.desc.modBits m then s.failOp rid ⟨.paramInvalid, none⟩
    else if m ≤ a ∨ m ≤ b then s.edgeRange r k
    else s.succeed rid (toLe k (a * b % m))))

def State.bneModexp (s : State) (rid : Nat) : State :=
  s.bneOp rid .modexp (fun s r => s.withSource r (fun s src =>
    let k := r.desc.modBytes
    let m := leNat (slice src 0 k)
    let x := leNat (slice src k k)
    if !modulusOk r.desc.modBits m then s.failOp rid ⟨.paramInvalid, none⟩
    else if m ≤ x then s.edgeRange r k
    else s.succeed rid (toLe k (modPow m (8 * k) x (leNat (slice src (2 * k) k))))))

def State.bneModinv (s : State) (rid : Nat) : State :=
  s.bneOp rid .modinv (fun s r => s.withSource r (fun s src =>
    let k := r.desc.modBytes
    let m := leNat (slice src 0 k)
    let a := leNat (slice src k k)
    if !modulusOk r.desc.modBits m then s.failOp rid ⟨.paramInvalid, none⟩
    else if a = 0 then s.edgeZero r k
    else if m ≤ a then s.edgeRange r k
    else
      match modInverse m a with
      | none => s.edge r k .inputRange (some 0x0712)
      | some v => s.succeed rid (toLe k v)))

/-- Base i of a test of w, from 2 to w − 2, out of the bytes drawn. -/
def State.primeBase (s : State) (r : Req) (w i : Nat) : Nat := 2 + leNat (s.value r r.desc.modBytes (i * r.desc.modBytes)) % (w - 3)

/-- PRIME_TEST: an even candidate, or one below 3, is composite; else every one of R Miller-Rabin rounds decides. -/
def State.bnePrimeTest (s : State) (rid : Nat) : State :=
  s.bneOp rid .primeTest (fun s r => s.withSource r (fun s src =>
    let w := leNat src
    let good := decide (w % 2 = 1) && decide (3 ≤ w) &&
      (w == 3 || (numsFrom 0 r.desc.rounds).all (fun i => millerRabin w (s.primeBase r w i)))
    s.drawn.succeed rid [if good then 0x01 else 0x00]))

/-! ### RSA (R368 to R371) -/

/-- A private key's fields (R368). -/
structure RsaKey where
  bits : Nat
  n : Nat
  e : Nat
  p : Nat
  q : Nat
  dP : Nat
  dQ : Nat
  qInv : Nat
  deriving DecidableEq, Repr

/-- The layout of a private key's plaintext: B from its length; n, e, then p, q, dP, dQ and qInv. -/
def rsaKeyOf (b : Bytes) : RsaKey :=
  let k := (b.length - 32) * 2 / 7
  let h := k / 2
  let part (i : Nat) : Nat := beNat (slice b (k + 32 + i * h) h)
  { bits := 8 * k, n := beNat (slice b 0 k), e := beNat (slice b k 32), p := part 0, q := part 1, dP := part 2, dQ := part 3, qInv := part 4 }

/-- e is odd and at least 3 (R370). -/
def rsaExpOk (e : Nat) : Bool := decide (e % 2 = 1) && decide (3 ≤ e)

def RsaKey.ok (k : RsaKey) (b : Bytes) : Bool :=
  modBitsOk k.bits 2048 && decide (b.length = rsaBodyLen k.bits) && modulusOk k.bits k.n && rsaExpOk k.e &&
  decide (2 ^ (k.bits / 2 - 1) ≤ k.p ∧ k.p < 2 ^ (k.bits / 2)) && decide (2 ^ (k.bits / 2 - 1) ≤ k.q ∧ k.q < 2 ^ (k.bits / 2))

/-- The private operation by the Chinese remainder theorem. -/
def RsaKey.apply (k : RsaKey) (y : Nat) : Nat :=
  let m1 := modPow k.p k.bits (y % k.p) k.dP
  let m2 := modPow k.q k.bits (y % k.q) k.dQ
  m2 + k.q * (k.qInv * (m1 + k.p - m2 % k.p) % k.p)

/-- Runs an RSA private operation: the key comes in a blob, and its B bits fix the lengths behind it. -/
def State.withRsa (s : State) (r : Req) (need : KeyNeed) (f : State → RsaKey → Bytes → State) : State :=
  s.withKey r need (fun s m src =>
    let k := rsaKeyOf m.bytes
    if !k.ok m.bytes then s.failOp r.id ⟨.paramInvalid, none⟩ else f s k src) [1]

/-- The private operation with its check (R366): the result raised to e gives the input back. -/
def State.rsaPrivate (s : State) (r : Req) (k : RsaKey) (y : Nat) (f : State → Nat → State) : State :=
  let m := k.apply y
  if modPow k.n 256 (m % k.n) k.e ≠ y then s.checkFail r else f s m

def State.bneRsaPublic (s : State) (rid : Nat) : State :=
  s.bneOp rid .rsaPublic (fun s r => s.withSource r (fun s src =>
    let k := r.desc.modBytes
    let n := beNat (r.aux.take k)
    let e := beNat (slice r.aux k 32)
    let x := beNat src
    if !modulusOk r.desc.modBits n || !rsaExpOk e then s.failOp rid ⟨.paramInvalid, none⟩
    else if x = 0 then s.edgeZero r k
    else if n ≤ x then s.edgeRange r k
    else s.succeed rid (toBe k (modPow n 256 x e))))

def State.bneRsaPrivateCrt (s : State) (rid : Nat) : State :=
  s.bneOp rid .rsaPrivateCrt (fun s r => s.withRsa r { usages := [usSign, usDecrypt], unlocked := true } (fun s k src =>
    let n := k.bits / 8
    let y := beNat src
    if src.length ≠ n ∨ r.desc.dstLen.toNat < n then s.failOp rid ⟨.badLength, none⟩
    else if y = 0 then s.edgeZero r n
    else if k.n ≤ y then s.edgeRange r n
    else s.drawn.rsaPrivate r k y (fun s m => s.succeed rid (toBe n m))))

/-- mHash of the PSS opcodes: given, or the digest of the message (R369). -/
def pssDigestOf (d : Desc) (m : Bytes) : Bytes := if d.pssDigest then m else hashFn d.algN 0 m

/-- RSA_PSS_SIGN. -/
def State.bnePssSign (s : State) (rid : Nat) : State :=
  s.bneOp rid .rsaPssSign (fun s r => s.withRsa r { usages := [usSign] } (fun s k src =>
    let n := k.bits / 8
    let d := r.desc
    if (d.pssDigest && decide (src.length ≠ hashLen d.algN 0)) ∨ d.dstLen.toNat < n then s.failOp rid ⟨.badLength, none⟩
    else
      let salt := s.value r d.saltLen
      let em := beNat (pssEncode d.algN n (pssDigestOf d src) salt)
      s.drawn.rsaPrivate r k em (fun s m => s.succeed rid (toBe n m))))

/-- RSA_PSS_VERIFY: a signature that is zero or not below n is rejected (R370). -/
def State.bnePssVerify (s : State) (rid : Nat) : State :=
  s.bneOp rid .rsaPssVerify (fun s r => s.withSource r (fun s src =>
    let k := r.desc.modBytes
    let n := beNat (r.aux.take k)
    let e := beNat (slice r.aux k 32)
    let sig := beNat (src.take k)
    if !modulusOk r.desc.modBits n || !rsaExpOk e then s.failOp rid ⟨.paramInvalid, none⟩
    else
      s.verdict rid (decide (sig ≠ 0) && decide (sig < n) &&
        pssOk r.desc.algN k r.desc.saltLen (pssDigestOf r.desc (src.drop k)) (toBe k (modPow n 256 sig e)))))

def State.bneOaepEncrypt (s : State) (rid : Nat) : State :=
  s.bneOp rid .rsaOaepEncrypt (fun s r => s.withSource r (fun s src =>
    let k := r.desc.modBytes
    let n := beNat (r.aux.take k)
    let e := beNat (slice r.aux k 32)
    if !modulusOk r.desc.modBits n || !rsaExpOk e then s.failOp rid ⟨.paramInvalid, none⟩
    else
      let seed := s.value r (hashLen r.desc.algN 0)
      let em := oaepEncode r.desc.algN k src (r.aux.drop (k + 32)) seed
      s.drawn.succeed rid (toBe k (modPow n 256 (beNat em) e))))

/-- RSA_OAEP_DECRYPT: a decoding that fails at any step is VERIFY_FAILED. -/
def State.bneOaepDecrypt (s : State) (rid : Nat) : State :=
  s.bneOp rid .rsaOaepDecrypt (fun s r => s.withRsa r { usages := [usDecrypt] } (fun s k src =>
    let n := k.bits / 8
    let c := beNat src
    if src.length ≠ n then s.failOp rid ⟨.badLength, none⟩
    else if c = 0 then s.edgeZero r 0
    else if k.n ≤ c then s.edgeRange r 0
    else
      s.drawn.rsaPrivate r k c (fun s m =>
        match oaepDecode r.desc.algN n (toBe n m) r.aux with
        | none => s.failOp rid ⟨.verifyFailed, none⟩
        | some msg => if r.desc.dstLen.toNat < msg.length then s.failOp rid ⟨.badLength, none⟩ else s.succeed rid msg)))

/-- The plaintext of a key from its primes (R368). -/
def rsaPlain (b e p q : Nat) : Bytes :=
  let h := b / 16
  toBe (b / 8) (p * q) ++ toBe 32 e ++ toBe h p ++ toBe h q ++ toBe h ((modInverse (p - 1) e).getD 0) ++ toBe h ((modInverse (q - 1) e).getD 0) ++
    toBe h ((modInverse p q).getD 0)

/-- RSA_KEYGEN: the new key leaves only wrapped (R371, R429, R430). -/
def State.bneRsaKeygen (s : State) (rid : Nat) : State :=
  s.bneOp rid .rsaKeygen (fun s r => s.withKey r { usages := [usWrap], lens := [32] } (fun s m _ =>
    let b := r.desc.modBits
    let k := r.desc.modBytes
    let e := beNat r.aux
    if e % 2 = 0 ∨ e ≤ 2 ^ 16 then s.failOp rid ⟨.paramInvalid, none⟩
    else
      let seed := s.value r 64
      let s := s.drawn
      let prime (i : Nat) : Nat := beNat (fit (b / 16) (Config.std .rsaPrime [toLe 2 b, r.aux, seed, toLe 1 i]))
      let plain := rsaPlain b e (prime 0) (prime 1)
      if !Config.holds .rsaPrime [toLe 2 b, r.aux, seed] || !(rsaKeyOf plain).ok plain then
        ((s.setB .bneErr 3 true r.inst).event srcBneEngine (s.unitDomain 5 r.inst) r.inst).failOp rid ⟨.engineFault, none⟩
      else
        let usage := if fld r.desc.param 17 16 = 0 then usSign else usDecrypt
        s.drawn.succeed rid (plain.take k ++ s.makeBlob r.ptn 1 b { usage := usage } plain (s.value r 12 64) m.bytes)))

/-! ### Elliptic curves (R373 to R380) -/

/-- Bytes that EC_KEYGEN draws: the key with 64 extra bits (R365). -/
def State.keyDraw (s : State) (alg : Nat) : Nat := if isWeier alg then (s.curveOf alg).scalarBytes else s.curveLen alg + 8

/-- FLAGS of a loadable curve: bit 0 ECDSA, bit 1 ECDH (R381). -/
def State.curveAllows (s : State) (alg bit : Nat) : Bool :=
  match curveEntry alg with
  | some i => (le16 (getKey [] s.curves.entries i) 4).testBit bit
  | none => true

def State.curveKey (s : State) (r : Req) (usage : Nat) : KeyNeed :=
  { usages := [usage], lens := [s.curveLen r.desc.algN], holdLen := some (s.curveLen r.desc.algN) }

/-- The nonce of ECDSA_SIGN: FIPS 186-5 section 6.3.2 under DETERMINISTIC, and else drawn with 64 extra bits (R365, R376). -/
def State.ecNonce (s : State) (r : Req) (c : Curve) (key digest : Bytes) : Nat :=
  c.scalarFrom (if bitOf r.desc.param 1 then Config.std .ecNonce [toBe 66 c.n, [BitVec.ofNat 8 (fld r.desc.param 15 8)], key, digest]
    else s.value r c.scalarBytes)

def State.bneEcdsaSign (s : State) (rid : Nat) : State :=
  s.bneOp rid .ecdsaSign (fun s r =>
    let d := r.desc
    let l := s.curveLen d.algN
    let c := s.curveOf d.algN
    if !s.curveAllows d.algN 0 then s.failOp rid ⟨.keyPolicy, none⟩
    else
      s.withKey r (s.curveKey r usSign) (fun s m src =>
        if !ecMsgOk d src.length 0 then s.failOp rid ⟨.badLength, none⟩
        else
          match c.scalarFault m.bytes with
          | some f => s.edge r (2 * l) f.1 f.2
          | none =>
            let digest := ecDigestOf d src
            let sig := c.ecdsa (s.ecNonce r c m.bytes digest) (beNat m.bytes) digest
            if sig.1 = 0 ∨ sig.2 = 0 then s.drawn.failOp rid ⟨.engineFault, none⟩ else s.drawn.succeed rid (toBe l sig.1 ++ toBe l sig.2)))

def State.bneEcdsaVerify (s : State) (rid : Nat) : State :=
  s.bneOp rid .ecdsaVerify (fun s r => s.withSource r (fun s src =>
    let d := r.desc
    let l := s.curveLen d.algN
    let c := s.curveOf d.algN
    if !s.curveAllows d.algN 0 then s.failOp rid ⟨.keyPolicy, none⟩
    else
      match c.pointFault l r.aux with
      | some f => s.edge r 0 f.1 f.2
      | none => s.verdict rid (c.ecdsaOk l r.aux (beNat (src.take l)) (beNat (slice src l l)) (ecDigestOf d (src.drop (2 * l))))))

/-- Gives a shared value to the hold of HOLD_OUT or to the DERIVE_ONLY slot of RESULT_H (R375). -/
def State.giveShared (s : State) (r : Req) (b : Bytes) : State :=
  if r.desc.holdOut then s.succeed r.id b else s.giveKeyPair r b [] 0 [usDerive]

/-- Bytes that OK would have written to the destination by a key agreement. -/
def Desc.sharedOut (d : Desc) (l : Nat) : Nat := if d.holdOut then l else 0

def State.bneEcdh (s : State) (rid : Nat) : State :=
  s.bneOp rid .ecdh (fun s r =>
    let d := r.desc
    let l := s.curveLen d.algN
    let c := s.curveOf d.algN
    let n := d.sharedOut l
    if !s.curveAllows d.algN 1 then s.failOp rid ⟨.keyPolicy, none⟩
    else
      s.withKey r (s.curveKey r usDerive) (fun s m src =>
        if src.length ≠ 1 + 2 * l then s.failOp rid ⟨.badLength, none⟩
        else
          match c.scalarFault m.bytes, c.pointFault l src with
          | some f, _ => s.edge r n f.1 f.2
          | none, some f => s.edge r n f.1 f.2
          | none, none =>
            match c.times (c.h * beNat m.bytes) (some (pointAt l src)) with
            | none => s.drawn.edgeIdentity r n
            | some (x, _) => s.drawn.giveShared r (toBe l x)))

def State.bneXdh (s : State) (rid : Nat) : State :=
  s.bneOp rid .xdh (fun s r =>
    let d := r.desc
    let l := s.curveLen d.algN
    let n := d.sharedOut l
    s.withKey r (s.curveKey r usDerive) (fun s m src =>
      let u := montU d.algN src
      if src.length ≠ l then s.failOp rid ⟨.badLength, none⟩
      else if u = 0 then s.edgeZero r n
      else if montP d.algN ≤ u then s.edgeRange r n
      else
        let v := xdhFn d.algN m.bytes u
        if allZero v then s.drawn.edgeIdentity r n else s.drawn.giveShared r v))

/-- The USAGE of the result slot of EC_KEYGEN. -/
def State.keygenUsage (s : State) (r : Req) : Nat :=
  match s.resolve r r.desc.resultH with
  | some h => if handleType h = 1 then (s.key (handleIndex h)).usage else 0
  | none => 0

/-- A new private key: FIPS 186-5 appendix A.2.1, or a seed or scalar as drawn (R365, R373). -/
def State.newScalar (s : State) (r : Req) : Bytes :=
  let a := r.desc.algN
  let c := s.curveOf a
  if isWeier a then toBe (s.curveLen a) (c.scalarFrom (s.value r c.scalarBytes)) else (s.value r (s.keyDraw a)).take (s.curveLen a)

/-- The public key of a private key in the encoding of R373. -/
def State.ecPublic (s : State) (alg : Nat) (priv : Bytes) : Bytes :=
  let c := s.curveOf alg
  if isWeier alg then encodePoint (s.curveLen alg) (c.times (beNat priv) c.base)
  else if isEdwards alg then edPublic alg priv
  else xdhFn alg priv (if alg = 0x18 then 9 else 5)

def State.bneEcKeygen (s : State) (rid : Nat) : State :=
  s.bneOp rid .ecKeygen (fun s r =>
    let a := r.desc.algN
    let usage := s.keygenUsage r
    if (usage = usSign ∧ !s.curveAllows a 0) ∨ (usage = usDerive ∧ !s.curveAllows a 1) then s.failOp rid ⟨.keyPolicy, none⟩
    else
      let priv := s.newScalar r
      s.drawn.giveKeyPair r priv (s.ecPublic a priv) 0 [usSign, usDerive])

/-- The pure and context variants read the whole item first, which must fit the lane (R378). -/
def edTooLong (r : Req) : Bool := decide (r.desc.variant ≠ 2) && decide (128 * r.bas.limitIn < r.desc.itemLen)

def State.bneEddsaSign (s : State) (rid : Nat) : State :=
  s.bneOp rid .eddsaSign (fun s r =>
    let d := r.desc
    if edTooLong r then s.failOp rid ⟨.badLength, none⟩
    else
      s.withKey r (s.curveKey r usSign) (fun s m src =>
        if !edMsgOk d src.length 0 then s.failOp rid ⟨.badLength, none⟩
        else s.drawn.succeed rid (edSign d m.bytes r.aux src)))

def State.bneEddsaVerify (s : State) (rid : Nat) : State :=
  s.bneOp rid .eddsaVerify (fun s r => s.withSource r (fun s src =>
    let d := r.desc
    let l := s.curveLen d.algN
    if edTooLong r then s.failOp rid ⟨.badLength, none⟩
    else
      match (edCurve d.algN).keyFault (r.aux.take l) with
      | some f => s.edge r 0 f.1 f.2
      | none => s.verdict rid (edVerify d (r.aux.take l) (r.aux.drop l) (src.take (2 * l)) (src.drop (2 * l)))))

/-! ### Operand memory (R359 to R362) -/

/-- L in force from a SLOT_WORDS value. -/
def slotWordsOf (v : Nat) : Nat := clampN 4 130 v

def State.operandsAt (s : State) (n : Nat) : Operands := s.operands.getD (s.physical 5 n) {}
def State.updOperands (s : State) (n : Nat) (f : Operands → Operands) : State :=
  { s with operands := modAt f (s.physical 5 n) s.operands }

/-- SLOT_WORDS_APPLY: the new slot length takes effect once the engine holds no allocation, with the whole memory
zeroized (R359, R387). -/
def State.slotWordsApply (s : State) (n : Nat) : State :=
  let o := s.operandsAt n
  if o.waiting ∧ o.groups = [] then
    s.updOperands n (fun _ => { slotWords := slotWordsOf (s.regF .bneCfg 7 0 n) })
  else s

/-! ### Loadable curves (R381, R382) -/

/-- The layout of an entry (R381). -/
def curveLayoutOk (b : Bytes) : Bool :=
  let c := entryCurve b
  let bits := le16 b 2
  decide (byteAt b 0 ≤ 15) && decide (1 ≤ c.h ∧ c.h ≤ 8) && decide (192 ≤ bits ∧ bits ≤ 521) &&
  decide (le16 b 4 ≤ 3) && decide (le16 b 6 = 0) && allZero (slice b 0x1A4 4) &&
  (slice b 8 16).all (fun x => decide (x.toNat < 0x80)) &&
  decide (2 ^ (bits - 1) ≤ c.p ∧ c.p < 2 ^ bits) && decide (c.a < c.p ∧ c.b < c.p ∧ c.gx < c.p ∧ c.gy < c.p)

/-- Check k of R382 on entry i. -/
def curveCheck (b : Bytes) (i k : Nat) : Bool :=
  let c := entryCurve b
  let hn := c.h * c.n
  match k with
  | 1 => isPrime c.p
  | 2 => decide ((4 * c.a ^ 3 + 27 * c.b ^ 2) % c.p ≠ 0)
  | 3 => c.holdsAt c.gx c.gy
  | 4 => isPrime c.n
  | 5 => decide (c.times c.n c.base = none)
  | 6 => decide (c.h ≤ 8) && decide (((hn : Int) - (c.p + 1)) ^ 2 ≤ 4 * c.p)
  | 7 => decide (c.n ≠ c.p)
  | 8 => (numsFrom 1 20).all (fun j => decide (modPow c.n 5 (c.p % c.n) j ≠ 1))
  | _ => curveLayoutOk b && decide (byteAt b 0 = i)

/-- CURVE_CHECK_DONE: entry i, which an engine has under check, has been through the checks of R382, the ninth for one loaded through
CRV_CTRL. -/
def State.curveCheckDone (s : State) (i : Nat) : State :=
  if s.curves.checking.map (·.1) = some i then
    let s : State := { s with curves := { s.curves with checking := none } }
    let b := getKey [] s.curves.entries i
    match (numsFrom 1 (if s.curves.loaded.contains i then 9 else 8)).find? (fun k => !curveCheck b i k) with
    | none => (s.setF .crvStatus 2 0 3 i).setF .crvStatus 11 8 0 i
    | some k => (s.setF .crvStatus 2 0 4 i).setF .crvStatus 11 8 k i
  else s

/-! ### The commands -/

def execModmul (rid : Nat) (s : State) : Host.Outcome State Fault Refusal := s.run (fun s => s.bneModmul rid)
def execModexp (rid : Nat) (s : State) : Host.Outcome State Fault Refusal := s.run (fun s => s.bneModexp rid)
def execModinv (rid : Nat) (s : State) : Host.Outcome State Fault Refusal := s.run (fun s => s.bneModinv rid)
def execRsaPublic (rid : Nat) (s : State) : Host.Outcome State Fault Refusal := s.run (fun s => s.bneRsaPublic rid)
def execRsaPrivateCrt (rid : Nat) (s : State) : Host.Outcome State Fault Refusal := s.run (fun s => s.bneRsaPrivateCrt rid)
def execRsaPssSign (rid : Nat) (s : State) : Host.Outcome State Fault Refusal := s.run (fun s => s.bnePssSign rid)
def execRsaPssVerify (rid : Nat) (s : State) : Host.Outcome State Fault Refusal := s.run (fun s => s.bnePssVerify rid)
def execRsaOaepEncrypt (rid : Nat) (s : State) : Host.Outcome State Fault Refusal := s.run (fun s => s.bneOaepEncrypt rid)
def execRsaOaepDecrypt (rid : Nat) (s : State) : Host.Outcome State Fault Refusal := s.run (fun s => s.bneOaepDecrypt rid)
def execRsaKeygen (rid : Nat) (s : State) : Host.Outcome State Fault Refusal := s.run (fun s => s.bneRsaKeygen rid)
def execPrimeTest (rid : Nat) (s : State) : Host.Outcome State Fault Refusal := s.run (fun s => s.bnePrimeTest rid)
def execEcdsaSign (rid : Nat) (s : State) : Host.Outcome State Fault Refusal := s.run (fun s => s.bneEcdsaSign rid)
def execEcdsaVerify (rid : Nat) (s : State) : Host.Outcome State Fault Refusal := s.run (fun s => s.bneEcdsaVerify rid)
def execEcdh (rid : Nat) (s : State) : Host.Outcome State Fault Refusal := s.run (fun s => s.bneEcdh rid)
def execEcKeygen (rid : Nat) (s : State) : Host.Outcome State Fault Refusal := s.run (fun s => s.bneEcKeygen rid)
def execEddsaSign (rid : Nat) (s : State) : Host.Outcome State Fault Refusal := s.run (fun s => s.bneEddsaSign rid)
def execEddsaVerify (rid : Nat) (s : State) : Host.Outcome State Fault Refusal := s.run (fun s => s.bneEddsaVerify rid)
def execXdh (rid : Nat) (s : State) : Host.Outcome State Fault Refusal := s.run (fun s => s.bneXdh rid)
/-- SLOT_WORDS_APPLY (R359). -/
def execSlotWordsApply (n : Fin 8) (s : State) : Host.Outcome State Fault Refusal := s.run (fun s => s.slotWordsApply n)
/-- CURVE_CHECK_DONE (R91, R382). -/
def execCurveCheckDone (n : Fin 16) (s : State) : Host.Outcome State Fault Refusal := s.run (fun s => s.curveCheckDone n)

end Sys2Proof.Machine
end

