-- ==== Sys2Proof/Machine/OpsKey.lean ====
section
/-!
DEFINITION. The key store's opcodes, clear key commits, the keep secret, the report opcodes, and NOP, FENCE, COPY and
GET_RANDOM (R24, R127, R400, R401, R422 to R433, R440, R462 to R465, R559).
-/
namespace Sys2Proof.Machine

/-! ### Helpers -/

/-- The request reports the half that holds slot i. -/
def State.onHalf (s : State) (rid i : Nat) : State := s.updReq rid (fun r => { r with inst := halfOf i })

/-- A key-store operation: with no key store, it ends with ROOT_UNAVAILABLE (R438). -/
def State.keyOp (s : State) (rid : Nat) (op : Op) (f : State → Req → State) : State :=
  s.runOp rid op (fun s r => if s.noKeys then s.failOp rid ⟨.rootUnavailable, none⟩ else f s r)

/-- The request goes back to its lane to wait for the keep secret (R559). -/
def State.waitKeep (s : State) (rid : Nat) : State :=
  if s.rngState = rngHalted then s.failOp rid ⟨.entropyHalted, none⟩
  else s.updReq rid (fun r => { r with phase := .queued, joined := [], hashCore := none })

/-- The attributes of an attribute word (R424). -/
def KeySlot.ofWord (p : Nat) (w : W32) : KeySlot :=
  { state := .valid, owner := p, usage := fld w 30 28, order := fld w 27 26, exportW := bitOf w 25, keepBound := bitOf w 24,
    lockEn := bitOf w 23, lockClass := fld w 22 19, lockAlg := fld w 18 11, len := fld w 7 0, recNo := 0x7F }

/-- The slot into which a key of `len` bytes with its own attributes goes: the one named, judged under R421, or one
allocated (R420). The answer says whether it is a pair. -/
def State.keyPlace (s : State) (r : Req) (kind len : Nat) : Except Status (Nat × Bool) :=
  if r.desc.resultH = 0 then
    match s.allocSlot r.ptn (decide (64 < len)) with
    | some i => .ok (i, decide (64 < len))
    | none => .error .resourceBusy
  else
    match s.namedSlot r r.desc.resultH with
    | none => .error .keyHandleInvalid
    | some i =>
      match s.targetFault r.ptn i kind [1, 2, 3, 4, 5, 6] len with
      | some st => .error st
      | none => .ok (i, (s.key i).pair == 1)

/-! ### KEY_GENERATE, KEY_DESTROY, KEY_ATTR_READ and KEY_DERIVE (R425 to R428) -/

def State.keyGenerate (s : State) (rid : Nat) : State :=
  s.keyOp rid .keyGenerate (fun s r =>
    let w := r.desc.param
    let len := fld w 7 0
    if r.desc.holdOut then s.drawn.succeed rid (s.value r len)
    else
      match s.keyPlace r 0 len with
      | .error st => s.failOp rid ⟨st, none⟩
      | .ok (i, pair) =>
        let k := KeySlot.ofWord r.ptn w
        let s := s.onHalf rid i
        if s.poisoned r then s.succeed rid []
        else if bitOf w 31 then (s.putKey i { k with state := .reserved } [] pair).succeed rid [] (slotHandle i)
        else (s.drawn.putKey i k (s.value r len) pair).succeed rid [] (slotHandle i))

/-- Checks 1 and 2 of R556 on slot i. -/
def State.ownerFault (s : State) (p i : Nat) : Option Status :=
  let k := s.key i
  if k.state = .empty ∨ k.doomed ∨ k.pair = 2 then some .keyHandleInvalid
  else if k.owner ≠ p then some .keyNotOwned
  else none

/-- KEY_DESTROY: the destruction is decided here, and completes at once if nobody uses the key (R24, R426). -/
def State.keyDestroy (s : State) (rid : Nat) : State :=
  s.keyOp rid .keyDestroy (fun s r =>
    match s.namedSlot r r.desc.keyH with
    | none => if r.stateIndex.isSome then s else s.failOp rid ⟨.keyHandleInvalid, none⟩
    | some i =>
      if r.stateIndex.isSome then s
      else
        let s := s.onHalf rid i
        match s.ownerFault r.ptn i with
        | some st => s.failOp rid ⟨st, none⟩
        | none =>
          if (s.slotsOf i).any s.slotBad then
            ((s.slotsOf i).foldl (fun s j => s.noteKeyRead rid j) s).failOp rid ⟨.keySlotBad, none⟩
          else
            let s := (s.slotsOf i).foldl (fun s j => s.noteKeyRead rid j) s
            if s.poisoned r ∨ (s.key i).state = .bad then s.failOp rid ⟨.keySlotBad, none⟩
            else
              let s := s.doomSlot i (.destroy rid)
              if (s.key i).doomed then s.updReq rid (fun r => { r with stateIndex := some i }) else s.succeed rid [])

/-- SLOT_DESTROY_COMPLETE: every earlier user of slot i has finished, or the slot was emptied otherwise meanwhile; the KEY_DESTROY that
waits for it completes (R24). -/
def State.slotDestroyed (s : State) (i : Nat) : State :=
  if (s.key i).doomed ∧ !s.doomFree i then s
  else
    let s := s.finishDoom i
    match s.reqs.find? (fun r => r.phase == .running && r.desc.opIs .keyDestroy && r.stateIndex == some i) with
    | some r => s.succeed r.id []
    | none => s

/-- KEY_ATTR_READ: ATTR, GEN and 4 zero bytes (R427). -/
def State.keyAttrRead (s : State) (rid : Nat) : State :=
  s.keyOp rid .keyAttrRead (fun s r =>
    match s.namedSlot r r.desc.keyH with
    | none => s.failOp rid ⟨.keyHandleInvalid, none⟩
    | some i =>
      match s.ownerFault r.ptn i with
      | some st => (s.onHalf rid i).failOp rid ⟨st, none⟩
      | none => (s.onHalf rid i).succeed rid (toLe 8 (s.key i).attr ++ toLe 4 (s.key i).gen.toNat ++ zeros 4))

/-- The root that PARAM selects for KEY_DERIVE (R428, R438). -/
def State.deriveRoot (s : State) (d : Desc) : Option Bytes :=
  s.rootFor (if bitOf d.param 30 then .deriveOwner else .deriveDevice)

/-- The output of KEY_DERIVE (R436). -/
def State.derived (s : State) (r : Req) (root : Bytes) (keep : Bool) (len : Nat) : Bytes :=
  kmac256 (s.prk root r) ((if keep then s.keep.secret.getD [] else []) ++ r.aux) (8 * len) "P3 DERIVE"

/-- KEY_DERIVE waits while the keep secret that it mixes in is absent (R440, R559). -/
def State.keyDerive (s : State) (rid : Nat) : State :=
  s.keyOp rid .keyDerive (fun s r =>
    let d := r.desc
    match s.deriveRoot d with
    | none => s.failOp rid ⟨.rootUnavailable, none⟩
    | some root =>
      if d.holdOut then
        if bitOf d.param 29 ∧ s.keep.secret.isNone then s.waitKeep rid
        else s.succeed rid (s.derived r root (bitOf d.param 29) d.dstLen.toNat)
      else
        match s.namedSlot r d.resultH with
        | none => s.failOp rid ⟨.keyHandleInvalid, none⟩
        | some i =>
          let k := s.key i
          match s.targetFault r.ptn i 0 [1, 2, 3, 4, 5, 6] k.len with
          | some st => (s.onHalf rid i).failOp rid ⟨st, none⟩
          | none =>
            if k.len < 16 ∨ 64 < k.len then (s.onHalf rid i).failOp rid ⟨.badLength, none⟩
            else if k.keepBound ∧ s.keep.secret.isNone then s.waitKeep rid
            else
              let s := s.onHalf rid i
              (s.putTarget r (s.derived r root k.keepBound k.len)).succeed rid [] (slotHandle i))

/-! ### Wrapped import and export (R432, R433) -/

def State.keyImport (s : State) (rid : Nat) : State :=
  s.keyOp rid .keyImportWrapped (fun s r =>
    match s.ensureKey r { usages := [usWrap], lens := [32] } with
    | (s, .error e) => s.failOp rid e
    | (s, .ok m) =>
      match s.srcOf r with
      | .error e => s.failOp rid e
      | .ok src =>
        match s.openBlob r.ptn m.bytes src true [0] with
        | .wait => s.waitKeep rid
        | .fail f => s.failOp rid f
        | .ok k body _ =>
          if k.kind = 1 then s.failOp rid ⟨.keyPolicy, none⟩
          else
            match s.keyPlace r k.kind body.length with
            | .error st => s.failOp rid ⟨st, none⟩
            | .ok (i, pair) =>
              if s.poisoned r then s.succeed rid []
              else (s.putKey i { k with state := .valid, owner := r.ptn, recNo := 0x7F } body pair).succeed rid [] (slotHandle i))

/-- The key that KEY_EXPORT_WRAPPED exports: checked under R556 and taken as the request comes to it, so that it is a user of the slot
while it waits (R24, R433). -/
def State.exportedKey (s : State) (r : Req) : State × Except Fail (KeySlot × Bytes) :=
  match r.exported, s.namedSlot r r.desc.keyH with
  | some x, _ => (s, .ok x)
  | none, none => (s, .error ⟨.keyHandleInvalid, none⟩)
  | none, some i =>
    let noted := (s.slotsOf i).foldl (fun s j => s.noteKeyRead r.id j) s
    let k := s.key i
    match s.keyFault r.ptn i with
    | some st => (if st = .keySlotBad then noted else s, .error ⟨st, none⟩)
    | none =>
      if !k.lockAllows r.desc ∨ !k.exportW ∨ k.kind = 1 then (noted, .error ⟨.keyPolicy, none⟩)
      else
        let x := (k, s.payloadOf i)
        (noted.updReq r.id (fun r => { r with slots := r.slots ++ s.slotsOf i, exported := some x }), .ok x)

/-- KEY_EXPORT_WRAPPED (R433). DESIGN CHOICE: with a key that is KEEP_BOUND it waits, as R559 has it for opening a blob, while the keep
secret is absent; log entry 57. -/
def State.keyExport (s : State) (rid : Nat) : State :=
  s.keyOp rid .keyExportWrapped (fun s r =>
    match s.exportedKey r with
    | (s, .error f) => s.failOp rid f
    | (s, .ok (k, plain)) =>
      if r.desc.dstLen.toNat < 48 + k.len then s.failOp rid ⟨.badLength, none⟩
      else
        match (match r.key with
          | some w => (s, Except.ok w)
          | none => s.takeSlotKey r (handleIndex r.desc.param) { usages := [usWrap], lens := [32] }) with
        | (s, .error f) => s.failOp rid f
        | (s, .ok w) =>
          if k.keepBound ∧ s.keep.secret.isNone then s.waitKeep rid
          else s.drawn.succeed rid (s.makeBlob r.ptn 0 0 k plain (s.value r 12) w.bytes))

/-! ### Clear key commits (R422, R423) -/

/-- KEY_STAGE0–KEY_STAGE15 of a partition, as bytes. -/
def State.staged (s : State) (p : Nat) : Bytes := (numsFrom 0 16).flatMap (fun n => toLe 4 (getKey 0 s.staging (16 * p + n)).toNat)

/-- Zeroizes the staging words of a partition (R423). -/
def State.zeroStaging (s : State) (p : Nat) : State := { s with staging := s.staging.filter (fun e => e.1 / 16 ≠ p) }

/-- A commit ends: staging is zeroized and KEY_STAGE_STATUS shows the result and the slot. -/
def State.commitEnds (s : State) (p : Nat) (st : Status) (i : Nat) : State :=
  (s.zeroStaging p).setReg .keyStageStatus (BitVec.ofNat 32 (st.code * 2 ^ 16 + i)) p

/-- The slot that a commit writes, and whether it is a pair. -/
def State.commitPlace (s : State) (p : Nat) (alloc : Bool) (slot len : Nat) : Except Status (Nat × Bool) :=
  if alloc then
    match s.allocSlot p (decide (64 < len)) with
    | some i => .ok (i, decide (64 < len))
    | none => .error .resourceBusy
  else
    match s.ownerFault p slot with
    | some st => .error st
    | none =>
      if s.halfOut (halfOf slot) then .error .keySlotBad
      else if 64 < len ∧ (s.key slot).pair ≠ 1 then .error .badLength
      else .ok (slot, (s.key slot).pair == 1)

/-- KEY_COMMIT_DONE: the commit that runs for a partition takes effect. -/
def State.keyCommitDone (s : State) (p : Nat) : State :=
  if !s.regB .keyStageStatus 31 p then s
  else
    let w := s.reg .keyStageAttr p
    let c := s.reg .keyCommit p
    let len := fld w 7 0
    let alloc := bitOf c 30
    if s.noKeys then s.commitEnds p .rootUnavailable 0
    else if !attrWordOk w || bitOf w 31 then s.commitEnds p .paramInvalid 0
    else if len = 0 ∨ 128 < len then s.commitEnds p .badLength 0
    else
      match s.commitPlace p alloc (fld c 12 0) len with
      | .error st => s.commitEnds p st 0
      | .ok (i, pair) =>
        let k := KeySlot.ofWord p w
        let staged := s.staged p
        let s :=
          if 64 < len ∧ alloc then s.putKey i { k with state := .reserved } (staged ++ zeros 64) true
          else if 64 < len then s.putKey i k (fit 64 (s.key i).payload ++ staged.take (len - 64)) true
          else s.putKey i k (staged.take len) pair
        s.commitEnds p .ok i

/-! ### The keep secret (R440) -/

/-- KEEP_SECRET_DRAW, from the KEY stream. DESIGN CHOICE: half 0 of the key store draws what the block draws for itself; log entry 97. -/
def State.keepDraw (s : State) : State :=
  if s.keep.secret.isNone ∧ s.rngState = rngReady then
    { (s.draw 8 0 32).1 with keep := { (s.draw 8 0 32).1.keep with secret := some (s.draw 8 0 32).2 } }
  else s

/-! ### Reports (R462 to R465) -/

/-- The flags byte of R455. -/
def State.ptnFlags (s : State) (p : Nat) : Nat :=
  b2n (s.enabled p) + 2 * b2n (s.keyWrite p) + 4 * b2n (s.urgentPriv p) + 8 * b2n (s.isolated p)

def State.ptnInfoBytes (s : State) (p : Nat) : Bytes :=
  toLe 1 p ++ toLe 1 (s.ptnFlags p) ++ toLe 1 (s.sqMax p) ++ toLe 1 (s.cqMax p) ++ toLe 1 (s.vecMax p) ++ toLe 1 s.lc ++
  toLe 1 s.rngState ++ [0] ++ toLe 2 (s.keyQuota p) ++ toLe 2 (s.slotsOwned p) ++ toLe 2 (s.berthQuota p) ++
  toLe 2 (s.berthsOwned p) ++ toLe 2 (s.ptnGen p) ++ toLe 2 (s.regF .ptnStatus 31 16 p) ++
  toLe 2 (min (s.regF .ckcPtn 25 16 p) 512) ++ toLe 2 (s.ckcUsed p) ++ toLe 4 (s.ptnInFlight p) ++ zeros 4

def State.qosBytes (s : State) (p : Nat) : Bytes :=
  toLe 1 p ++ toLe 1 (s.ptnFlags p) ++ toLe 1 (s.ptnWeight p) ++ toLe 1 (s.ptnBurst p) ++ toLe 2 (s.sched.running.floor p) ++
  toLe 2 (s.floorNow p) ++ toLe 1 (s.urgentBudget p) ++ [0] ++ toLe 2 (s.holdQuota p) ++ toLe 2 (s.linesOf p) ++
  toLe 2 (s.towsOf p) ++ toLe 4 (s.reg .qosViolFloor p).toNat ++ toLe 4 (s.reg .qosViolRsv p).toNat ++
  toLe 4 (s.reg .qosViolLat p).toNat ++ zeros 4

/-- The entries of KEY_LIST: every owned slot from `first` up but the second of a pair, as many as fit. -/
def State.keyListBytes (s : State) (p first room : Nat) : Bytes :=
  ((s.keys.filter (fun e => decide (first ≤ e.1) && e.2.state != .empty && decide (e.2.owner = p) && e.2.pair != 2)).take room).flatMap
    (fun e => toLe 4 (slotHandle e.1).toNat ++ toLe 1 e.2.state.code ++ toLe 1 e.2.usage ++ toLe 1 e.2.len ++ toLe 1 e.2.kind)

/-- A report: the Lockkeeper that fetched the request reports itself (R462). -/
def State.report (s : State) (rid : Nat) (op : Op) (f : Req → Bytes) : State :=
  s.runOp rid op (fun s r => (s.updReq rid (fun r => { r with unit := .lockkeeper, inst := r.lk })).succeed rid (f r))

/-! ### NOP, FENCE, COPY and GET_RANDOM (R127, R400, R401) -/

/-- NOP and FENCE complete in their frame, once their places and their fence let them. -/
def State.nopDone (s : State) (rid : Nat) (op : Op) : State :=
  match s.findReq rid with
  | none => s
  | some r =>
    let l := s.lks.getD r.lk {}
    match l.frames.find? (fun f => f.valid && !f.killed && !f.completed && !f.issued && decide (f.req = rid)) with
    | none => s
    | some f =>
      if r.desc.op = some op ∧ !s.held then
        (s.frmDone r.lk f { status := r.verdict.getD .ok, unit := .lockkeeper, inst := r.lk }).getD s
      else s

def State.copyOp (s : State) (rid : Nat) : State :=
  match (s.findReq rid).filter (fun r => r.streams .copy) with
  | some r => s.emit r r.laneSrc
  | none =>
    s.runOp rid .copy (fun s r =>
      if r.desc.holdIn ∧ !r.desc.holdOut ∧ (s.holdOf r (r.desc.srcAddr.toNat % 8)).secret then s.failOp rid ⟨.keyPolicy, none⟩
      else
        match s.srcOf r with
        | .error f => s.failOp rid f
        | .ok src => s.succeed rid src)

/-- GET_RANDOM is one generate call of the SW instance; under PR it waits for two fresh blocks of the pool. -/
def State.getRandom (s : State) (rid : Nat) : State :=
  s.runOp rid .getRandom (fun s r =>
    if s.rngState ≠ rngReady then s
    else
      let pr := r.desc.param.getLsbD 0
      let add := fit 48 r.aux
      if pr ∧ (s.rng.pool.length < 2 ∨ s.rng.rootWaits) then s
      else
        let s := if pr then
            let (s, e) := s.takePool
            (s.seeded 5 (drbgReseed (s.drbgAt 5).st e [])).applyRngParams
          else s
        let (s, b) := s.generate 5 add r.desc.dstLen.toNat
        if s.rngState ≠ rngReady then s else s.succeed rid b)

/-! ### The commands -/

def execKeyGenerate (rid : Nat) (s : State) : Host.Outcome State Fault Refusal := s.run (fun s => s.keyGenerate rid)
def execKeyImportWrapped (rid : Nat) (s : State) : Host.Outcome State Fault Refusal := s.run (fun s => s.keyImport rid)
def execKeyExportWrapped (rid : Nat) (s : State) : Host.Outcome State Fault Refusal := s.run (fun s => s.keyExport rid)
def execKeyDestroy (rid : Nat) (s : State) : Host.Outcome State Fault Refusal := s.run (fun s => s.keyDestroy rid)
def execSlotDestroyComplete (i : Fin 8192) (s : State) : Host.Outcome State Fault Refusal := s.run (fun s => s.slotDestroyed i)
def execKeyDerive (rid : Nat) (s : State) : Host.Outcome State Fault Refusal := s.run (fun s => s.keyDerive rid)
def execKeyAttrRead (rid : Nat) (s : State) : Host.Outcome State Fault Refusal := s.run (fun s => s.keyAttrRead rid)
def execPtnInfo (rid : Nat) (s : State) : Host.Outcome State Fault Refusal :=
  s.run (fun s => s.report rid .ptnInfo (fun r => s.ptnInfoBytes r.ptn))
def execKeyList (rid : Nat) (s : State) : Host.Outcome State Fault Refusal :=
  s.run (fun s => s.report rid .keyList (fun r => s.keyListBytes r.ptn (fld r.desc.param 12 0) (r.desc.dstLen.toNat / 8)))
def execQosRead (rid : Nat) (s : State) : Host.Outcome State Fault Refusal :=
  s.run (fun s => s.report rid .qosRead (fun r => s.qosBytes r.ptn))
def execKeyCommitDone (p : Fin 64) (s : State) : Host.Outcome State Fault Refusal := s.run (fun s => s.keyCommitDone p)
def execKeepSecretDraw (s : State) : Host.Outcome State Fault Refusal := s.run State.keepDraw
def execNop (rid : Nat) (s : State) : Host.Outcome State Fault Refusal := s.run (fun s => s.nopDone rid .nop)
def execFence (rid : Nat) (s : State) : Host.Outcome State Fault Refusal := s.run (fun s => s.nopDone rid .fence)
def execCopy (rid : Nat) (s : State) : Host.Outcome State Fault Refusal := s.run (fun s => s.copyOp rid)
def execGetRandom (rid : Nat) (s : State) : Host.Outcome State Fault Refusal := s.run (fun s => s.getRandom rid)

end Sys2Proof.Machine
end

