-- ==== Sys2Proof/Machine/OpTime.lean ====
section
/-!
DEFINITION. The fixed time of an operation, counted in fc as the engine chapters state it (R175, R245, R272, R273, R286, R323, R326,
R328, R355, R385, R386); what they state no figure for, or only about one, stays free.
-/
namespace Sys2Proof.Machine

/-! ### Cipher cores (R245, R272, R273) -/

/-- DUMMY_MAX of a core: 5 to 7 are taken as 4 (R275). -/
def State.dummyMax (s : State) (n : Nat) : Nat := min 4 (s.regF .symCfg 2 0 n)

/-- Data bytes of a class 0x1_ source: without the tag, and without the blob that a wrapped key stands in. -/
def Desc.symData (d : Desc) : Nat :=
  d.srcLen.toNat - d.srcTag - (if handleType d.usedKey = 3 then 48 + symKeyLen d.algN else 0)

/-- Block operations of the core for a mode: its data, its tag and its preparation (R242, R272). -/
def Desc.modeBlocks (d : Desc) : Nat :=
  let n := ceilDiv d.symData 16
  let aad := d.aadLen
  let first := if d.usedBerth = 0 then 1 else 0
  match d.mode with
  | 0 | 1 | 2 => n
  | 3 => n + 1 + first
  | 4 => 2 * n + 1 + ceilDiv (if aad = 0 then 0 else if aad < 65280 then aad + 2 else aad + 6) 16 + 1
  | 5 => n + 1
  | 6 => max 1 n + first
  | 7 => 1 + first
  | _ => ceilDiv d.symData 64 + 1

/-- The cost of a mode's blocks, tag and preparation; each block is counted with the greatest number of dummy rounds (R245). -/
def Desc.modeFc (d : Desc) (dummies : Nat) : Nat :=
  let nr := 8 + 2 * d.keyCode
  let inv := if d.opIs .decrypt then nr else 0
  let lens := if d.final then 2 + 4 else 0
  d.modeBlocks * ((if d.mode = 8 then 22 else nr) + dummies) +
  match d.mode with
  | 0 | 1 | 5 => inv
  | 3 => 2 * ceilDiv d.aadLen 16 + lens
  | 7 => 2 * ceilDiv d.symData 16 + lens
  | 8 => 4 * ceilDiv d.aadLen 16 + (if d.final then 8 else 0)
  | _ => 0

/-- BERTH_SETUP prepares a hash subkey or the subkeys of CMAC. -/
def Desc.setupBlocks (d : Desc) : Nat := if d.mode = 3 ∨ d.mode = 6 ∨ d.mode = 7 then 1 else 0

/-- The fc of a class 0x1_ request, with the round-key cache missed. -/
def Desc.symFc (d : Desc) (dummies : Nat) : Option Nat :=
  match d.op with
  | some .encrypt | some .decrypt | some .aeadSeal | some .aeadOpen | some .macGenerate | some .macVerify =>
    some (12 + d.modeFc dummies + (if d.usedBerth = 0 then 0 else 32))
  | some .berthSetup =>
    some (12 + d.setupBlocks * (8 + 2 * d.keyCode + dummies) + 16)
  | _ => none

/-! ### Hash cores (R286) -/

/-- fc of one block of a hash code. -/
def hashBlockFc (alg : Nat) : Nat := if alg ≤ 2 then 32 else if alg ≤ 7 then 40 else 12

/-- fc to hash a message of m bytes; SHA-512/t makes its IV first. -/
def hashFc (alg m : Nat) : Nat :=
  if alg ≤ 2 then 32 * ceilDiv (m + 9) 64
  else if alg ≤ 7 then 40 * ceilDiv (m + 17) 128 + (if alg = 7 then 40 else 0)
  else 12 * (m / hashBlock alg + 1)

/-- fc of an HMAC: the inner and outer key blocks, the outer hash, the message, and a key above a block hashed first (R282). -/
def hmacFc (alg key m : Nat) : Nat :=
  3 * hashBlockFc alg + (if hashBlock alg < key then hashFc alg key else 0) + hashFc alg m

/-- Bytes of a number, and of a string of n bytes with its length before it (SP 800-185). -/
def octets (v : Nat) : Nat := if v < 2 ^ 8 then 1 else if v < 2 ^ 16 then 2 else if v < 2 ^ 24 then 3 else if v < 2 ^ 32 then 4 else 5
def encodedLen (n : Nat) : Nat := 1 + octets (8 * n) + n

/-- fc to absorb m bytes after `before` whole blocks, and to squeeze `out`. -/
def spongeFc (alg before m out : Nat) : Nat := 12 * (before + m / hashBlock alg + 1 + (ceilDiv out (hashBlock alg) - 1))

/-- fc of a KMAC with S of `c` bytes. -/
def kmacFc (alg key m c out : Nat) (xof : Bool) : Nat :=
  let r := hashBlock alg
  spongeFc alg (ceilDiv (2 + encodedLen 4 + encodedLen c) r + ceilDiv (2 + encodedLen key) r)
    (m + 1 + (if xof then 1 else octets (8 * out))) out

/-- The bytes of the key that KEY_H names, as far as they are known, and whether a hold supplies them; `hold` is how many it supplies
of its whole length. -/
def State.keySize (s : State) (r : Req) (hold : Nat → Nat) : Nat × Bool :=
  match s.resolve r r.desc.usedKey with
  | none => (0, false)
  | some h =>
    match handleType h with
    | 1 => ((s.key (handleIndex h)).len, false)
    | 3 => (le32 r.laneSrc 0x10, false)
    | 4 => (hold (s.holdOf r (handleIndex h % 8)).len, true)
    | _ => (0, false)

/-- Cost of a transfer of B bytes through a hold, and of a key. -/
def holdFc (b : Nat) : Nat := 12 + ceilDiv b 64
def keyFc (k : Nat × Bool) : Nat := if k.2 then holdFc k.1 else 8 + ceilDiv k.1 16

/-- fc of a key derivation's own work from a key of k bytes: the lengths of its messages are those of its steps. -/
def kdfFc (o : Op) (d : Desc) (k : Nat) (aux : Bytes) : Nat :=
  let alg := d.algN
  let h := prfLen alg
  let (x, y, z) := kdfParts aux
  let blank (_ : Bytes) : Bytes := zeros h
  let lens (st : KdfSteps) : List Nat := st.flatten.map List.length
  let hmacs (key : Nat) (st : KdfSteps) : Nat := ((lens st).map (hmacFc alg key)).sum
  let steps := ceilDiv d.hashOut h
  match o with
  | .hkdf => hmacFc alg (if x.isEmpty then h else x.length) k + hmacs h (hkdfSteps blank (y ++ z) steps 1 [])
  | .hkdfExtract => hmacFc alg (if aux.isEmpty then h else aux.length) k
  | .hkdfExpand => hmacs k (hkdfSteps blank aux steps 1 [])
  | .kdf108 =>
    if isKmac alg then kmacFc alg k (y ++ z).length x.length d.hashOut false else hmacs k (d.expand blank h x (y ++ z))
  | .kdf56cOneStep =>
    match fld d.param 31 30 with
    | 0 => ((lens (oneSteps (zeros k) (y ++ z) steps)).map (hashFc alg)).sum
    | 1 => hmacs (kdfSalt alg x).length (oneSteps (zeros k) (y ++ z) steps)
    | _ => kmacFc alg (kdfSalt alg x).length (4 + k + (y ++ z).length) 3 d.hashOut false
  | _ => hmacFc alg (kdfSalt alg x).length k + hmacs h (d.expand blank h y z)

/-- The CMACs of a key derivation, by the code of their key: the subkeys' block, and the blocks of each message. -/
def kdfCmacs (d : Desc) (aux : Bytes) : List (Nat × Nat) :=
  let (x, y, z) := kdfParts aux
  let cmacs (st : KdfSteps) : Nat := 1 + (st.flatten.map (fun m => max 1 (ceilDiv m.length 16))).sum
  let blank (_ : Bytes) : Bytes := zeros 16
  let code := d.algN % 16
  if d.opIs .kdf108 then [(code, cmacs (d.expand blank 16 x (y ++ z)))]
  else [(code, cmacs [[zeros (symKeyLen code)]]), (1, cmacs (d.expand blank 16 y z))]

/-- fc of the CMACs of a key derivation, with the delivery of each key. -/
def kdfCmacFc (d : Desc) (dummies : Nat) (aux : Bytes) : Nat :=
  ((kdfCmacs d aux).map (fun c => 12 + c.2 * (8 + 2 * c.1 + dummies))).sum

/-- Block operations of a request on a cipher core (R242). -/
def Req.coreBlocks (r : Req) : Nat :=
  if r.desc.cmacKdf then ((kdfCmacs r.desc r.aux).map (·.2)).sum
  else if r.desc.opIs .berthSetup then r.desc.setupBlocks
  else match r.desc.op with
    | some .encrypt | some .decrypt | some .aeadSeal | some .aeadOpen | some .macGenerate | some .macVerify => r.desc.modeBlocks
    | _ => 0

/-- fc of a request of classes 0x2_ and 0x3_ on a hash core. -/
def State.hashReqFc (s : State) (r : Req) : Option Nat :=
  let d := r.desc
  let key (whole : Nat) : Nat × Bool := s.keySize r (fun n => if whole = 0 then n else whole)
  let blob := if handleType d.usedKey = 3 then 48 + le32 r.laneSrc 0x10 else 0
  let tag := if d.opIs .hmacVerify || d.opIs .kmacVerify then d.macLen else 0
  let m := d.srcLen.toNat - tag - blob
  let holds := (if d.holdIn && d.usesSrc then holdFc d.srcLen.toNat else 0) + (if d.holdOut && d.writesDst then holdFc d.hashOut else 0)
  let work : Option Nat :=
    match d.op with
    | some .hash => some (hashFc d.algN m)
    | some .xof =>
      let empty := d.auxLen.toNat ≤ 2
      some (spongeFc d.algN (if d.algN < 0x1A ∨ empty then 0 else
        ceilDiv (2 + encodedLen (le16 r.aux 0) + encodedLen (d.auxLen.toNat - 2 - le16 r.aux 0)) (hashBlock d.algN)) m d.hashOut)
    | some .hmacGenerate | some .hmacVerify => let k := key (hashLen d.algN 0); some (keyFc k + hmacFc d.algN k.1 m)
    | some .kmacGenerate | some .kmacVerify =>
      let k := key 32
      some (keyFc k + kmacFc d.algN k.1 m d.auxLen.toNat d.macLen (bitOf d.param 31))
    | some o =>
      if o.isKdf ∧ !d.cmacKdf then
        let k := key 0
        some (keyFc k + kdfFc o d k.1 r.aux + (if d.holdOut || handleType d.resultH != 4 then 0 else holdFc d.hashOut))
      else none
    | none => none
  work.map (fun w => 80 + w + holds + 5)

/-! ### Polynomial engines (R323, R326, R328) -/

/-- The masking order of a lattice request: that of the key or of the result slot; a verification has none, and a key that a tow result
names works at DEFAULT_ORDER. -/
def State.latticeOrder (s : State) (r : Req) : Nat :=
  match r.desc.op with
  | some .mlkemKeygen | some .mldsaKeygen => s.targetOrder r
  | some .mlkemDecaps | some .mldsaSign | some .mldsaSignMu =>
    match s.berthNamed r, s.resolve r r.desc.usedKey with
    | some i, _ => (s.berth i).linkOrder
    | none, some h =>
      match if (handleTow r.desc.usedKey).isSome then 4 else handleType h with
      | 1 => (s.key (handleIndex h)).order
      | 3 => (KeySlot.ofAttr (le64 r.laneSrc 8)).order
      | _ => r.defaultOrder
    | none, none => r.defaultOrder
  | _ => r.defaultOrder

/-- TIME of entry e at an order (R330). -/
def rsTime (b : RecipeSet) (e order : Nat) : Nat := le32 b (0x20 + 12 * e + 4 * order)

/-- Bytes of a signature of a parameter set. -/
def dsaSigLen (alg : Nat) (b : Option RecipeSet) : Nat :=
  match b with
  | some b => rsCt b
  | none => [2420, 3309, 4627].getD (alg - 0x11) 0

/-- Keccak blocks of the message after the first, at 12 fc each: 66, CTXLEN and the message's bytes are counted, neither a signature nor a
wrapped key (R323). -/
def Req.moreBlocks (r : Req) (b : Option RecipeSet) : Nat :=
  let d := r.desc
  if d.opIs .mldsaSign then ceilDiv (66 + d.ctxLen + (d.srcLen.toNat - r.blobLen) - 135) 136
  else if d.opIs .mldsaVerify then ceilDiv (66 + d.ctxLen + (d.srcLen.toNat - dsaSigLen d.algN b) - 135) 136
  else 0

/-- Declared times of the fixed verification recipes (R328, R333). -/
def fixedVerifyFc (alg : Nat) : Nat := if alg = 0x12 then 12000 else 19000

/-- fc of a lattice request on engine n; a signature as R326 counts it, with its cache missed. -/
def State.latticeFc (s : State) (r : Req) (n : Nat) : Option Nat :=
  let d := r.desc
  d.op.bind (fun o =>
    let set := (s.nextRcp n).find o d.algN
    let more := 12 * r.moreBlocks set
    match set with
    | some b =>
      let order := s.latticeOrder r
      if d.opIs .mldsaSign || d.opIs .mldsaSignMu then
        some (rsTime b o.plyEntry order + r.iterBound * rsTime b 5 order + more)
      else some (rsTime b o.plyEntry order + more)
    | none => if fixedRecipe o d.algN then some (fixedVerifyFc d.algN + more) else none)

/-! ### Code engines (R355) -/

/-- fc of a class 0x6_ request; a figure in ms is counted at 1,200 MHz. -/
def Desc.codFc (d : Desc) : Option Nat :=
  let k := (d.algN - 0x11) / 2
  let of3 (x y z : Nat) : Nat := [x, y, z].getD (d.algN - 1) 0
  match d.op with
  | some .hqcKeygen => some (of3 12000 25000 41000)
  | some .hqcEncaps => some (of3 24000 50000 82000)
  | some .hqcDecaps => some (of3 46000 95000 155000)
  | some .mceEncaps => some ([5200, 9600, 18000, 18000, 23000].getD k 0)
  | some .mceDecaps => some ([60000, 110000, 170000, 165000, 200000].getD k 0)
  | some .mceImport => some (1200 * [3600, 12000, 33000, 29000, 38000].getD k 0)
  | some .ckcLoad => some (12 * ceilDiv (mceSet d.algN).pk 136)
  | _ => none

/-! ### Big-number engines (R358, R385, R386) -/

/-- T_sq for B bits (R385). -/
def tSq (b : Nat) : Nat := max 16 (ceilDiv (150 * b * b) (1024 * 1024))

/-- Declared ms of RSA_PRIVATE_CRT and s of RSA_KEYGEN, in µs; R385 states none for other lengths. -/
def rsaMicros (b : Nat) : Option (Nat × Nat) :=
  match b with
  | 2048 => some (330, 2500000)
  | 3072 => some (1000, 7000000)
  | 4096 => some (2300, 16000000)
  | 6144 => some (7500, 50000000)
  | 8192 => some (17500, 120000000)
  | _ => none

/-- Declared µs of a curve: key generation, signing, verification, shared secret (R386). -/
def State.curveMicros (s : State) (alg : Nat) : Nat × Nat × Nat × Nat :=
  match alg with
  | 0x01 => (40, 48, 95, 45)
  | 0x02 => (88, 105, 210, 100)
  | 0x03 => (190, 225, 450, 215)
  | 0x04 => (52, 62, 125, 58)
  | 0x05 => (115, 137, 275, 130)
  | 0x06 => (230, 270, 540, 255)
  | 0x10 => (36, 40, 80, 0)
  | 0x11 => (110, 120, 240, 0)
  | 0x18 => (34, 0, 0, 38)
  | 0x19 => (105, 0, 0, 115)
  | _ =>
    let b := s.curveBits alg
    if b ≤ 256 then (52, 62, 125, 58) else if b ≤ 384 then (115, 137, 275, 130) else (250, 295, 590, 280)

/-- fc of a mask of `len` bytes from a seed by MGF1. -/
def mgfFc (alg seed len : Nat) : Nat := ceilDiv len (hashLen alg 0) * hashFc alg (seed + 4)

/-- Bytes that EdDSA puts before what it hashes: dom2 of the context variant of Ed25519, dom4 of Ed448 (RFC 8032). -/
def Desc.edDom (d : Desc) : Nat := if d.algN = 0x11 then 10 + d.edCtx else if d.variant = 1 then 34 + d.edCtx else 0

/-- fc of one hash of an Edwards curve over m bytes: SHA-512, or 114 bytes of SHAKE256. -/
def edHashFc (alg m : Nat) : Nat := if alg = 0x11 then spongeFc 0x19 0 m 114 else hashFc 0x04 m

/-- B of the RSA key at the start of the source; a label before it may still hold it back, and SRC_LEN tells it then (R360, R368, R369). -/
def Req.rsaBits (r : Req) : Nat :=
  if r.laneSrc.length < 8 ∧ r.desc.opIs .rsaOaepDecrypt then (r.desc.srcLen.toNat - 80) * 16 / 9 else le16 r.laneSrc 6

/-- fc of the hash core's part of a big-number request: its start and end, and every block (R286, R358). The pre-hash variant of EdDSA
adds none (R386). -/
def State.bneHashFc (s : State) (r : Req) : Nat :=
  let d := r.desc
  let h := hashLen d.algN 0
  let k := d.modBytes
  let kb := r.rsaBits / 8
  let m := d.srcLen.toNat - r.blobLen
  let l := if d.algN = 0x11 then 57 else 32
  let pss (k m : Nat) : Nat :=
    (if bitOf d.param 24 then 0 else hashFc d.algN m) + hashFc d.algN (8 + h + d.saltLen) + mgfFc d.algN h (k - h - 1)
  let oaep (k label : Nat) : Nat := hashFc d.algN label + mgfFc d.algN h (k - h - 1) + mgfFc d.algN (k - h - 1) h
  let ec (m : Nat) : Nat := if d.ecDigest then 0 else hashFc (fld d.param 15 8) m
  let work : Nat :=
    match d.op with
    | some .rsaPssSign => pss kb m
    | some .rsaPssVerify => pss k (d.srcLen.toNat - k)
    | some .rsaOaepEncrypt => oaep k (d.auxLen.toNat - k - 32)
    | some .rsaOaepDecrypt => oaep kb d.auxLen.toNat
    | some .ecdsaSign => ec m
    | some .ecdsaVerify => ec (d.srcLen.toNat - 2 * s.curveLen d.algN)
    | some .ecKeygen => if isEdwards d.algN then edHashFc d.algN l else 0
    | some .eddsaSign =>
      if d.variant = 2 then 0 else edHashFc d.algN l + edHashFc d.algN (d.edDom + l + m) + edHashFc d.algN (d.edDom + 2 * l + m)
    | some .eddsaVerify => if d.variant = 2 then 0 else edHashFc d.algN (d.edDom + 2 * l + (d.srcLen.toNat - 2 * l))
    | _ => 0
  if work = 0 then 0 else 80 + work + 5

/-- fc of a big-number request but for its hashing; R385 and R386 state none for other lengths. -/
def State.bneBaseFc (s : State) (r : Req) : Option Nat :=
  let d := r.desc
  let b := d.modBits
  let modexp := (b + b / 4 + 16) * tSq b
  let pub := (6 + bitLen (beNat (slice r.aux d.modBytes 32))) * tSq b
  let (gen, sign, verify, shared) := s.curveMicros d.algN
  match d.op with
  | some .modmul => some (4 * tSq b + 200)
  | some .modexp => some modexp
  | some .modinv => some (3 * b * ceilDiv b 256)
  | some .primeTest => some (d.rounds * modexp)
  | some .rsaPublic | some .rsaPssVerify | some .rsaOaepEncrypt => some pub
  | some .rsaPrivateCrt | some .rsaPssSign | some .rsaOaepDecrypt => (rsaMicros r.rsaBits).map (fun t => 1200 * t.1)
  | some .rsaKeygen => (rsaMicros b).map (fun t => 1200 * t.2)
  | some .ecdsaSign | some .eddsaSign => some (1200 * sign)
  | some .ecdsaVerify | some .eddsaVerify => some (1200 * verify)
  | some .ecdh | some .xdh => some (1200 * shared)
  | some .ecKeygen => some (1200 * gen)
  | _ => none

/-- fc of a big-number request: its declared time and its hashing (R358, R363). -/
def State.bneFc (s : State) (r : Req) : Option Nat := (s.bneBaseFc r).map (fun t => t + s.bneHashFc r)

/-! ### The fixed time -/

/-- fc of a request on instance n; none where the chapter states no figure. A request under way keeps the DUMMY_MAX it started with
(R275). -/
def State.fixedFc (s : State) (r : Req) (n : Nat) : Option Nat :=
  match r.unit with
  | .sym =>
    let dummies := r.dummy.getD (s.dummyMax n)
    if r.desc.cmacKdf then some (kdfCmacFc r.desc dummies r.aux) else r.desc.symFc dummies
  | .hsh => s.hashReqFc r
  | .ply => s.latticeFc r n
  | .cod => r.desc.codFc
  | .bne => s.bneFc r
  | _ => none

/-- The fixed time of a request's operation on instance n in units of 100 ns, at the frequency of the engine clock (R175). -/
def State.fixedTime (s : State) (r : Req) (n : Nat) : Nat :=
  let d := r.desc
  match s.fixedFc r n with
  | some fc => ceilDiv (fc * 10) (max 1 s.pins.engMhz)
  | none => Config.opTime ([d.opcode, d.alg] ++ toLe 2 d.flags.toNat ++ toLe 4 d.srcLen.toNat ++ toLe 4 d.auxLen.toNat ++
      toLe 4 d.dstLen.toNat ++ toLe 4 d.param.toNat)

/-! ### What a request draws from the towpath as it starts (R242, R277, R307, R340, R365, R398) -/

/-- Bytes of DRBG values. DESIGN CHOICE: how many PRIME_TEST and RSA_KEYGEN draw; log entry 97. -/
def State.drawLen (s : State) (r : Req) : Nat :=
  let d := r.desc
  match d.op with
  | some .mlkemKeygen => if d.param.getLsbD 0 then 0 else 64
  | some .mlkemEncaps => if d.param.getLsbD 0 then 0 else 32
  | some .mldsaKeygen => if d.internal then 0 else 32
  | some .mldsaSign | some .mldsaSignMu => if d.hedged then 32 else 0
  | some .slhdsaKeygen => 3 * slhN d.algN
  | some .slhdsaSign => if d.hedged then slhN d.algN else 0
  | some .hssKeygen | some .xmssKeygen => hbsSeedLen d.algN r.aux
  | some .hqcKeygen => if d.param.getLsbD 0 then 0 else 32
  | some .hqcEncaps => if d.param.getLsbD 0 then 0 else (hqcLens d.algN).2.2 + 16
  | some .mceEncaps => 32
  | some .primeTest => d.rounds * d.modBytes
  | some .rsaPssSign => d.saltLen
  | some .rsaOaepEncrypt => hashLen d.algN 0
  | some .rsaKeygen => 64 + 12
  | some .ecdsaSign => if bitOf d.param 1 then 0 else (s.curveOf d.algN).scalarBytes
  | some .ecKeygen => s.keyDraw d.algN
  | some .keyGenerate => if !d.holdOut && bitOf d.param 31 then 0 else fld d.param 7 0
  | some .keyExportWrapped | some .berthSealOut => 12
  | some .aeadSeal => if d.ivgen then 12 else 0
  | _ => 0

/-- The lattice request uses the mask expander of its engine (R307). -/
def State.usesExpander (s : State) (r : Req) : Bool :=
  match r.desc.op with
  | some .mlkemKeygen | some .mldsaKeygen | some .mldsaSign | some .mldsaSignMu => true
  | some .mlkemEncaps | some .mlkemDecaps => decide (s.latticeOrder r ≠ 0)
  | _ => false

/-- Bytes that reseed the expander of a cipher core, at the start and after every 1,024 blocks, or that blind a private-key operation: they
leave no trace but in the stream. -/
def Req.maskLen (r : Req) : Nat :=
  match r.unit, r.desc.op with
  | .sym, _ => 32 * (1 + r.coreBlocks / 1024)
  | .bne, some .rsaPrivateCrt | .bne, some .rsaPssSign | .bne, some .rsaOaepDecrypt | .bne, some .ecdsaSign | .bne, some .ecdh
  | .bne, some .xdh | .bne, some .eddsaSign | .bne, some .ecKeygen => 64
  | _, _ => 0

/-- The towpath buffer that serves a request on instance n: its unit's, or that of the key-store half that RESULT_H or KEY_H names. -/
def State.towOf (s : State) (r : Req) (n : Nat) : Nat × Nat :=
  if 1 ≤ r.unit.code ∧ r.unit.code ≤ 5 then (r.unit.code, s.physical r.unit.code n)
  else (8, s.keyHalf r)

/-- A request that needs randomness draws it from its unit's buffer as it starts (R398); whether the whole draw came in hand. -/
def State.takeDraws (s : State) (r : Req) (n : Nat) : State × Bool :=
  let (cls, phys) := s.towOf r n
  if r.maskLen + s.drawLen r = 0 then (s, true)
  else
    let (s1, a) := s.draw cls phys r.maskLen
    let (s1, b) := s1.draw cls phys (s.drawLen r)
    (s1.updReq r.id (fun r => { r with draws := b }), a.length + b.length == r.maskLen + s.drawLen r)

/-- A polynomial engine begins a request of a partition: its mask expander reseeds itself where it last served another, and after every
4,096 fc of work that uses it. A reseed that the RNG cannot give yet is made with the engine's next request (R307). -/
def State.noteServed (s : State) (r : Req) (n : Nat) : State × Bool :=
  if r.unit ≠ .ply then (s, true)
  else
    let phys := s.physical 3 n
    let p := s.plys.getD phys {}
    let fresh := p.served ≠ some r.ptn
    let total := (if fresh then 0 else p.expander) + (if s.usesExpander r then (s.fixedFc r n).getD 0 else 0)
    if s.rngState ≠ rngReady then
      (s.updPly n (fun p => { p with served := if fresh then none else p.served }), true)
    else
      let len := (if fresh then 32 else 0) + 32 * (total / 4096)
      let (s, b) := s.draw 3 phys len
      (s.updPly n (fun p => { p with served := some r.ptn, expander := total % 4096 }), b.length == len)

end Sys2Proof.Machine
end

