-- ==== Sys2Proof/Machine/Start.lean ====
section
/-!
DEFINITION. ENGINE_START: what a request needs before an engine begins it, and what it takes as it begins (R93, R94, R171
to R176, R203, R225, R259, R290, R321, R333, R359 to R362, R398, R408, R520, R530).
-/
namespace Sys2Proof.Machine

/-! ### Randomness (R93, R307, R340, R365) -/

/-- The masking order of a private-key lattice request whose key is a slot or a hold, by what KEY_H names. -/
def State.maskedKey (s : State) (r : Req) : Bool :=
  match s.resolve r r.desc.keyH with
  | some h =>
    if handleType h = 1 ∧ (handleTow r.desc.keyH).isNone then decide ((s.key (handleIndex h)).order ≠ 0) else decide (r.defaultOrder ≠ 0)
  | none => false

/-- The request draws from the towpath or works on a cipher core, opening a wrapped key included. A handle in a field that the opcode
ignores asks for nothing (R120). -/
def State.needsRandom (s : State) (r : Req) : Bool :=
  let d := r.desc
  decide (r.unit = .sym) || decide ((s.resolve r d.usedKey).map handleType = some 3) ||
  match d.op with
  | some .mlkemDecaps => s.maskedKey r
  | some .mlkemKeygen | some .mlkemEncaps | some .mldsaKeygen | some .mldsaSign | some .mldsaSignMu => true
  | some .slhdsaSign => d.hedged
  | some .slhdsaKeygen | some .hssKeygen | some .xmssKeygen => true
  | some .hqcKeygen | some .hqcEncaps | some .mceEncaps | some .mceImport => true
  | some .rsaPrivateCrt | some .rsaPssSign | some .rsaOaepEncrypt | some .rsaOaepDecrypt | some .rsaKeygen => true
  | some .primeTest | some .ecdsaSign | some .ecdh | some .ecKeygen | some .eddsaSign | some .xdh => true
  | some .keyGenerate => d.holdOut || !bitOf d.param 31
  | some .getRandom => true
  | _ => false

/-! ### Reserved time (R174 to R176) -/

/-- An interval at a time of the frame lets an operation of `len` start; a dedicated unit always does. -/
def intervalFits (t len : Nat) (e : Nat × Nat) : Bool := decide (1000 ≤ e.2) || (decide (e.1 ≤ t) && decide (t + len ≤ e.1 + e.2))

/-- An ML-DSA signature without the fixed-time mode. -/
def Desc.looseSign (d : Desc) : Bool := (d.opIs .mldsaSign || d.opIs .mldsaSignMu) && !d.fixed

/-- The request's operation can run in some interval of its isolated partition (R175). -/
def State.isoFits (s : State) (r : Req) : Bool :=
  (numsFrom 0 64).any (fun n => (s.unitIntervals r.ptn r.unit.code n).any (fun e =>
    decide (1000 ≤ e.2) || (!r.desc.looseSign && decide (s.fixedTime r n ≤ e.2))) &&
    (!r.desc.hashPart || (numsFrom 0 32).any (fun k => (s.unitIntervals r.ptn 2 k).any (fun e =>
      decide (1000 ≤ e.2) || decide (s.fixedTime r n ≤ e.2)))))

/-- Instance n of a class may work for the request for `len` from time t of the frame. A signature without the fixed-time mode has no
fixed time to end by: it starts on no unit that another partition's entry holds for any time. -/
def State.intervalAllows (s : State) (r : Req) (cls n t len : Nat) : Bool :=
  if s.isolated r.ptn then
    (s.unitIntervals r.ptn cls n).any (fun e => intervalFits t len e && (!r.desc.looseSign || decide (1000 ≤ e.2)))
  else !s.barred r.ptn cls n t (if r.desc.looseSign then 2000 else len)

/-- Instance n may start the request at time t of the frame. -/
def State.timeAllows (s : State) (r : Req) (n t : Nat) : Bool :=
  !r.unit.reservable || s.intervalAllows r r.unit.code n t (s.fixedTime r n)

/-! ### The issue queue of a class (R171, R172) -/

/-- An earlier request on the berth that `r` names has not ended: its result may still be taken back (R259, R260). -/
def State.berthWaits (s : State) (r : Req) : Bool :=
  match s.berthNamed r with
  | none => false
  | some i => s.reqs.any (fun x =>
      decide (x.id ≠ r.id) && (((x.onEngine || x.phase == .produced || x.phase == .posted) && decide (x.berth = some i)) ||
        (x.phase == .queued && decide (x.seq < r.seq) && decide (s.berthNamed x = some i))))

/-- A signing request on the same KEY_ID goes before: it runs, or its ISSUE was accepted earlier and its KEY_ID is the same or not yet
known (R295); a later member of the same tow does not. -/
def State.hbsWaits (s : State) (r : Req) : Bool :=
  (r.desc.opIs .hssSign || r.desc.opIs .xmssSign) &&
  s.reqs.any (fun x => decide (x.id ≠ r.id) && decide (x.desc.opcode = r.desc.opcode) &&
    (x.phase == .running || (x.phase == .queued && decide (x.seq < r.seq) && (x.ready || x.tow.isNone || x.tow != r.tow || decide (x.pos < r.pos)))) &&
    (slice x.aux 8 16 == slice r.aux 8 16 || (decide (x.aux.length < 24) && decide (24 ≤ x.desc.auxLen.toNat))))

/-- What the lengths of the operation stand in has arrived: the auxiliary item, and the header of a wrapped key (R124, R360); a queue
that is full waits for no more. -/
def Req.sizeKnown (r : Req) : Bool :=
  r.itemHere || decide (r.bas.limitIn ≤ r.occIn) || (decide (r.desc.auxPadded ≤ r.bas.input.length) &&
    (decide (handleType r.desc.usedKey ≠ 3) || decide (0x14 ≤ r.laneSrc.length)))

/-- A queued request that nothing but a free instance keeps from starting. -/
def State.startable (s : State) (x : Req) : Bool :=
  x.phase == .queued && x.ready && x.weirReached && x.sizeKnown && !s.berthWaits x && !s.hbsWaits x && !s.waitsKeep x && (!s.needsRandom x || decide (s.rngState = rngReady))

/-- A request that goes before `r` could start on instance n: an urgent one, or a suspended cipher request. -/
def State.aheadOf (s : State) (r : Req) (n : Nat) : Bool :=
  !s.isolated r.ptn && decide (r.unit ≠ .rng) && s.reqs.any (fun x =>
    decide (x.id ≠ r.id) && decide (x.unit = r.unit) &&
    ((x.urgent && s.startable x && (decide (x.want = 0xFF) || decide (x.want = n)) && (!r.urgent || decide (x.seq < r.seq))) ||
     (x.phase == .suspended && !r.urgent)))

/-! ### Domains (R520) -/

def State.handleDomains (s : State) (r : Req) (h : W32) : List Nat :=
  match s.resolve r h with
  | none => []
  | some h =>
    match handleType h with
    | 1 | 3 => [halfDomain (halfOf (handleIndex h))]
    | 2 => [s.berthDomain (handleIndex h)]
    | _ => []

/-- The other cores that join a divided hash operation: the lowest free ones that may serve it (R290). -/
def State.joinCores (s : State) (r : Req) (n t : Nat) : List Nat :=
  ((numsFrom 0 32).filter (fun k =>
    k ≠ n && s.inService .hsh k && !s.unitTaken .hsh k && !s.draining 2 k && s.timeAllows r k t)).take (r.desc.cores - 1)

/-- The hash core that would work for a big-number request on instance n: the lowest that a class 0x2_ request of its partition could
start on (R358). DESIGN CHOICE: it is held from the start of the request to its end; log entry 127. -/
def State.hashCoreFor (s : State) (r : Req) (n t : Nat) : Option Nat :=
  (numsFrom 0 32).find? (fun k =>
    s.inService .hsh k && !s.unitTaken .hsh k && !s.draining 2 k && s.capAllows 2 k && s.intervalAllows r 2 k t (s.fixedTime r n) &&
    !s.aheadOf { r with unit := .hsh } k)

/-- The domains that a request on instance n needs: its engine, with those of the cores that join it, the memories its engine works in,
and those of the objects and of the live hold lines that it names (R158). -/
def State.startDomains (s : State) (r : Req) (n t : Nat) : List Nat :=
  (match r.unit with
   | .sym => [s.unitDomain 1 n]
   | .hsh => (n :: s.joinCores r n t).map (s.unitDomain 2)
   | .ply => [s.unitDomain 3 n]
   | .cod => s.unitDomain 4 n :: (if r.desc.usesCache && !s.unitOut 9 0 then [79] else [])
   | .bne => s.unitDomain 5 n :: (88 + s.physical 5 n) ::
      (if r.desc.hashPart then (s.hashCoreFor r n t).toList.map (s.unitDomain 2) else [])
   | .dma => [s.unitDomain 6 n]
   | _ => []) ++
  s.handleDomains r r.desc.usedKey ++ s.handleDomains r r.desc.usedBerth ++ s.handleDomains r r.desc.usedResult ++
  (let ms := s.towMembers r
   (holdReads ms r.desc ++ holdWrites ms r.desc).filterMap (fun h => (s.holdOf r h).line.map (fun l => s.lineDomain l.1)))

/-! ### Operand memory (R360, R361) -/

/-- Words that a value of b bits needs. -/
def operandWords (b : Nat) : Nat := ceilDiv b 64 + 2

/-- The group of slots that a request needs: how many, and how long at least. -/
def State.groupNeed (s : State) (r : Req) : Nat × Nat :=
  let d := r.desc
  let b := d.modBits
  let half := operandWords (r.rsaBits / 2)
  let curve := operandWords (s.curveBits d.algN)
  match d.op with
  | some .modmul => (5, operandWords b)
  | some .modinv => (6, operandWords b)
  | some .modexp | some .rsaPublic | some .rsaPssVerify | some .rsaOaepEncrypt => (21, operandWords b)
  | some .primeTest => (22, operandWords b)
  | some .rsaPrivateCrt | some .rsaPssSign | some .rsaOaepDecrypt => (48, half)
  | some .rsaKeygen => (48, operandWords (b / 2))
  | some .xdh => (12, curve)
  | some .ecKeygen => (if isMont d.algN then 12 else 28, curve)
  | _ => (28, curve)

/-- Slots of an operand memory, and those not allocated. -/
def Operands.total (o : Operands) : Nat := min 64 (8192 / max 1 o.slotWords)
def Operands.freeSlots (o : Operands) : List Nat :=
  (numsFrom 0 o.total).filter (fun i => !(o.groups.flatMap (·.slots)).contains i)

/-- Engine n can take a request's group now. -/
def State.groupFits (s : State) (r : Req) (n : Nat) : Bool :=
  let o := s.operandsAt n
  let need := s.groupNeed r
  decide (o.groups.length < 2) && !o.waiting && decide (need.2 ≤ o.slotWords) && decide (need.1 ≤ o.freeSlots.length)

/-- The engine whose operand memory holds the request's group. -/
def State.groupOn (s : State) (rid : Nat) : Option Nat :=
  (numsFrom 0 8).find? (fun n => (s.operandsAt n).groups.any (fun g => g.req = rid))

/-- The operation's slots hold a secret (R362): all but those that work on public values alone. -/
def Desc.holdsSecret (d : Desc) : Bool :=
  !(d.opIs .modmul || d.opIs .modinv || d.opIs .rsaPublic || d.opIs .rsaPssVerify || d.opIs .ecdsaVerify || d.opIs .eddsaVerify)

/-- Allocates the group: slots last owned by another partition are written with zeros first (R362). -/
def State.takeGroup (s : State) (r : Req) (n : Nat) : State :=
  let slots := (s.operandsAt n).freeSlots.take (s.groupNeed r).1
  (s.updOperands n (fun o => { o.zero (slots.filter (fun i => decide (getKey r.ptn o.owner i ≠ r.ptn))) with
    groups := o.groups ++ [{ req := r.id, slots := slots, secret := r.desc.holdsSecret }]
    owner := slots.foldl (fun m i => setKey 64 m i r.ptn) o.owner })).loadOperands r

/-! ### What ends a request as it starts -/

/-- A loadable curve that is not VALID: RESOURCE_BUSY until it is checked, PARAM_INVALID with its check once it failed
(R91, R382). A request admitted after a change of the entry was asked for does not run on the old one: it waits for the checks of the
new one with RESOURCE_BUSY, or finds the entry empty (R99, R387). -/
def State.curveFault (s : State) (r : Req) : Option Fail :=
  match if r.desc.opcode.toNat / 16 = 8 then curveEntry r.desc.algN else none with
  | none => none
  | some i =>
    match (s.curves.jobs.filter (fun j => decide (j.index = i) && !j.users.contains r.id)).getLast? with
    | some j => if j.change = .clear then some ⟨.unsupportedOp, none⟩ else some ⟨.resourceBusy, none⟩
    | none =>
      match s.regF .crvStatus 2 0 i with
      | 1 | 2 => some ⟨.resourceBusy, none⟩
      | 4 => some ⟨.paramInvalid, some (0x0720 + s.regF .crvStatus 11 8 i)⟩
      | _ => none

/-- What a big-number request meets as it starts (R361, R382, R387). -/
def State.bneFault (s : State) (r : Req) : Option Fail :=
  match s.curveFault r with
  | some f => some f
  | none =>
    if (numsFrom 0 8).all (fun n => s.unitOut 5 n || decide ((s.operandsAt n).slotWords < (s.groupNeed r).2)) then
      some ⟨.resourceBusy, some 0x0701⟩
    else if r.desc.hashPart ∧ !s.classServes .hsh then some ⟨.resourceBusy, none⟩
    else if r.desc.hashPart then (s.isolationFault r.ptn .hsh).map (fun st => ⟨st, none⟩)
    else none

/-- No engine in service of its class, or not the one it names, can ever run the request: its instance or class left
service, no recipe, no interval that fits, a fence, or a unit's own rule. -/
def State.startFault (s : State) (r : Req) : Option Fail :=
  if (r.want ≠ 0xFF ∧ !s.inService r.unit r.want) ∨ !s.classServes r.unit then some ⟨.resourceBusy, none⟩
  else if r.unit = .ply ∧ ((r.desc.op.map (fun o =>
      (numsFrom 0 16).any (fun n => !s.unitOut 3 n && s.plyHolds n o r.desc.algN && (decide (r.want = 0xFF) || decide (r.want = n))))).getD
        true) = false then some ⟨.unsupportedOp, none⟩
  else if r.unit = .ply ∧ ((r.desc.op.map (fun o => (numsFrom 0 16).any (fun n =>
      !s.unitOut 3 n && s.plyServes n o r.desc && (decide (r.want = 0xFF) || decide (r.want = n))))).getD true) = false then
    some ⟨.badLength, none⟩
  else
    match s.isolationFault r.ptn r.unit with
    | some st => some ⟨st, none⟩
    | none =>
      if !r.sizeKnown then none
      else if s.isolated r.ptn ∧ r.unit.reservable ∧ !s.isoFits r then some ⟨.paramInvalid, none⟩
      else if r.unit = .bne then s.bneFault r
      else none

/-! ### Waiting -/

/-- A request on a linked berth runs on the engine that LINK names, while that is in service (R321). -/
def State.linkAllows (s : State) (r : Req) (n : Nat) : Bool :=
  match s.berthNamed r with
  | none => true
  | some i =>
    match (numsFrom 0 16).find? (fun k => !s.unitOut 3 k && s.linkedOn i k) with
    | some k => decide (k = n)
    | none => true

/-- Instance n is free for the request. GET_RANDOM requests run one at a time in ISSUE order (R400); the key store and
the DMA engines serve several. -/
def State.unitFree (s : State) (r : Req) (n : Nat) : Bool :=
  match r.unit with
  | .sym | .hsh | .ply | .cod | .bne => !s.unitTaken r.unit n
  | .rng => !s.reqs.any (fun x => decide (x.unit = .rng) && decide (x.id ≠ r.id) &&
      (x.onEngine || (x.phase == .queued && x.ready && decide (x.seq < r.seq))))
  | _ => true

/-! ### Starting -/

/-- The run of a recipe on a polynomial engine, at the entry of its opcode (R330). -/
def State.startRecipe (s : State) (r : Req) (n : Nat) : State :=
  match r.desc.op with
  | none => s
  | some o =>
    match s.plyRecipe n o r.desc.algN with
    | none => s
    | some b => s.updPly n (fun p => { p with run := some {
        req := r.id, set := b, entry := o.plyEntry, pc := rsEntry b o.plyEntry, q := rsQ b } })

/-- The key of a lattice request is taken as it starts. -/
def State.startKey (s : State) (r : Req) : State :=
  let need : KeyNeed := if r.desc.op.map Op.isKem = some true then { usages := [usDecap], lens := [64], holdLen := some 64 }
    else { usages := [usSign], lens := [32], holdLen := some 32 }
  if r.desc.opIs .mlkemDecaps ∨ ((r.desc.opIs .mldsaSign ∨ r.desc.opIs .mldsaSignMu) ∧ r.berth.isNone) then
    match s.ensureKey r need with
    | (s, .ok _) => s
    | (s, .error f) => s.failOp r.id f
  else s

/-- An honoured urgent cipher request counts in QOS_VIOL_LAT if it has waited more than its bound for a core: whether it has is a free
value (R472). -/
def State.noteUrgent (s : State) (r : Req) : State :=
  if s.pick % 2 = 1 then s.drawn.violate .qosViolLat r.ptn else s.drawn

/-- What a unit does for its request as it begins. -/
def State.startUnit (s : State) (r : Req) (n : Nat) : State :=
  match r.unit with
  | .sym =>
    let s := if r.urgent then (s.setF .symSusp 31 16 (s.regF .symSusp 31 16 n + 1) n).noteUrgent r else s
    match s.berthNamed r with
    | none => if s.berthLost r then s.failOp r.id ⟨.berthInvalid, none⟩ else s
    | some i =>
      match s.startBerth r i with
      | (s, some f) => s.failOp r.id f
      | (s, none) => s
  | .ply =>
    let r' := { r with berth := s.berthNamed r }
    match r'.berth with
    | some i =>
      let s := (s.noteBerthRead r.id i).updReq r.id (fun x => { x with berth := some i })
      match s.linkedFault r i with
      | some f => s.failOp r.id f
      | none => s.startRecipe r n
    | none => if s.berthLost r then s.failOp r.id ⟨.berthInvalid, none⟩ else (s.startRecipe r n).startKey r
  | .cod => s.startEntry r
  | .bne => if (s.groupOn r.id).isSome then s else s.takeGroup r n
  | _ => s

/-- A request reads the lines of the holds that it names: a word with one bad symbol is corrected, one with more poisons it (R18, R180). -/
def State.noteHoldReads (s : State) (r : Req) : State :=
  (holdReads (s.towMembers r) r.desc).foldl (fun s h =>
    let x := s.holdOf r h
    match x.line with
    | none => s
    | some (e, _) =>
      let src (bad : Bool) : Nat :=
        if e < 16 then (if bad then srcPlyMemUncorr else srcPlyMemCorr) else if bad then srcCodMemUncorr else srcCodMemCorr
      let n := if e < 16 then e else e - 16
      if x.mem = 2 then (s.poisonTag r.id).event (src true) (s.lineDomain e) n
      else if x.mem = 1 then
        (s.updTow (r.tow.getD 0) (fun t => { t with holds := modAt (fun y => { y with mem := 0 }) h t.holds })).event (src false) (s.lineDomain e) n
      else s) s

/-- The engine begins: it draws what the request needs of the DRBG, and starts. A draw that the RNG does not give whole ends it with
ENTROPY_HALTED (R398, R408). -/
def State.begin (s : State) (r : Req) (n t : Nat) : State :=
  let joined := if r.unit = .hsh then s.joinCores r n t else []
  let lead := (joined.foldl min n)
  let others := if lead = n then joined else n :: joined.filter (· ≠ lead)
  let core := if r.unit = .bne ∧ r.desc.hashPart then s.hashCoreFor r n t else none
  let s := (s.updReq r.id (fun r => { r with phase := .running, inst := lead, joined := others, hashCore := core, dummy := if r.unit = .sym then some (s.dummyMax lead) else none })).consume r.id
  match s.findReq r.id with
  | none => s
  | some r => s.checked r (r.desc.onTowpath || s.needsRandom r) (fun s r =>
      let (s, fresh) := s.noteServed r lead
      let (s, drawn) := if s.needsRandom r then s.takeDraws r lead else (s, true)
      if fresh && drawn then (s.noteHoldReads r).startUnit r lead else s.failOp r.id ⟨.entropyHalted, none⟩)

/-- The engine, or the berth bank or cache that the request works on, is being drained (R534). -/
def State.drainBars (s : State) (r : Req) (n : Nat) : Bool :=
  s.draining r.unit.code n ||
  ((numsFrom 0 8).any (fun b => s.draining 8 b && (s.berthNamed r).any (fun i => i % 8 == b))) ||
  (s.draining 9 0 && r.desc.usesCache)

/-- The conditions of the unit on instance n at time t of the frame, once nothing ends the request. -/
def State.mayStart (s : State) (r : Req) (n t : Nat) : Bool :=
  s.unitFree r n && !s.drainBars r n && !s.aheadOf r n && s.timeAllows r n t && !s.berthWaits r && !s.hbsWaits r &&
  (decide (5 < r.unit.code) || s.capAllows r.unit.code n) &&
  (decide (r.unit ≠ .hsh) || decide ((s.joinCores r n t).length + 1 = r.desc.cores)) &&
  (decide (r.unit ≠ .ply) || (((s.ply n).waiting.isNone || decide (s.domState (s.unitDomain 3 n) = 0)) && s.linkAllows r n && ((r.desc.op.map (fun o => s.plyServes n o r.desc)).getD false))) &&
  (decide (r.unit ≠ .bne) || decide (s.groupOn r.id = some n) || ((s.groupOn r.id).isNone && s.groupFits r n)) &&
  (!r.desc.hashPart || decide (r.unit ≠ .bne) || (s.hashCoreFor r n t).isSome)

/-- The next request's operands load while the first request computes (R361). -/
def State.loadNext (s : State) (r : Req) (n t : Nat) : State :=
  if (s.groupOn r.id).isNone ∧ s.groupFits r n ∧ s.timeAllows r n t ∧ !s.drainBars r n ∧ !s.aheadOf r n then
    (s.takeGroup r n).consume r.id
  else s

/-- A request of an isolated partition finds its reserved unit taken by another's operation that ran before the set was committed: it
starts late. The wait for a lent operation is no such delay (R176, R180, R472). -/
def State.noteLate (s : State) (r : Req) (n t : Nat) : State :=
  let other := (s.internal.contains (r.unit.code, n) && s.sched.overInternal.contains (r.unit.code, n)) ||
    s.reqs.any (fun x => decide (x.ptn ≠ r.ptn) && s.sched.overRun.contains x.id && x.servedBy r.unit n)
  if s.isolated r.ptn ∧ r.unit.reservable ∧ s.timeAllows r n t ∧ other then s.flagRsv r.ptn else s

/-- ENGINE_START: instance n of the request's class begins it, or it waits; a link word of its input queue that is lost
poisons it (R236). The time of the frame is a free value. -/
def State.engineStart (s : State) (rid n : Nat) : State :=
  match s.findReq rid with
  | none => s
  | some r =>
    if r.phase ≠ .queued ∨ !r.ready ∨ s.held then s
    else
      match s.startFault r with
      | some f => ((s.updReq rid (fun r => { r with phase := .running, inst := if r.want = 0xFF then 0 else r.want })).failOp rid f)
      | none =>
        if s.waitsKeep r ∧ s.rngState = rngHalted then s.endReq rid .entropyHalted r.unit
        else if !s.inService r.unit n ∨ (r.want ≠ 0xFF ∧ r.want ≠ n) ∨ !r.weirReached ∨ !r.sizeKnown ∨ s.waitsKeep r then s
        else s.throughLinks r false fun s =>
          let t := s.pick % 1000
          let s := s.drawn
          let s := s.noteLate r n t
          if r.unit = .bne ∧ s.unitTaken .bne n then s.loadNext r n t
          else if !s.mayStart r n t then s
          else
            let doms := s.startDomains r n t
            if !doms.all s.domOn then s.wakeAll (doms.filter (fun d => !s.domOn d))
            else if s.needsRandom r ∧ s.rngState = rngHalted then
              (s.updReq rid (fun r => { r with phase := .running, inst := n })).failOp rid ⟨.entropyHalted, none⟩
            else if s.needsRandom r ∧ s.rngState ≠ rngReady then s
            else s.begin r n t

/-! ### Waits for entropy (R94, R401, R559) -/

/-- RNG_WAIT_LIMIT_EXPIRY: the request has waited RNG_WAIT_LIMIT since its admission. -/
def State.rngWaitOver (s : State) (rid : Nat) : State :=
  match s.findReq rid with
  | none => s
  | some r =>
    let st := if s.rngState = rngHalted then Status.entropyHalted else .entropyNotReady
    if s.held then s
    else if r.phase = .queued ∧ ((s.needsRandom r ∧ s.rngState ≠ rngReady) ∨ s.waitsKeep r) then s.endReq rid st r.unit
    else if r.desc.opIs .getRandom ∧ r.desc.param.getLsbD 0 then
      if r.phase = .running ∧ r.itemHere then s.failOp rid ⟨.resourceBusy, none⟩
      else if r.phase = .queued ∧ r.ready then s.endReq rid .resourceBusy r.unit
      else s
    else s

/-! ### The commands -/

/-- ENGINE_START (R225). -/
def execEngineStart (rid : Nat) (inst : Nat) (s : State) : Host.Outcome State Fault Refusal := s.run (fun s => s.engineStart rid inst)
/-- RNG_WAIT_LIMIT_EXPIRY (R94). -/
def execRngWaitLimitExpiry (rid : Nat) (s : State) : Host.Outcome State Fault Refusal := s.run (fun s => s.rngWaitOver rid)
/-- RNG_SAMPLE (R389). -/
def execRngSample (src : Fin 3) (bit : Bool) (s : State) : Host.Outcome State Fault Refusal := s.run (fun s => s.rngSample src bit)
/-- DRBG_RESEED (R395). -/
def execDrbgReseed (k : Nat) (s : State) : Host.Outcome State Fault Refusal := s.run (fun s => s.drbgReseedCmd k)
/-- RNG_READY (R403). -/
def execRngReady (s : State) : Host.Outcome State Fault Refusal := s.run State.rngBecomesReady
/-- RNG_RECAL_DONE (R392). -/
def execRngRecalDone (src : Fin 3) (good : Bool) (s : State) : Host.Outcome State Fault Refusal := s.run (fun s => s.rngRecalDone src good)
/-- RNG_DATA_REFILL (R402). -/
def execRngDataRefill (s : State) : Host.Outcome State Fault Refusal := s.run State.rngRefill
/-- HEARTBEAT_EXPIRY (R209). -/
def execHeartbeatExpiry (lk : Fin 8) (s : State) : Host.Outcome State Fault Refusal := s.run (fun s => s.heartExpire lk)
/-- LK_SCRUB (R210). -/
def execLkScrub (lk : Fin 8) (s : State) : Host.Outcome State Fault Refusal := s.run (fun s => s.lkScrub lk)
/-- LK_DRAIN_LIMIT_EXPIRY (R214). -/
def execLkDrainLimitExpiry (lk : Fin 8) (s : State) : Host.Outcome State Fault Refusal := s.run (fun s => s.lkDrainExpire lk)
/-- LK_CLONE_DONE (R215). -/
def execLkCloneDone (lk : Fin 8) (s : State) : Host.Outcome State Fault Refusal := s.run (fun s => s.lkCloneDone lk)

end Sys2Proof.Machine
end

