-- ==== Sys2Proof/Machine/Zeroize.lean ====
section
/-!
DEFINITION. The zeroize sequence (R492 to R494), the fence (R489), the safe state (R516), the entries to levels 3 and 4 of the
recovery ladder (R476 to R479), and the state that a reset leaves (R71, R546).
-/
namespace Sys2Proof.Machine

/-! ### The zeroize sequence -/

/-- The request has been admitted and has not completed. -/
def Req.inHand (r : Req) : Bool := !r.completed && r.phase != .fetched

/-- Places a request before the first one of its ring or of a later ring. -/
def insertReq (r : Req) : List Req → List Req
  | [] => [r]
  | q :: qs => if 16 * r.ptn + r.ring ≤ 16 * q.ptn + q.ring then r :: q :: qs else q :: insertReq r qs

/-- Requests in ascending partition and ring number; within a ring they stay in the order of their fetches, which is
ring-index order (R492 step 4). -/
def ringOrder (l : List Req) : List Req := l.foldr insertReq []

/-- The engine of a request has begun it and its completion is not handed over. -/
def Req.begun (r : Req) : Bool := r.onEngine || r.phase == .produced || r.phase == .posted

/-- Step 2 of R492: every engine stops, scrubs stop, and nothing more is posted. What has begun keeps the engine that it
reports. -/
def State.stopEngines (s : State) : State :=
  let s := (s.reqs.filter Req.onEngine).foldl State.abortEngine s
  { s with reqs := s.reqs.map (fun r =>
      if r.begun then { r with phase := .produced, scrub := .none, result := some (plainResult .tamperAbort r.unit r.inst) } else r) }

/-- Commits that a zeroize overtakes have no effect (R423). -/
def State.endCommits (s : State) (st : Status) : State :=
  ((numsFrom 0 64).filter (fun p => s.regB .keyStageStatus 31 p)).foldl (fun s p => s.commitEnds p st 0) s

/-- The memories of step 3 of R492 cleared: the key store, the Basin's staged image and working table, the berths, the cache,
the engines' memories with the hold lines, and the staging words. -/
def State.clearMemories (s : State) : State :=
  let s := s.endCommits .tamperAbort
  let s := (s.berths.map (·.1)).foldl State.freeBerth s
  let s := (s.tows.map (·.id)).foldl State.zeroHolds s
  let s := (s.reqs.map (·.id)).foldl State.freeCells s
  let s := if s.boot.stageCells.isEmpty then s.dropStage else s.dropStage.setReg .mgtStageStatus 0
  let s := s.dropTable
  let s := match s.curves.checking with
    | some (i, _) => ({ s with curves := { s.curves with checking := none } } : State).setF .crvStatus 2 0 1 i
    | none => s
  { s with
    keys := [], staging := [], roundKeys := [],
    ckc := { s.ckc with entries := [] },
    plys := s.plys.map (fun p => { p with slots := [], shares := [], run := none, areas := [] }),
    codWork := s.codWork.map (fun _ => []),
    operands := s.operands.map (fun o => { o with groups := [], owner := [], words := [] }) }

/-- Steps 1 to 3 of R492: the scheduler and the Lockkeepers stand still until step 5. -/
def State.zeroizeBegin (s : State) (z : Zeroize) : State :=
  let s := (s.stopEngines.clearMemories).rngRestart
  { s with tamper := { s.tamper with zeroize := some z } }

/-- Frames and contexts of requests that have ended return to IDLE, and their kept slots are free (step 5 of R492, R192). -/
def State.releaseEnded (s : State) (ids : List Nat) : State :=
  let gone (r : Req) : Bool := r.completed || (r.phase == .posted && ids.contains r.id)
  let ended (id : Nat) : Bool := s.reqs.any (fun r => r.id = id && gone r)
  let s := (numsFrom 0 8).foldl (fun s n =>
    let cs := (numsFrom 0 8).filter (fun c =>
      (s.lk n).frames.any (fun f => f.valid && f.ctx == some c && ended f.req) ||
      s.reqs.any (fun q => gone q && (q.keep.map (fun k => k.lk == n && k.ctx == c)).getD false))
    (s.killCtxs n cs (fun f => ended f.req)).checkDrained n) s
  { s with reqs := s.reqs.map (fun q => if gone q then { q with keep := none } else q) }

/-- Step 4 of R492: every admitted request that is in hand ends with the status, in the order of the rule, then its frames are freed.
The entry carries nothing of the request's result (R493), its tow fails nothing (R162), and it follows the request's writes (R22). -/
def State.abortAll (s : State) (st : Status) : State :=
  let rs := ringOrder (s.reqs.filter Req.inHand)
  let s := rs.foldl (fun s r =>
    let res := match r.result with
      | some x => plainResult st x.unit x.inst
      | none => plainResult st .completion 0
    ((s.freeCells r.id).updReq r.id (fun r => { r with phase := .posted, result := some res, scrub := .none }))) s
  (rs.foldl (fun s r => s.settle r.id) s).releaseEnded (rs.map (·.id))

/-- R489: the engines stop, and each admitted request in hand completes with RESOURCE_BUSY, but for one whose engine had produced
its result; a tow member ended this way fails its tow. -/
def State.fence (s : State) : State :=
  ((ringOrder (s.reqs.filter Req.inHand)).foldl (fun s r =>
    match s.findReq r.id with
    | none => s
    | some q =>
      match q.phase with
      | .produced => s.postResult q.id
      | .running | .suspended | .paused => (s.abortEngine q).finishReq q.id (plainResult .resourceBusy q.unit q.inst)
      | .admitted | .queued => s.endReq q.id .resourceBusy .completion
      | _ => s) s).releaseEnded ((s.reqs.filter (fun r => r.inHand && r.phase != .produced && r.phase != .posted)).map (·.id))

/-- The safe state (R516): the pin is low, the timers stop, the memories are cleared, and every admitted request receives
ENGINE_FAULT. -/
def State.enterSafe (s : State) : State :=
  if s.safe then s
  else
    let s := ((s.pinLow.setB .fltEsc 31 false).setB .fltEsc 30 false).setB .fltEsc 26 true
    let s : State := { s with flt := { s.flt with t1Waits := false, t2Waits := false, deadline := false } }
    let s := ((s.stopEngines.clearMemories).rngRestart).abortAll .engineFault
    ({ s with tamper := { s.tamper with zeroize := none } } : State).deferRest

/-! ### Levels 3 and 4 -/

/-- The increments that wait are committed to the keep domain (R539). A counter that would pass its width saturates and
raises LIFE_SAT once (R537). -/
def State.lifeCommit (s : State) : State :=
  let s := s.life.fresh.foldl (fun s (i, n) =>
    let old := getKey 0 s.life.counts i
    let top := 2 ^ 64 - 1
    let s : State := { s with life := { s.life with counts := setKey 0 s.life.counts i (satAdd top old n) } }
    if old < top ∧ top ≤ old + n then (s.setF .lifStatus 15 0 (s.regF .lifStatus 15 0 + 1)).event srcLifeSat 0 i else s) s
  { s with life := { s.life with fresh := [] } }

/-- What the keep domain records at an entry to level 3 or 4 (R479): the level (1 or 2) and the cause, COUNT, and the EPOCH of
every partition. -/
def State.recordLevel (s : State) (level cause : Nat) : State :=
  let s := ((s.setF .mgtRcvStatus 31 28 cause).setF .mgtRcvStatus 27 26 level).setF .mgtRcvStatus 15 0
    (satAdd 0xFFFF (s.regF .mgtRcvStatus 15 0) 1)
  (numsFrom 0 64).foldl (fun s p => s.setF .ptnStatus 31 16 (s.regF .ptnStatus 31 16 p + 1) p) s

/-- Every request, tow, frame and transaction is given up without an entry (R23, R476). -/
def State.giveUp (s : State) : State :=
  { s with
    reqs := [], tows := [], cu := [], reads := [], writes := [], irqs := [], resets := [], retries := [], flushEnded := [],
    basin := {}, boot := { s.boot with stage := [], stageCells := [], stageBad := [], stageUnits := [], job := none },
    lks := s.lks.map (fun l => { l with
      ctxs := List.replicate 8 {}, frames := List.replicate 32 {}, cur := none, fetch := none, after := .nothing, cloneFrom := none }) }

/-- The block enters level 3 (1) or 4 (2) of the ladder: step 1 of R477, and the request to the S9 (R72). A request for the
same or a lower level while one stands changes nothing. -/
def State.enterLevel (s : State) (level cause : Nat) : State :=
  if level ≤ s.pins.blkRstReq then s
  else
    let s := (s.recordLevel level cause).stopEngines.clearMemories.rngRestart.giveUp
    ({ s with
      pins := { s.pins with blkRstReq := level },
      tamper := { s.tamper with zeroize := none, record := [] } } : State).deferRest

/-- T1 has expired: level 3 with cause 2, and the timers that follow it (R513). -/
def State.t1Enters (s : State) : State :=
  let s := s.setB .fltEsc 31 false
  ({ s with flt := { s.flt with t2Waits := true, deadline := true, t1Over := false } } : State).enterLevel 1 2

/-! ### What a reset leaves -/

/-- The bits of a register that outlive a reset although its row does not: the fields that the keep domain holds beside others
(R479, R486, R487, R514). `deep` is level 4 or a cold reset. -/
def keptMask (r : RegId) (deep : Bool) : Nat :=
  match r with
  | .ptnStatus => 0xFFFF0000
  | .tmpStatus => 0x80000FFF
  | .tmpSrcStatus => 0xFFFFFF03
  | .fltEsc => if deep then 0x38000000 else 0xFFFFFFFF
  | .bsnErr => if deep then 0 else 0xFF000000
  | .keyStatus => if deep then 0 else 0xC0000000
  | _ =>
    match r.row.survives with
    | .nothing => 0
    | .blockReset => if deep then 0 else 0xFFFFFFFF
    | .everything => 0xFFFFFFFF

/-- The collector's registers, which return to their reset values when a reset leaves the safe state, but for the records
(R516), and the out-of-service marks that stand in registers (R510). -/
def collectorReg (r : RegId) : Bool :=
  [RegId.bsnErr, .keyStatus, .fltStatusLo, .fltStatusHi, .fltMaskLo, .fltMaskHi, .fltCfg, .fltT1, .fltT2, .fltInject, .fltSrcCfg, .fltSrcCount].contains r

/-- The registers after a reset. -/
def State.keptRegs (s : State) (deep : Bool) : SMap W32 :=
  s.regs.filterMap (fun (a, v) =>
    match regAt a with
    | none => none
    | some x =>
      if s.safe && collectorReg x.id then none
      else
        let m := BitVec.ofNat 32 (keptMask x.id deep)
        let r := x.id.resetVal x.i x.j
        let v := (v &&& m) ||| (r &&& ~~~m)
        if v = r then none else some (a, v))

/-- An OTP program under way leaves its word with a subset of the new bits (R56). -/
def State.cutOtp (s : State) : State :=
  match s.otpJobs with
  | j :: _ =>
    match j.reading, j.words with
    | false, (a, w) :: _ =>
      { s.drawn with otp := setKey 0 s.otp a (getKey 0 s.otp a ||| (w &&& BitVec.ofNat 32 s.pick)), otpJobs := [] }
    | _, _ => { s with otpJobs := [] }
  | [] => s

/-- The block while a reset is asserted: `deep` at level 4 and at cold reset, where out-of-service marks, fault records and the
timers are lost as well (R71, R476, R510, R515). The keep domain, OTP and the levels that others drive stay. -/
def State.resetTo (s : State) (deep : Bool) : State :=
  let s := s.lifeCommit.cutOtp.deferRest
  let leavesSafe := s.safe
  let t : State :=
    { State.reset with
      pending := s.pending, free := s.free, regs := s.keptRegs deep, port := { s.port with latchHi := 0 },
      pins := { dbgEn := s.pins.dbgEn, keepOnCell := s.pins.keepOnCell, pmCap := s.pins.pmCap, engMhz := s.pins.engMhz,
                fltErrN := s.pins.fltErrN, coldLow := s.pins.coldLow, warmLow := s.pins.warmLow },
      keep := { s.keep with recs := s.keep.recs.map (fun x => { x with pending := false }) }, otp := s.otp, life := s.life,
      outMarks := if deep || leavesSafe then [] else s.outMarks,
      lks := if deep || leavesSafe then List.replicate 8 {} else s.lks.map Lk.inReset,
      flt := if deep || leavesSafe then {} else s.flt,
      tamper := { srcs := s.tamper.srcs.map (fun x => { count := x.count, atLo := x.atLo, atHi := x.atHi, cfg := x.cfg }), pending := s.tamper.pending,
                  disagree := s.tamper.disagree, deferred := s.tamper.deferred, unsound := s.tamper.unsound, broken := s.tamper.broken, lines := s.tamper.lines } }
  (t.setB .fltEsc 26 false).setB .fltEsc 25 (!s.pins.fltErrN)

/-- A warm reset (R71): level 4 when the block has asked for it, else level 3. One that the block did not ask for is recorded
with cause 6 (R479). After level 4 the pin is driven as before (R512). -/
def State.warmAssert (s : State) : State :=
  if s.pins.warmLow then s
  else
    let s := if s.pins.blkRstReq = 0 then s.recordLevel 1 6 else s
    let deep := s.pins.blkRstReq == 2
    let t := s.resetTo deep
    let t := if deep then t.setB .fltEsc 24 true else t
    { t with pins := { t.pins with warmLow := true } }

/-- A chip cold reset (R44, R71): flt_err_n goes high. -/
def State.coldAssert (s : State) : State :=
  if s.pins.coldLow then s
  else
    let t := ({ s with pins := { s.pins with fltErrN := true } } : State).resetTo true
    { t with pins := { t.pins with coldLow := true } }

end Sys2Proof.Machine
end

