-- ==== Sys2Proof/Machine/Sections.lean ====
section
/-!
DEFINITION. The sections of a manifest: what each chapter requires of its section's data, and what a section sets
(R82, R92, R99, R177, R211, R212, R329 to R332, R381, R410, R455, R456, R505, R518, R531, R550).
-/
namespace Sys2Proof.Machine

/-- A section of an image: its index, type, flags, target and data (R82). -/
structure Section where
  index : Nat
  kind : Nat
  flags : Nat
  offset : Nat
  length : Nat
  target : Nat
  version : Nat
  data : Bytes
  deriving DecidableEq, Repr

/-- A condition that must hold of every pair of a list of numbers: none stands twice. -/
def noRepeat (l : List Nat) : Bool := l.eraseDups.length == l.length

/-- The records of a section with FORMAT, COUNT and 4 zero bytes before COUNT records of `n` bytes. -/
def records (b : Bytes) (n : Nat) : List Bytes := (numsFrom 0 (le16 b 2)).map (fun k => slice b (8 + n * k) n)

/-- The form of such a section, with at most `top` records. -/
def recordsOk (b : Bytes) (n top : Nat) : Bool :=
  decide (le16 b 0 = 1) && decide (1 ≤ le16 b 2 ∧ le16 b 2 ≤ top) && decide (le32 b 4 = 0) &&
  decide (b.length = 8 + n * le16 b 2)

/-! ### PLY_RECIPES (R329 to R332) -/

/-- The shape that a built-in code fixes: N, K, L, Q, PK_LEN and CT_LEN (R312, R317). -/
def builtinSet : Nat → Option (List Nat)
  | 0x01 => some [256, 2, 0, 3329, 800, 768]
  | 0x02 => some [256, 3, 0, 3329, 1184, 1088]
  | 0x03 => some [256, 4, 0, 3329, 1568, 1568]
  | 0x11 => some [256, 4, 4, 8380417, 1312, 2420]
  | 0x12 => some [256, 6, 5, 8380417, 1952, 3309]
  | 0x13 => some [256, 8, 7, 8380417, 2592, 4627]
  | _ => none

/-- The fields of a set descriptor (R330). -/
def recipeSetOk (b : RecipeSet) (words : Nat) : Bool :=
  let dsa := rsFamily b == 2
  let time (e o : Nat) : Nat := le32 b (0x20 + 12 * e + 4 * o)
  (decide (1 ≤ rsAlg b ∧ rsAlg b ≤ 3) || decide (0x11 ≤ rsAlg b ∧ rsAlg b ≤ 0x13) || decide (0x80 ≤ rsAlg b ∧ rsAlg b ≤ 0xBF)) &&
  (rsFamily b == 1 || dsa) &&
  (decide (0x80 ≤ rsAlg b) || dsa == decide (0x11 ≤ rsAlg b)) &&
  (rsOrders b).testBit 1 && decide (rsOrders b < 8) &&
  (if 0x11 ≤ rsAlg b ∧ rsAlg b ≤ 0x13 then decide (1 ≤ rsAreas b ∧ rsAreas b ≤ 12) else decide (rsAreas b = 0)) &&
  [256, 512, 1024].contains (rsN b) && decide (1 ≤ rsK b ∧ rsK b ≤ 8) &&
  (if dsa then decide (1 ≤ rsL b ∧ rsL b ≤ 8) else decide (rsL b = 0)) &&
  decide (rsQ b % 2 = 1 ∧ rsQ b % rsN b = 1) &&
  decide (32 ≤ rsPk b ∧ rsPk b ≤ 8192) && decide (32 ≤ rsCt b ∧ rsCt b ≤ 16384) &&
  decide (rsSeed b = if dsa then 32 else 64) && decide (byteAt b 0x11 = if dsa then 0 else 32) &&
  (if dsa then decide (16 ≤ rsIterMax b) else decide (rsIterMax b = 0)) &&
  (numsFrom 0 6).all (fun e => decide (rsEntry b e = 0xFFFF) || decide (rsEntry b e < words)) &&
  (dsa || [3, 4, 5].all (fun e => decide (rsEntry b e = 0xFFFF))) &&
  (numsFrom 0 6).all (fun e => (numsFrom 0 3).all (fun o =>
    (decide (rsEntry b e ≠ 0xFFFF) && (rsOrders b).testBit o) || decide (time e o = 0))) &&
  decide (rsConstOff b + rsConstLen b ≤ words) && (decide (rsAreas b ≠ 0) || decide (le32 b 0x6C = 0)) &&
  allZero (slice b 0x70 16) &&
  (match builtinSet (rsAlg b) with
   | some l => decide (l = [rsN b, rsK b, rsL b, rsQ b, rsPk b, rsCt b])
   | none => true)

/-- A slot, or a stream code in its direction (R331). -/
def readable (c : Nat) : Bool := decide (c < 80) || [0x7B, 0x7C, 0x7E, 0x7F].contains c
def writable (c : Nat) : Bool := decide (c < 80) || [0x7D, 0x7E, 0x7F].contains c

/-- What R332 asks of a word that an entry can reach. -/
def microOk (m : Micro) : Bool :=
  let (d, a, b) := microUses m.op
  decide (m.op ≤ 0x19) && (!d || writable m.d) && (!a || readable m.a) && (!b || decide (m.b < 80))

/-- Every word from `pc` to the END that follows it (R332). Code runs on from word to word; ITER goes to an entry, which is
checked as one. -/
def reachOk (b : Bytes) : Nat → Nat → Bool
  | 0, _ => true
  | n + 1, pc =>
    if recipeWords b ≤ pc then true
    else
      let m := Micro.ofWord (recipeWord b pc)
      microOk m && (m.op == 0 || reachOk b n (pc + 1))

def recipesOk (b : Bytes) : Bool :=
  let sets := (numsFrom 0 (recipeSets b)).map (recipeSet b)
  decide (le16 b 0 = 1) && decide (1 ≤ recipeSets b ∧ recipeSets b ≤ 64) && decide (1 ≤ recipeWords b ∧ recipeWords b ≤ 8192) &&
  decide (le64 b 8 = 0) && decide (b.length = 16 + 128 * recipeSets b + 4 * recipeWords b) &&
  sets.all (fun x => recipeSetOk x (recipeWords b)) && noRepeat (sets.map rsAlg) &&
  sets.all (fun x => (numsFrom 0 6).all (fun e => decide (rsEntry x e = 0xFFFF) || reachOk b (recipeWords b) (rsEntry x e)))

/-! ### PARTITION_TABLE (R454 to R458) -/

/-- An entry of the partition table (R454, R455). -/
structure PtnEntry where
  ptn : Nat
  flags : Nat
  asid : Nat
  sqMax : Nat
  cqMax : Nat
  vecMax : Nat
  keyQuota : Nat
  berthQuota : Nat
  gen : Nat
  deriving DecidableEq, Repr

def PtnEntry.enabled (e : PtnEntry) : Bool := e.flags.testBit 0
def PtnEntry.isolated (e : PtnEntry) : Bool := e.flags.testBit 3

def PtnEntry.ofBytes (b : Bytes) : PtnEntry :=
  { ptn := byteAt b 0, flags := byteAt b 1, asid := le16 b 2, sqMax := byteAt b 4, cqMax := byteAt b 5, vecMax := byteAt b 6,
    keyQuota := le16 b 8, berthQuota := le16 b 0xA, gen := le16 b 0xC }

/-- The values of an entry lie in their ranges (R454). -/
def PtnEntry.inRange (e : PtnEntry) : Bool :=
  decide (e.sqMax ≤ 16 ∧ e.cqMax ≤ 16 ∧ e.vecMax ≤ 32 ∧ e.keyQuota ≤ 8191 ∧ e.berthQuota ≤ 16384)

/-- Words A, B and C of an entry. -/
def PtnEntry.wordA (e : PtnEntry) : W32 :=
  BitVec.ofNat 32 (b2n e.enabled * 2 ^ 31 + b2n (e.flags.testBit 1) * 2 ^ 30 + b2n (e.flags.testBit 2) * 2 ^ 29 +
    b2n e.isolated * 2 ^ 28 + e.vecMax * 2 ^ 12 + e.cqMax * 2 ^ 6 + e.sqMax)
def PtnEntry.wordC (e : PtnEntry) : W32 := BitVec.ofNat 32 (e.keyQuota * 2 ^ 16 + e.berthQuota)

def ptnEntries (b : Bytes) : List PtnEntry := (records b 16).map PtnEntry.ofBytes

/-- R456. -/
def ptnTableOk (b : Bytes) : Bool :=
  let es := ptnEntries b
  let on := es.filter PtnEntry.enabled
  recordsOk b 16 64 && (records b 16).all (fun r => decide (byteAt r 0 < 64 ∧ byteAt r 1 < 16 ∧ byteAt r 7 = 0 ∧ le16 r 0xE = 0)) &&
  es.all PtnEntry.inRange && noRepeat (es.map (·.ptn)) && es.all (fun e => decide (e.ptn ≠ 0) || (e.enabled && !e.isolated)) &&
  noRepeat ((if es.any (fun e => e.ptn = 0) then [] else [0]) ++ on.map (·.asid))

/-- The entry of a partition put into the running table; ISOLATED of MGT_PTN_A is the running membership. -/
def State.setPtnEntry (s : State) (e : PtnEntry) : State :=
  let s := ((s.setReg .mgtPtnA e.wordA e.ptn).setReg .mgtPtnB (BitVec.ofNat 32 e.asid) e.ptn).setReg .mgtPtnC e.wordC e.ptn
  { s with tableGen := setKey 0 s.tableGen e.ptn e.gen }

/-- Setting ENABLED opens the window with every ring register at its reset value (R458). -/
def State.freshRings (s : State) (p : Nat) : State :=
  let regs : List RegId := [.sqBaseLo, .sqBaseHi, .sqCfg, .sqCtrl, .sqHead, .sqTail, .sqStatus, .cqBaseLo, .cqBaseHi, .cqCfg, .cqCtrl,
    .cqHead, .cqTail, .cqCoalesce, .cqStatus]
  let s := (numsFrom 0 16).foldl (fun s n => regs.foldl (fun s r => s.setReg r (r.resetVal p n) p n) s) s
  let s := (s.setReg .ringEvent 0 p).setReg .ringEventCfg 0 p
  { s with
    fetchNext := s.fetchNext.filter (fun e => e.1 / 16 ≠ p), coal := s.coal.filter (fun e => e.1 / 16 ≠ p),
    inPlaceDone := s.inPlaceDone.filter (fun e => e.1 ≠ p) }

/-! ### QOS (R177, R178) -/

/-- The set that a QOS section holds. -/
def qosOf (b : Bytes) : QosSet :=
  let w (i : Nat) : W32 := BitVec.ofNat 32 (le32 b (4 * i))
  { ptnCfg := tableOf 64 (fun p => RegId.qosPtnCfg.resetVal p 0) (fun p => w (2 * p) &&& 0xFF00FFFF),
    ptnLim := tableOf 64 (fun p => RegId.qosPtnLim.resetVal p 0) (fun p => w (2 * p + 1) &&& 0x87FF01FF),
    ringCfg := tableOf 1024 (fun k => RegId.qosRingCfg.resetVal (k / 16) (k % 16)) (fun k => w (128 + k) &&& 0xFFFF),
    rsvA := tableOf 256 (fun _ => 0) (fun n => w (1152 + 2 * n) &&& 0xFF0F003F),
    rsvB := tableOf 256 (fun _ => 0) (fun n => w (1153 + 2 * n) &&& 0x03FF03FF) }

/-- The ISOLATED flags of a partition table section, against those of a set (check 9 of R177, R178). -/
def isolatedAgree (b : Bytes) (q : QosSet) : Bool :=
  (numsFrom 0 64).all (fun p => q.isolated p == (ptnEntries b).any (fun e => decide (e.ptn = p) && e.isolated))

/-! ### TAMPER_RESPONSES (R482, R501, R505) -/

/-- The action set that KEEP_LOST has (R501). -/
def State.keepLostSet (s : State) : Nat :=
  let w := s.otpWord 0x081
  if w ≠ 0 then fld w 7 0
  else if s.lc = lcBlank ∨ s.lc = lcFactory then 0x01
  else if s.lc = lcProvisioned then 0x03
  else 0x80

/-- PARAM of a source lies in its range (R482). -/
def tmpParamOk (src p : Nat) : Bool :=
  match src with
  | 0 | 2 => true
  | 1 => decide (1 ≤ p ∧ p ≤ 25)
  | 3 => decide (1 ≤ p ∧ p ≤ 255)
  | 4 => decide (1 ≤ p ∧ p ≤ 50)
  | _ => p == 0

def tamperOk (s : State) (b : Bytes) : Bool :=
  let rs := records b 8
  recordsOk b 8 12 && noRepeat (rs.map (fun r => byteAt r 0)) &&
  rs.all (fun r => decide (byteAt r 0 < 12) && decide (1 ≤ byteAt r 2) && decide (byteAt r 3 = 0) && decide (1 ≤ le16 r 4) &&
    tmpParamOk (byteAt r 0) (le16 r 6) && (decide (byteAt r 0 ≠ 11) || decide (byteAt r 1 = s.keepLostSet)))

/-- The keep domain's copies follow a change of TMP_SRC_CFG (R502). DEDUCED: a reset is no change; log entry 108. -/
def State.copyTmpCfg (s : State) : State :=
  { s with tamper := { s.tamper with srcs := (enumFrom 0 s.tamper.srcs).map (fun e => { e.2 with cfg := s.reg .tmpSrcCfg e.1 }) } }

/-- Every source at the default of R92, its windows closed; then the entries (R99, R505). -/
def State.setTamper (s : State) (b : Bytes) : State :=
  let s := (numsFrom 0 12).foldl (fun s i =>
    (s.setReg .tmpSrcCfg (RegId.tmpSrcCfg.resetVal i 0) i).setReg .tmpSrcParam (RegId.tmpSrcParam.resetVal i 0) i) s
  let s : State := { s with tamper := { s.tamper with srcs := s.tamper.srcs.map (fun x => { x with count := 0 }) } }
  ((records b 8).foldl (fun s r =>
    (s.setReg .tmpSrcCfg (BitVec.ofNat 32 (byteAt r 1 * 2 ^ 24 + byteAt r 2 * 2 ^ 16 + le16 r 4)) (byteAt r 0)).setReg .tmpSrcParam
      (BitVec.ofNat 32 (le16 r 6)) (byteAt r 0)) s).copyTmpCfg

/-! ### FAULT_SEVERITIES (R518) -/

def faultsOk (b : Bytes) : Bool :=
  let n := le16 b 2
  let rs := (numsFrom 0 n).map (fun k => slice b (16 + 8 * k) 8)
  let t1 := le32 b 4
  decide (le16 b 0 = 1) && decide (1 ≤ n ∧ n ≤ 47) && decide (b.length = 16 + 8 * n) &&
  (t1 == 0 || decide (100 ≤ t1 ∧ t1 ≤ 100000)) && decide (le16 b 8 ≤ 1000) && decide (le16 b 0xA &&& 0x60FF = 0) && decide (le32 b 0xC = 0) &&
  noRepeat (rs.map (fun r => byteAt r 0)) &&
  rs.all (fun r =>
    let src := byteAt r 0
    decide (src ≤ 0x2E) && src != srcManifestRejected && decide (byteAt r 1 ≤ 4) &&
    (srcPromotable src || (decide (byteAt r 2 = 0) && decide (byteAt r 3 = 0))) &&
    (decide (byteAt r 3 = 0) || byteAt r 2 == 3 || byteAt r 2 == 4) && decide (byteAt r 2 < 8) &&
    (decide (1 ≤ le16 r 4) || decide (byteAt r 3 = 0)) && decide (byteAt r 6 ≤ 1) && decide (byteAt r 7 = 0))

/-- Every source returns to NOTIFY with promotion off, then the section applies; T1, T2, IRQ_EN and VEC come from the header; the
promotion windows restart (R92, R99, R515). -/
def State.setFaults (s : State) (b : Bytes) : State :=
  let s := (numsFrom 0 64).foldl (fun s i =>
    (s.setReg .fltSrcCfg (RegId.fltSrcCfg.resetVal i 0) i).setF .fltSrcCount 15 8 0 i) s
  let s := (numsFrom 0 (le16 b 2)).foldl (fun s k =>
    let r := slice b (16 + 8 * k) 8
    s.setReg .fltSrcCfg (BitVec.ofNat 32 (byteAt r 1 * 2 ^ 29 + byteAt r 2 * 2 ^ 26 + byteAt r 6 * 2 ^ 24 + byteAt r 3 * 2 ^ 16 + le16 r 4))
      (byteAt r 0)) s
  ((s.setReg .fltT1 (BitVec.ofNat 32 (le32 b 4))).setReg .fltT2 (BitVec.ofNat 32 (le16 b 8))).setReg .fltCfg
    (BitVec.ofNat 32 (le16 b 0xA * 2 ^ 16))

/-! ### CURVES (R381) -/

def curveRecord (b : Bytes) (k : Nat) : Bytes := slice b (8 + 424 * k) 424

def curvesOk (b : Bytes) : Bool :=
  recordsOk b 424 16 && (numsFrom 0 (le16 b 2)).all (fun k => curveLayoutOk (curveRecord b k)) &&
  noRepeat ((numsFrom 0 (le16 b 2)).map (fun k => byteAt (curveRecord b k) 0))

/-- Each entry waits for the requests that use the old one (R99); it is then to be checked (R91). -/
def State.setCurves (s : State) (b : Bytes) : State :=
  (numsFrom 0 (le16 b 2)).foldl (fun s k =>
    let r := curveRecord b k
    s.changeCurve (byteAt r 0) (.put r)) s

/-! ### POWER (R531), RNG_PARAMS (R410), LIMITS (R82) and LOCKS (R550) -/

/-- Instances of a class of the POWER section. -/
def idleCount (k : Nat) : Nat := [8, 48, 32, 16, 4, 8].getD k 0

def powerOk (b : Bytes) : Bool :=
  decide (b.length = 64) && decide (le16 b 0 = 1) && decide (byteAt b 2 ≤ 140) && decide (byteAt b 3 = 0) &&
  decide (50 ≤ le16 b 4 ∧ le16 b 4 ≤ 1000) && decide (1 ≤ byteAt b 7) && allZero (slice b 8 8) &&
  (numsFrom 0 6).all (fun k =>
    let r := slice b (0x10 + 8 * k) 8
    decide (1 ≤ le16 r 0 ∧ le16 r 0 ≤ 4095) && decide (le16 r 2 ≤ 4095) && decide (byteAt r 4 ≤ idleCount k) && allZero (slice r 5 3))

def State.setPower (s : State) (b : Bytes) : State :=
  let s := (s.setReg .pwrCfg (BitVec.ofNat 32 (byteAt b 2 * 2 ^ 24 + byteAt b 6 * 2 ^ 16 + le16 b 4))).setReg .pwrGov
    (BitVec.ofNat 32 (byteAt b 7))
  (numsFrom 0 6).foldl (fun s k =>
    let r := slice b (0x10 + 8 * k) 8
    s.setReg .pwrIdle (BitVec.ofNat 32 (byteAt r 4 * 2 ^ 24 + le16 r 2 * 2 ^ 12 + le16 r 0)) k) s

def rngParamsOk (b : Bytes) : Bool :=
  let en := byteAt b 2
  decide (b.length = 40) && decide (le16 b 0 = 1) && decide (en < 8) && [3, 5, 6, 7].contains en && decide (byteAt b 3 = 0) &&
  decide (10 ≤ byteAt b 4 ∧ byteAt b 4 ≤ 20) && decide (byteAt b 5 = 0) && decide (1 ≤ le16 b 6 ∧ le16 b 6 ≤ 1000) &&
  allZero (slice b 8 8) &&
  (numsFrom 0 3).all (fun i =>
    let r := slice b (0x10 + 8 * i) 8
    decide (103 ≤ le16 r 0 ∧ le16 r 0 ≤ 1024) && decide (2 ≤ le16 r 2 ∧ le16 r 2 ≤ 1024) &&
    decide (513 ≤ le16 r 4 ∧ le16 r 4 ≤ 1024) && decide (1 ≤ le16 r 6 ∧ le16 r 6 ≤ 512))

/-- The window size that a LIMITS section carries. DESIGN CHOICE: the spec gives the section no layout, so the value is open;
log entry 12. -/
def limitsWindow (b : Bytes) : Nat := Config.size .hbsWindow [b]

def State.setLimits (s : State) (b : Bytes) : State :=
  { s.setF .hbsCfg 20 0 (limitsWindow b) with limits := b }

def locksOk (b : Bytes) : Bool :=
  decide (b.length = 16) && decide (le16 b 0 = 1) && allZero (slice b 2 6) && decide (le64 b 8 < 256)

/-! ### A section as its chapter checks it, and as start-up commits it -/

/-- The content checks of a section's chapter (R83). -/
def sectionOk (s : State) (x : Section) : Bool :=
  match x.kind with
  | 1 => decide (x.data.length % 2 = 0 ∧ 2 ≤ x.data.length ∧ x.data.length ≤ 32768) && decide (0 < x.target ∧ x.target < 256)
  | 2 => decide (x.data.length % 2 = 0 ∧ x.data.length ≤ 2048) && decide (0 < x.target ∧ x.target < 256)
  | 3 => recipesOk x.data
  | 4 => x.target == 0 && ptnTableOk x.data
  | 5 => x.target == 0 && x.data.length == 6656
  | 6 => x.target == 0 && tamperOk s x.data
  | 7 => x.target == 0 && faultsOk x.data
  | 8 => x.target == 0 && curvesOk x.data
  | 9 => x.target == 0 && powerOk x.data
  | 10 => x.target == 0 && rngParamsOk x.data
  | 11 => x.target == 0
  | 12 => x.target == 0 && locksOk x.data
  | _ => true

/-- Lockkeepers or engines that TARGET names. -/
def Section.targets (x : Section) (n : Nat) : List Nat := (numsFrom 0 n).filter (fun k => x.target.testBit k)

/-- SEC_VERSION is recorded for the section's TYPE (R82). -/
def State.noteVersion (s : State) (x : Section) : State :=
  { s with boot := { s.boot with secVersions := setKey 0 s.boot.secVersions x.kind x.version } }

/-- What a section of an image sets when start-up commits it (R78, R90). -/
def State.commitSection (s : State) (x : Section) : State :=
  match x.kind with
  | 1 => (x.targets 8).foldl (fun s n => s.updLk n (fun l => l.withFirmware x.data)) s
  | 2 => (x.targets 8).foldl (fun s n => s.updLk n (fun l => l.withEmulation x.data)) s
  | 3 => (x.targets 16).foldl (fun s n => s.loadRecipes (s.physical 3 n) x.data) s
  | 4 => (ptnEntries x.data).foldl (fun s e =>
      let s := s.setPtnEntry e
      let s := s.setB .qosPtnLim 31 e.isolated e.ptn
      { s with sched := { s.sched with running := { s.sched.running with
          ptnLim := setKey (RegId.qosPtnLim.resetVal e.ptn 0) s.sched.running.ptnLim e.ptn
            (setBit (s.sched.running.lim e.ptn) 31 e.isolated) } } }) s
  | 5 =>
    let q := qosOf x.data
    (s.qosApply { q with capacity := s.floorCapacity q }).loadShadows q
  | 6 => s.setTamper x.data
  | 7 => s.setFaults x.data
  | 8 => s.setCurves x.data
  | 9 => s.setPower x.data
  | 10 => { s with rng := { s.rng with waiting := some x.data } }
  | 11 => s.setLimits x.data
  | 12 => s.setReg .mgtLocks (BitVec.ofNat 32 (le64 x.data 8))
  | _ => s

end Sys2Proof.Machine
end

