-- ==== Sys2Proof/Machine/Lifecycle.lean ====
section
/-!
DEFINITION. Life-cycle states, the commands of LC_CTRL, what is programmed into OTP, and the security-version floor
(R55 to R57, R87, R440 to R452, R500, R554, R555).
-/
namespace Sys2Proof.Machine

/-! ### OTP programs (R55 to R57) -/

/-- Hands words to the otp port, one program after another; each counts as an attempt when it begins (R57, R537). -/
def State.program (s : State) (f : OtpFor) (words : List (Nat × W32)) : State :=
  if words.isEmpty then s
  else
    let t : State := { s with otpJobs := s.otpJobs ++ [{ purpose := f, words := words }] }
    if s.otpJobs.isEmpty then t.lifeAdd 1 1 else t

/-- The job at the head has ended; the next one's first program begins. -/
def State.nextProgram (s : State) : State :=
  let t : State := { s with otpJobs := s.otpJobs.drop 1 }
  if t.otpJobs.isEmpty then t else t.lifeAdd 1 1

/-- Words of a buffer from an OTP address. -/
def otpWords (a : Nat) (b : Bytes) : List (Nat × W32) :=
  (numsFrom 0 (b.length / 4)).map (fun i => (a + i, BitVec.ofNat 32 (le32 b (4 * i))))

/-! ### LMS keys (R84) -/

/-- The types that the block supports: LMS_SHA256_M32 of heights 10, 15, 20 and 25 with LMOTS_SHA256_N32 of W4 or W8 (R84), by
their codes in RFC 8554. PRESUMED: the spec names the types and leaves their codes to that standard; log entry 85. -/
def lmsTypesOk (pk : Bytes) : Bool := [6, 7, 8, 9].contains (be32 pk 0) && [3, 4].contains (be32 pk 4)

/-! ### Decoding the state (R443, R448) -/

def codewords : List W32 := [0x00000000, 0x0000003F, 0x00000FFF, 0x0003FFFF, 0x00FFFFFF, 0x3FFFFFFF]

def codeword (lc : Nat) : W32 := codewords.getD lc 0

/-- The state whose codeword a copy holds. -/
def stateOf (w : W32) : Option Nat := ((enumFrom 0 codewords).find? (fun e => e.2 = w)).map (·.1)

/-- The state that at least two copies hold, else LC_LOCKED (R443). -/
def decodeCopies (a b c : W32) : Nat :=
  match stateOf a, stateOf b, stateOf c with
  | some x, some y, z => if x = y then x else if z = some x then x else if z = some y then y else lcLocked
  | some x, none, some z => if x = z then x else lcLocked
  | none, some y, some z => if y = z then y else lcLocked
  | _, _, _ => lcLocked

/-- A copy lags: its one bits are a strict subset of the decoded codeword's (R448). -/
def copyLags (cw w : W32) : Bool := (w &&& cw) == w && w != cw

/-- LC_COPY and COPY_LAG from the copies as read. -/
def State.readCopies (s : State) : State :=
  let s := [0, 1, 2].foldl (fun s i => s.setReg .lcCopy (s.otpWord i) i) s
  s.setB .lcStatus 18 (decide (s.lc < 6) && [0, 1, 2].any (fun i => copyLags (codeword s.lc) (s.otpWord i)))

/-- Step 2 of R74: the decoded state, driven on lc_state (R68). -/
def State.decodeLc (s : State) : State :=
  (s.setF .lcStatus 2 0 (decodeCopies (s.otpWord 0) (s.otpWord 1) (s.otpWord 2))).readCopies

/-! ### Tokens (R444, R445, R447, R449, R555) -/

/-- The token words as bytes. -/
def State.token (s : State) : Bytes := (numsFrom 0 8).flatMap (fun n => toLe 4 (s.reg .lcToken n).toNat)

def tokenDigest (code : Nat) (token : Bytes) : Bytes := sha3 (ascii "OVRALIN P3 LCTOK" ++ toLe 1 code ++ token)

/-- A transition of R444: the word of its digest field, none for the one fixed in silicon, and the root that it needs: 0 none,
1 device, 2 owner. -/
def lcTransition (old new : Nat) : Option (Option Nat × Nat) :=
  if old = 0 ∧ new = 1 then some (none, 0)
  else if old = 1 ∧ new = 2 then some (some 0x040, 1)
  else if old = 2 ∧ new = 3 then some (some 0x048, 2)
  else if (old = 2 ∨ old = 3) ∧ new = 4 then some (some 0x050, 0)
  else if (1 ≤ old ∧ old ≤ 4) ∧ new = 5 then some (some 0x058, 0)
  else none

/-- FROM and TO of a block in LC_LOCKED: the lowest and the highest codeword that any copy holds (R449). -/
def State.lockedPair (s : State) : Option (Nat × Nat) :=
  let held := [0, 1, 2].filterMap (fun i => stateOf (s.otpWord i))
  match held with
  | x :: y :: rest => some ((y :: rest).foldl min x, (y :: rest).foldl max x)
  | _ => none

/-- The transition that a TRANSITION with a target asks for, from the decoded state or from LC_LOCKED. -/
def State.askedTransition (s : State) (target : Nat) : Option (Option Nat × Nat) :=
  if s.lc = lcLocked then
    match s.lockedPair with
    | some (a, b) => if b = target then lcTransition a b else none
    | none => none
  else lcTransition s.lc target

/-- The digest of a field matches a token (R445). -/
def State.tokenMatches (s : State) (field : Option Nat) (code : Nat) : Bool :=
  let d := match field with
    | some a => s.otpBytes a 8
    | none => tokenDigest 1 (zeros 32)
  d == tokenDigest code s.token

/-- The first check of R555 that a TRANSITION fails, as its result. -/
def State.transitionFails (s : State) (target : Nat) : Option Nat :=
  if s.regB .lcStatus 20 then some 3
  else if s.regB .tmpStatus 31 then some 4
  else
    match s.askedTransition target with
    | none => some 4
    | some (field, root) =>
      if (field.map (fun a => allZero (s.otpBytes a 8))).getD false then some 4
      else if root = 1 ∧ (s.rootField false).isNone ∨ root = 2 ∧ (s.rootField true).isNone then some 5
      else if s.tokenMatches field target then none else some 2

/-- A command of LC_CTRL ends: its result, BUSY clear, and the token words zeroized (R445). -/
def State.lcEnds (s : State) (result : Nat) : State :=
  let s := (s.setF .lcStatus 27 24 result).setB .lcStatus 31 false
  (numsFrom 0 8).foldl (fun s n => s.setReg .lcToken 0 n) s

/-- A refusal; TOKEN_WRONG counts a try (R447). -/
def State.lcRefused (s : State) (result : Nat) : State :=
  let s := if result = 2 then s.setF .lcStatus 23 21 (min 5 (s.regF .lcStatus 23 21 + 1)) else s
  (if s.regF .lcStatus 23 21 = 5 then s.setB .lcStatus 20 true else s).lcEnds result

/-! ### The commands (R440, R441, R446, R448, R451, R452) -/

/-- The keep secret and every index record are cleared, and every KEEP_BOUND slot becomes INVALID (R440). -/
def State.clearKeep (s : State) : State :=
  let s : State := { s with keep := { s.keep with secret := none, recs := List.replicate 64 {} } }
  ((s.keys.filter (fun e => e.2.keepBound && e.2.pair != 2)).map (·.1)).foldl State.invalidateSlot s

/-- The copies that do not hold the target are programmed, A before B before C (R446 step 3). -/
def State.programCopies (s : State) (target : Nat) : State :=
  match ([0, 1, 2].filter (fun i => s.otpWord i ≠ codeword target)).map (fun i => (i, codeword target)) with
  | [] => (s.lcEnds 0).enterLevel 1 5
  | ws => s.program .transition ws

/-- Steps 1 and 2 of R446; the zeroize ends before the copies are programmed. -/
def State.transition (s : State) (target : Nat) : State :=
  match s.transitionFails target with
  | some r => s.lcRefused r
  | none =>
    let s := s.setB .lcStatus 31 true
    if target = lcReturn ∨ target = lcDecom then
      match s.tamper.zeroize with
      | some z => { s with tamper := { s.tamper with zeroize := some { z with transition := true } } }
      | none => s.zeroizeBegin { transition := true }
    else s.programCopies target

/-- R448. -/
def State.repair (s : State) : State :=
  let lag := [0, 1, 2].filter (fun i => copyLags (codeword s.lc) (s.otpWord i))
  if 6 ≤ s.lc ∨ lag.isEmpty then s.lcRefused 4
  else (s.setB .lcStatus 31 true).program .repair (lag.map (fun i => (i, codeword s.lc)))

/-- R451, R555. -/
def State.debugUnlock (s : State) : State :=
  if s.regB .lcStatus 20 then s.lcRefused 3
  else if allZero (s.otpBytes 0x060 8) then s.lcRefused 4
  else if s.tokenMatches (some 0x060) 7 then (s.setB .lcStatus 19 true).lcEnds 0
  else s.lcRefused 2

/-- ROOT_CREATE for the device root (0) or the owner root (1) (R441). -/
def State.rootCreate (s : State) (index : Nat) : State :=
  let owner := index == 1
  let base := if owner then 2 else 0
  if 2 ≤ index then s.lcRefused 1
  else if s.lc ≠ (if owner then lcProvisioned else lcFactory) then s.lcRefused 4
  else if s.rngState ≠ rngReady then s.lcRefused 8
  else if (s.rootField owner).isSome then s.lcRefused 7
  else
    match [base, base + 1].find? (fun f => allZero (s.otpBytes (0x100 + 8 * f) 8)) with
    | none => s.lcRefused 9
    | some f =>
      let (s, b) := s.draw 8 0 32
      (s.setB .lcStatus 31 true).program .rootCreate (otpWords (0x100 + 8 * f) (fit 32 b) ++ [(0x120 + f, 0xFFFFFFFF)])

/-- The OTP words of a digest field by the index of PROG_DIGEST (R452). -/
def digestField (index : Nat) : Nat :=
  match index with
  | 0 => 0x010
  | 1 => 0x018
  | n => 0x040 + 8 * (n - 2)

/-- R452. -/
def State.progDigest (s : State) (index : Nat) : State :=
  if 7 ≤ index then s.lcRefused 1
  else if !(s.lc == lcFactory || (s.lc == lcProvisioned && [1, 3, 4, 5, 6].contains index)) then s.lcRefused 4
  else if !allZero (s.otpBytes (digestField index) 8) then s.lcRefused 7
  else (s.setB .lcStatus 31 true).program .progDigest (otpWords (digestField index) s.token)

/-- R451. -/
def State.attest (s : State) : State :=
  match (if s.pins.dbgEn then none else s.rootFor .attest) with
  | none => s.lcRefused 4
  | some root =>
    let key := kmac256 root s.deviceId 256 "P3 ATTEST"
    let resp := kmac256 key (s.token ++ toLe 1 s.lc ++ s.deviceId) 256 "P3 RETURN ATTEST"
    ((numsFrom 0 8).foldl (fun s n => s.setReg .lcAttestResp (BitVec.ofNat 32 (le32 resp (4 * n))) n) s).lcEnds 0

/-- A write to LC_CTRL, once its fields are set: GO runs CMD. -/
def State.lcCommand (s : State) : State :=
  let index := s.regF .lcCtrl 15 12
  match s.regF .lcCtrl 3 0 with
  | 1 => s.transition (s.regF .lcCtrl 10 8)
  | 2 => s.repair
  | 3 => s.debugUnlock
  | 4 => s.rootCreate index
  | 5 => s.progDigest index
  | 6 => s.attest
  | _ => s.lcRefused 1

/-! ### The security-version floor (R87) -/

/-- Bits set in a word. -/
def popCount (w : W32) : Nat := ((numsFrom 0 32).filter (fun b => bitOf w b)).length

def State.svFloor (s : State) : Nat := ((numsFrom 0x020 4).map (fun a => popCount (s.otpWord a))).sum

/-- The first `n` clear bits of a word, and how many of the `n` it could not give. -/
def clearBits (w : W32) (n : Nat) : W32 × Nat :=
  let bs := ((numsFrom 0 32).filter (fun b => !bitOf w b)).take n
  (bs.foldl (fun v b => setBit v b true) 0, n - bs.length)

/-- The programs that raise the floor by `n` bits. -/
def State.floorWords (s : State) : List Nat → Nat → List (Nat × W32)
  | [], _ => []
  | a :: as, n =>
    if n = 0 then []
    else
      let (w, rest) := clearBits (s.otpWord a) n
      if w = 0 then s.floorWords as rest else (a, w) :: s.floorWords as rest

/-- A write of 1 to MGT_SV_COMMIT (R87). -/
def State.svCommit (s : State) : State :=
  if s.regB .mgtSvCommit 0 then s
  else
    let ws := s.floorWords (numsFrom 0x020 4) (min (s.reg .mgtImageSv).toNat 128 - s.svFloor)
    if ws.isEmpty then s else (s.setB .mgtSvCommit 0 true).program .svFloor ws

/-! ### The words of the tamper monitors (R499, R500) -/

/-- The challenge words as written for PROG_DIGEST. -/
def State.challenge (s : State) : Bytes := (numsFrom 0 8).flatMap (fun n => toLe 4 (s.reg .tmpUnlockChal n).toNat)

def State.tmpOtpEnds (s : State) (result : Nat) : State := (s.setF .tmpOtpCtrl 30 28 result).setB .tmpOtpCtrl 31 false

/-- TMP_OTP_CTRL with GO, once its fields are set (R500). -/
def State.tmpOtp (s : State) : State :=
  let cmd := s.regF .tmpOtpCtrl 3 0
  let src := s.regF .tmpOtpCtrl 7 4
  let allowed := s.lc == lcFactory || s.lc == lcProvisioned
  let start (s : State) (f : OtpFor) (ws : List (Nat × W32)) : State := (s.setB .tmpOtpCtrl 31 true).program f ws
  if cmd = 0 ∨ 3 < cmd ∨ (cmd = 1 ∧ 1 < src) ∨ (cmd = 2 ∧ 10 < src) then s.tmpOtpEnds 4
  else if !allowed then s.tmpOtpEnds 1
  else if cmd = 1 then
    (if allZero (s.otpBytes (0x070 + 8 * src) 8) then start s .tamperDigest (otpWords (0x070 + 8 * src) s.challenge) else s.tmpOtpEnds 2)
  else if cmd = 2 then
    (if bitOf (s.otpWord 0x080) src then s.tmpOtpEnds 2 else start s .sourceDisable [(0x080, BitVec.ofNat 32 (2 ^ src))])
  else if s.otpWord 0x081 = 0 then start s .keepLost [(0x081, BitVec.ofNat 32 (2 ^ 31 + s.regF .tmpOtpCtrl 15 8))]
  else s.tmpOtpEnds 2

/-! ### OTP_ACK -/

/-- A command's programs have ended, all verified or one failed. -/
def State.otpEnds (s : State) (f : OtpFor) (ok : Bool) : State :=
  match f with
  | .transition => if ok then (s.lcEnds 0).enterLevel 1 5 else s.readCopies.lcEnds 6
  | .repair => s.readCopies.lcEnds (if ok then 0 else 6)
  | .rootCreate | .progDigest => s.lcEnds (if ok then 0 else 6)
  | .svFloor => s.setB .mgtSvCommit 0 false
  | .tamperDigest | .sourceDisable | .keepLost => s.tmpOtpEnds (if ok then 0 else 3)

/-- OTP_ACK: the program under way has ended, or its word has been read back (R57). -/
def State.otpAck (s : State) (rdata : W32) (err : Bool) : State :=
  match s.otpJobs with
  | [] => s
  | j :: rest =>
    match j.words with
    | [] => s.nextProgram
    | (a, w) :: ws =>
      if !j.reading then
        -- The bits stand once the program is acknowledged, a subset of them after otp_err (R55, R56).
        let old := s.otpWord a
        let add := if err then w &&& BitVec.ofNat 32 s.pick else w
        let s := if err then s.drawn else s
        { s with otp := setKey 0 s.otp a (old ||| add), otpJobs := { j with reading := true, failed := err, old := old } :: rest }
      else
        let ok := !j.failed && rdata == (j.old ||| w)
        let now := j.old ||| (w &&& rdata)
        let s : State := { s with otp := setKey 0 s.otp a now }
        let s := if a < 3 then s.setReg .lcCopy now a else s
        if !ok then (s.nextProgram.event srcOtpProg 0 a).otpEnds j.purpose false
        else if ws.isEmpty then s.nextProgram.otpEnds j.purpose true
        else ({ s with otpJobs := { j with words := ws, reading := false, failed := false } :: rest } : State).lifeAdd 1 1

/-- OTP_ACK (R57). -/
def execOtpAck (rdata : W32) (err : Bool) (s : State) : Host.Outcome State Fault Refusal := s.run (fun s => s.otpAck rdata err)

end Sys2Proof.Machine
end

