-- ==== Sys2Proof/Machine/Boot.lean ====
section
/-!
DEFINITION. Start-up from the release of a reset to its end phase: pending tamper responses, the path, the manifest's stream,
its verification, and the commit (R74 to R92, R103, R490, R501, R504, R513).
-/
namespace Sys2Proof.Machine

/-! ### Defaults and end phases -/

/-- Registers that the sections of a manifest set, but for the fault collector's (R92). -/
def sectionReg (r : RegId) : Bool :=
  [RegId.mgtPtnA, .mgtPtnB, .mgtPtnC, .mgtLocks, .mgtImageSv, .mgtImageDigest, .qosPtnCfg, .qosPtnLim, .qosRingCfg, .qosRsvA, .qosRsvB,
    .tmpSrcCfg, .tmpSrcParam, .pwrCfg, .pwrGov, .pwrIdle, .hbsCfg, .crvStatus].contains r

/-- The Lockkeepers held in reset: frames and fetches are gone. What has completed, or waits for its writes alone, still has its entry
written (R22, R23). -/
def State.lksReset (s : State) : State :=
  let kept := s.reqs.filter (fun r => r.completed || r.phase == .posted)
  { s with
    lks := s.lks.map Lk.inReset, reqs := kept, tows := s.tows.filter (fun t => kept.any (fun r => r.tow = some t.id)),
    reads := s.reads.map (fun x => match x.purpose with
      | .fetch _ => { x with discard := true }
      | _ => x) }

/-- Every section's settings at the defaults of R92, and the shadows zeroized; the collector keeps its configuration (R515). -/
def State.toDefaults (s : State) : State :=
  let s : State := { s with
    regs := s.regs.filter (fun e => match regAt e.1 with
      | some x => !sectionReg x.id
      | none => true)
    sched := {}, curves := {}, limits := [], tableGen := [], rng := { s.rng with waiting := none },
    plys := s.plys.map (fun p => { p with rcp := {}, waiting := none })
    boot := { s.boot with image := [], badShadow := false, streaming := false, job := none } }
  (s.setB .crvCtrl 31 false).copyTmpCfg.lksReset

/-- The actions of an alarm that waited for an end phase, highest rank first (R490, R504). THROTTLE, FENCE_ENGINES and IRQ wait
on until the phase is READY; a BLOCK_RESET is satisfied by the start-up. -/
def State.deferredActions (s : State) : State :=
  let l := s.tamper.deferred
  let of (b : Nat) : List Nat := (l.filter (fun e => e.2.testBit b)).map (·.1)
  let s := if (of 6).isEmpty then s else s.clearKeep
  let ready := s.phase == phReady
  let s := if ready then
      (let s := (of 3).foldl (fun s i => s.tmpForce i 3) s
       let s := (of 2).foldl (fun s i => s.tmpForce i 2) s
       if (of 1).isEmpty then s else s.tmpIrq)
    else s
  let s := (of 0).foldl State.tmpLog s
  let rest := if ready then [] else (l.map (fun e => (e.1, e.2 &&& 0x0E))).filter (fun e => e.2 ≠ 0)
  { s with tamper := { s.tamper with deferred := rest } }

/-- Start-up reaches an end phase (R74 step 6): MGT_STATUS.PHASE and MGT_BOOT_TIME, whose value is free; the timers that wait for
it start (R513). -/
def State.endStartup (s : State) (ph : Nat) : State :=
  let s := ((s.setF .mgtStatus 3 0 ph).setReg .mgtBootTime (BitVec.ofNat 32 s.pick)).drawn
  let s := if s.flt.t1Waits ∧ !s.regB .fltEsc 29 ∧ s.regF .fltT1 16 0 ≠ 0 then s.setB .fltEsc 31 true else s
  let s := if s.flt.t2Waits ∧ s.regF .fltT2 9 0 ≠ 0 then s.setB .fltEsc 30 true else s
  let s : State := { s with flt := { s.flt with t1Waits := false, t2Waits := false, deadline := false } }
  (if ph = phReady then s.resumeCompact else s).deferredActions

/-! ### Steps 1 and 2 -/

/-- Registers of the keep domain. -/
def keepReg (r : RegId) : Bool := r == .fltEsc || (keptMask r true != 0 && r != .pwrMap)

/-- KEEP_LOST (R501, R539): the keep domain is initialised, and the alarm is raised as one recorded on the cell. -/
def State.keepLost (s : State) : State :=
  let set := s.decodeLc.keepLostSet
  let s : State := { s with
    regs := s.regs.filter (fun e => match regAt e.1 with
      | some x => !keepReg x.id
      | none => true)
    keep := { logLost := true }, life := { record := some s.deviceId }, tamper := { s.tamper with srcs := List.replicate 12 {}, pending := 0, disagree := [], deferred := [] } }
  let s := (s.setB .lifStatus 31 true).recordAlarm 11 set
  let s := if set.testBit 6 then s.clearKeep else s
  let s := if set.testBit 0 then s.tmpLog 11 else s
  { s.setB .tmpSrcStatus 1 (set &&& 0xBE != 0) 11 with tamper := { s.tamper with pending := set &&& 0xBE } }

/-- The source is disabled in OTP (R485). -/
def State.tmpDisabled (s : State) (src : Nat) : Bool := decide (src ≤ 10) && bitOf (s.otpWord 0x080) src

/-- Sources with a second detector (R482). -/
def twoDetectors (src : Nat) : Bool := decide (src ≤ 8) || src == 10

/-- A detector is marked failed: its source works on the other (R483). -/
def State.detFailed (s : State) (src det : Nat) : Bool := s.regB .tmpSrcStatus (4 + det) src

/-- The built-in self-tests of the detectors. DESIGN CHOICE: they run at step 1 of start-up; log entry 114. -/
def State.selfTests (s : State) : State :=
  (s.tamper.broken.filter (fun e => twoDetectors e.1 && decide (e.2 < 2) && !s.tmpDisabled e.1)).foldl (fun s e =>
    (s.setB .tmpSrcStatus (4 + e.2) true e.1).event srcTmpDisagree 3 e.1) s

/-- Step 1 of R74: the pending mask of the keep domain is applied and cleared (R501, R503, R504). -/
def State.startStep1 (s : State) : State :=
  let s := if s.life.record = some s.deviceId then s else s.keepLost
  let s := (s.tamper.disagree.foldl (fun s src => s.event srcTmpDisagree 3 src) s).selfTests
  let mask := s.tamper.pending
  let srcs := (numsFrom 0 12).filter (fun i => s.regB .tmpSrcStatus 1 i)
  let s := if mask.testBit 7 then s.setB .tmpStatus 31 true else s
  let late := (srcs.map (fun i => (i, mask &&& s.regF .tmpSrcStatus 15 8 i &&& (0x06 ||| fenceLeft mask)))).filter (fun e => e.2 ≠ 0)
  let s := srcs.foldl (fun s i => s.setB .tmpSrcStatus 1 false i) s
  { s with tamper := { s.tamper with pending := 0, disagree := [], deferred := s.tamper.deferred ++ late } }

/-- Step 3 begins: the manifest streams into the shadows, and their domains wake (R78; worked example of the cold start). -/
def State.startLoad (s : State) : State :=
  let s : State := { s.setF .mgtStatus 3 0 phLoad with boot := { s.boot with streaming := true, image := [], badShadow := false, abandoned := false } }
  s.wakeAll (numsFrom 4 8 ++ [51, 59])

/-- The release of a reset (R74): step 5 starts on its own; then steps 1 and 2, and the path of R77. -/
def State.startUp (s : State) : State :=
  let s : State := { s with boot := { started := true } }
  let s := (s.startStep1.setF .mgtStatus 3 0 phLcDecode).decodeLc
  let s := if s.lc = lcDecom then s else s.wakeAll (numsFrom 35 4)
  if s.regB .tmpStatus 31 ∨ s.lc = lcLocked ∨ s.lc = lcDecom then s.endStartup phLimited else s.startLoad

/-- Release of pm_rst_cold_n, or of the power-on reset. -/
def State.coldRelease (s : State) : State :=
  if s.pins.coldLow ∨ (!s.boot.started ∧ !s.pins.warmLow) then
    let s : State := { s with pins := { s.pins with coldLow := false } }
    if s.pins.warmLow then s else s.startUp
  else s

def State.warmRelease (s : State) : State :=
  if s.pins.warmLow then
    let s : State := { s with pins := { s.pins with warmLow := false } }
    if s.pins.coldLow then s else s.startUp
  else s

/-! ### The image (R80 to R82) -/

def imgLen (b : Bytes) : Nat := le32 b 0x0C
def imgSecVer (b : Bytes) : Nat := le32 b 0x10
def imgCount (b : Bytes) : Nat := le16 b 0x16
def imgSecTab (b : Bytes) : Nat := le32 b 0x20
def imgKeyBlk (b : Bytes) : Nat := le32 b 0x24
def imgSig (b : Bytes) : Nat := le32 b 0x28
def imgSigLen (b : Bytes) : Nat := le32 b 0x2C

/-- Section i of an image. -/
def imageSection (b : Bytes) (i : Nat) : Section :=
  let e := slice b (imgSecTab b + 16 * i) 16
  { index := i, kind := le16 e 0, flags := le16 e 2, offset := le32 e 4, length := le32 e 8, target := le16 e 0xC, version := le16 e 0xE,
    data := slice b (le32 e 4) (le32 e 8) }

def imageSections (b : Bytes) : List Section := (numsFrom 0 (imgCount b)).map (imageSection b)

/-- A TYPE that R82 defines. -/
def Section.known (x : Section) : Bool := decide (1 ≤ x.kind ∧ x.kind ≤ 12)

/-- The image digest D (R79). -/
def imageDigest (b : Bytes) : Bytes := hashFn 0x14 0 (b.take (imgSig b))

def mldsaKey (b : Bytes) : Bytes := slice b (imgKeyBlk b) 2592
def lmsKey (b : Bytes) : Bytes := slice b (imgKeyBlk b + 2592) 56
def mldsaSig (b : Bytes) : Bytes := slice b (imgSig b + 16) 4627
def lmsSig (b : Bytes) : Bytes := slice b (imgSig b + 4648) (le32 b (imgSig b + 4))

/-- A key digest (R85): type 1 ML-DSA-87, 2 LMS. -/
def keyDigest (kind : Nat) (pk : Bytes) : Bytes := sha3 (ascii "OVRALIN P3 MFKEY" ++ toLe 1 kind ++ pk)

/-- Cause codes of MGT_CAUSE. -/
def causeNone : Nat := 0x00
def causeBadFormat : Nat := 0x02
def causeLength : Nat := 0x03
def causeSectionUnknown : Nat := 0x0C
def causeSectionInvalid : Nat := 0x0D
def causeMissingSection : Nat := 0x0E
def causeMfsTimeout : Nat := 0x0F
def causeMemory : Nat := 0x10
def causeTamper : Nat := 0x12

/-- The first of a list of checks that fails, by its code. -/
def firstFail (l : List (Bool × Nat)) : Option Nat := (l.find? (fun e => !e.1)).map (·.2)

/-- The checks of R80, R81 and R96 on the header and the regions, of R86 on state, device and version, and of R84 to R86 on the
keys and signatures; in that order. DESIGN CHOICE: the cause codes of a wrong HDR_LEN, of nonzero reserved bytes in the signature block
of a wrong length of the ML-DSA signature, and of a MGT_STAGE_LEN other than IMAGE_LEN; log entry 32. -/
def State.headerFails (s : State) (b : Bytes) (staged : Bool) : Option Nat :=
  let top := if staged then 131072 else 524288
  let sig := imgSig b
  let d := imageDigest b
  let dm := s.otpBytes 0x010 8
  let dl := s.otpBytes 0x018 8
  let strict := decide (lcProvisioned ≤ s.lc)
  let lms := !(s.lc == lcProvisioned && allZero dl)
  firstFail [
    (slice b 0 8 == ascii "P3MANFST", 0x01),
    (decide (le16 b 8 = 1 ∧ le16 b 0xA = 0x100 ∧ byteAt b 0x14 = b2n staged ∧ byteAt b 0x15 < 32 ∧ 1 ≤ imgCount b ∧ imgCount b ≤ 64) &&
      allZero (slice b 0x38 0xC8), causeBadFormat),
    (decide (imgLen b % 8 = 0 ∧ 256 ≤ imgLen b ∧ imgLen b ≤ top ∧ b.length = imgLen b), causeLength),
    (decide (256 ≤ imgSecTab b ∧ imgSecTab b + 16 * imgCount b ≤ sig ∧ 256 ≤ imgKeyBlk b ∧ imgKeyBlk b + 2648 ≤ sig ∧
      sig + imgSigLen b ≤ imgLen b ∧ imgLen b < sig + imgSigLen b + 8 ∧ 16 ≤ imgSigLen b), causeLength),
    (allZero (slice b (sig + 8) 8), causeBadFormat),
    (decide (le32 b sig = 4627 ∧ imgSigLen b = 4648 + le32 b (sig + 4)), causeLength),
    ((byteAt b 0x15).testBit s.lc, 0x0B),
    (le64 b 0x18 == 0 || slice b 0x18 8 == s.deviceId, 0x0A),
    (decide (s.svFloor ≤ imgSecVer b ∧ (!staged ∨ (s.reg .mgtImageSv).toNat ≤ imgSecVer b)), 0x09),
    (!(strict && allZero dm) && !(decide (lcDeployed ≤ s.lc) && allZero dl), 0x04),
    (allZero dm || keyDigest 1 (mldsaKey b) == dm, 0x05),
    (!lms || allZero dl || keyDigest 2 (lmsKey b) == dl, 0x06),
    (Config.holds .mldsaRecord [ascii "OVRALIN-PARTAR3-MANIFEST", mldsaKey b, d, mldsaSig b], 0x07),
    (!lms || lmsTypesOk (lmsKey b), 0x11),
    (!lms || Config.holds .lmsRecord [lmsKey b, ascii "P3MF-LMS" ++ d, lmsSig b], 0x08)]

/-- What R177 asks of a QOS section at start-up, once the other sections are committed. -/
def State.startQosOk (s : State) (xs : List Section) (x : Section) : Bool :=
  let t := (xs.filter (fun y => y.kind ≠ 5)).foldl State.commitSection s
  decide (t.qosFails (qosOf x.data) = 0) &&
  (xs.filter (fun y => y.kind = 4)).all (fun y => isolatedAgree y.data (qosOf x.data))

/-- The cause of R82 and R83 with which a section rejects its image; none when it stands or is skipped. -/
def State.sectionFails (s : State) (b : Bytes) (staged : Bool) (xs : List Section) (x : Section) : Option Nat :=
  firstFail [
    (decide (x.flags < 2), causeBadFormat),
    (decide (x.offset % 8 = 0 ∧ x.offset + x.length ≤ imgSig b), causeLength),
    (x.known || x.flags == 0, causeSectionUnknown),
    (!x.known || sectionOk s x, causeSectionInvalid),
    (x.kind != 5 || staged || s.startQosOk xs x, causeSectionInvalid)]

/-- Why an image is rejected, with the offending section; none when it stands (R79 to R87, R96). -/
def State.imageFails (s : State) (b : Bytes) (staged : Bool) : Option (Nat × Option Nat) :=
  match s.headerFails b staged with
  | some c => some (c, none)
  | none =>
    let xs := imageSections b
    match xs.findSome? (fun x => (s.sectionFails b staged xs x).map (fun c => (c, x.index))) with
    | some (c, i) => some (c, some i)
    | none =>
      let all := (xs.filter (fun x => x.kind = 1)).foldl (fun m x => m ||| x.target) 0
      if !staged && (all % 256 != 255 || !xs.any (fun x => x.kind == 4)) then some (causeMissingSection, none) else none

/-! ### Steps 3, 4 and 6 -/

/-- The image is rejected (R88): the shadows are zeroized, the cause is recorded, and MANIFEST_REJECTED is raised. -/
def State.reject (s : State) (cause : Nat) (sec : Option Nat) : State :=
  let s : State := { s with boot := { s.boot with streaming := false, image := [], badShadow := false, abandoned := false } }
  let s := (s.lksReset.setReg .mgtCause (BitVec.ofNat 32 (sec.getD 0xFFFF * 2 ^ 16 + cause))).endStartup phRejected
  s.event srcManifestRejected 0 0

/-- Bytes that the loader reads: IMAGE_LEN of the header once that is there, taken into the limits of R80. -/
def loadLen (b : Bytes) : Nat := clampN 256 524288 (ceilDiv (imgLen b) 8 * 8)

/-- MFS_WORD while the manifest streams (R78). -/
def State.mfsWord (s : State) (w : W64) : State :=
  if !s.boot.streaming then s
  else
    let b := s.boot.image ++ toLe 8 w.toNat
    let s : State := { s with boot := { s.boot with image := b } }
    if 256 ≤ b.length ∧ loadLen b ≤ b.length then
      { s.setF .mgtStatus 3 0 phVerify with boot := { s.boot with streaming := false } }
    else s

def State.mfsTimeout (s : State) : State := if s.boot.streaming then s.reject causeMfsTimeout none else s

/-- A Lockkeeper released from reset at the commit (R90); one whose domain is not on yet follows when it is. -/
def State.lkRelease (s : State) (n : Nat) : State :=
  if (s.lk n).state = .halted then s
  else if s.domOn (lkDomain n) then s.lkRestart n
  else (s.updLk n (fun l => { l with onWake := some none })).wake (lkDomain n)

/-- The unit of a domain of the request path has left service. -/
def State.pathOut (s : State) (d : Nat) : Bool := s.domOut d || (decide (12 ≤ d ∧ d < 16) && s.outMarks.contains (6, d - 12)) ||
  (d == 16 && s.cuOut)

/-- Start-up ends with READY once the Lockkeepers, DMA, completion and Basin domains are on (R90). -/
def State.bootReady (s : State) : State :=
  if s.phase = phApply ∧ (numsFrom 4 21).all (fun d => s.domOn d || s.pathOut d) then s.endStartup phReady else s

/-- Step 4 of R74: every shadow takes effect at once (R90, R92). -/
def State.commitImage (s : State) (b : Bytes) : State :=
  let xs := imageSections b
  let d := imageDigest b
  let s := (xs.filter Section.known).foldl (fun s x => (s.noteVersion x).commitSection x) s
  let s := (s.setReg .mgtImageSv (BitVec.ofNat 32 (imgSecVer b))).setReg .mgtCause 0xFFFF0000
  let s := (numsFrom 0 16).foldl (fun s n => s.setReg .mgtImageDigest (BitVec.ofNat 32 (le32 d (4 * n))) n) s
  let s := (s.setF .mgtStatus 31 24 (xs.filter (fun x => !x.known)).length).setF .mgtStatus 23 16 xs.length
  let s := (s.setB .mgtStatus 12 false).setF .mgtStatus 3 0 phApply
  let s : State := { s with boot := { s.boot with image := [], badShadow := false, buildTime := le64 b 0x30 } }
  (((numsFrom 0 8).foldl State.lkRelease s).wakeAll ((numsFrom 12 13).filter (fun d => !s.pathOut d))).bootReady

/-- MANIFEST_VERIFY_DONE (R79): both verifications have ended. -/
def State.verifyDone (s : State) : State :=
  if s.phase ≠ phVerify then s
  else
    match (if s.boot.badShadow then some (causeMemory, none) else s.imageFails s.boot.image false) with
    | some (c, i) => s.reject c i
    | none => s.commitImage s.boot.image

/-- A write of 1 to MGT_RELOAD (R89). -/
def State.reload (s : State) : State := if s.phase = phRejected then s.startLoad else s

/-! ### A tamper action during the load (R103) -/

/-- The load is abandoned and the shadows zeroized. -/
def State.abandonLoad (s : State) : State :=
  if phLoad ≤ s.phase ∧ s.phase ≤ phApply then
    { s.toDefaults.setF .mgtStatus 3 0 phTamper with boot := { s.boot with image := [], badShadow := false, streaming := false, abandoned := true } }
  else s

/-- After the action, start-up resumes at step 3, once only. DESIGN CHOICE: MGT_RELOAD does not renew the allowance; log entry 90. -/
def State.resumeLoad (s : State) : State :=
  if !s.boot.abandoned then s
  else if s.boot.resumed then s.reject causeTamper none
  else ({ s with boot := { s.boot with resumed := true } } : State).startLoad

/-! ### The commands -/

/-- COLD_RESET_RELEASE (R74). -/
def execColdResetRelease (s : State) : Host.Outcome State Fault Refusal := s.run State.coldRelease
/-- WARM_RESET_RELEASE (R71). -/
def execWarmResetRelease (s : State) : Host.Outcome State Fault Refusal := s.run State.warmRelease
/-- COLD_RESET_ASSERT (R71). -/
def execColdResetAssert (s : State) : Host.Outcome State Fault Refusal := s.run State.coldAssert
/-- WARM_RESET_ASSERT (R71). -/
def execWarmResetAssert (s : State) : Host.Outcome State Fault Refusal := s.run State.warmAssert
/-- MFS_WORD (R58). -/
def execMfsWord (w : W64) (s : State) : Host.Outcome State Fault Refusal := s.run (fun s => s.mfsWord w)
/-- MFS_TIMEOUT (R79). -/
def execMfsTimeout (s : State) : Host.Outcome State Fault Refusal := s.run State.mfsTimeout
/-- MANIFEST_VERIFY_DONE (R79). -/
def execManifestVerifyDone (s : State) : Host.Outcome State Fault Refusal := s.run State.verifyDone

end Sys2Proof.Machine
end

