-- ==== Sys2Proof/Machine/Apply.lean ====
section
/-!
DEFINITION. Staged images and the apply of their sections (R95 to R103, R177, R178, R214, R216, R457, R458).
-/
namespace Sys2Proof.Machine

/-! ### Staging (R95 to R97) -/

/-- Discards the staged image (R97). -/
def State.stageDiscard (s : State) : State := s.dropStage.setReg .mgtStageStatus 0

/-- A write of 1 to MGT_STAGE.GO (R95). -/
def State.stageGo (s : State) : State :=
  let s := s.stageDiscard
  let len := s.regF .mgtStageLen 17 0
  if len = 0 ∨ 131072 < len then s.stageFail causeLength else s.setF .mgtStageStatus 3 0 1

/-- STAGE_VERIFY_DONE (R96): the hash core and the polynomial engine have ended their work. -/
def State.stageVerified (s : State) : State :=
  if s.regF .mgtStageStatus 3 0 ≠ 2 ∨ s.boot.stageUnits.length ≠ 2 then s
  else
    let b := s.boot.stage
    let s := ({ s with boot := { s.boot with stageUnits := [] } } : State).stageRead
    if s.regF .mgtStageStatus 3 0 ≠ 2 then s
    else match s.imageFails b true with
    | some (c, _) => s.stageFail c
    | none => (s.setF .mgtStageStatus 3 0 3).setF .mgtStageStatus 23 16 (imgCount b)

/-! ### A partition-table entry of an apply (R99, R178, R457, R458) -/

/-- Enabled partitions outside a list that have an ASID. -/
def State.asidTaken (s : State) (a : Nat) (but : List Nat) : Bool :=
  (numsFrom 0 64).any (fun p => !but.contains p && s.enabled p && s.asid p == a)

/-- An entry may replace the running one: ISOLATED agrees with the running membership; a change of ASID or of a count, and
clearing ENABLED, need the partition quiet; no other enabled partition has its ASID. -/
def State.entryAdmits (s : State) (e : PtnEntry) (named : List Nat) : Bool :=
  let p := e.ptn
  let same := s.asid p == e.asid && s.sqMax p == e.sqMax && s.cqMax p == e.cqMax && s.vecMax p == e.vecMax
  e.isolated == s.isolated p && (same || s.ptnQuiet p) && (e.enabled || !s.enabled p || s.ptnQuiet p) &&
  !(e.enabled && s.asidTaken e.asid named)

/-- An entry put into the running table. A partition that it disables has no rings and no vectors from then on, and one that it enables
has fresh rings (R454, R458). -/
def State.applyEntry (s : State) (e : PtnEntry) : State :=
  let changes := e.enabled != s.enabled e.ptn
  let s := s.setPtnEntry e
  if changes then { s.freshRings e.ptn with irqs := s.irqs.filter (fun m => m.ptn ≠ e.ptn) } else s

/-- The entries of a PARTITION_TABLE apply, one by one, up to one whose partition is being reset (R103); a refused entry leaves
its partition as it is. -/
def State.applyEntries : Nat → State → State
  | 0, s => s
  | n + 1, s =>
    match s.boot.job with
    | none => s
    | some j =>
      if j.kind ≠ 4 then s
      else
        let es := ptnEntries j.data
        match j.left with
        | [] => if j.missed then s.applyEnds 5 3 else s.applyEnds 0 2
        | k :: _ =>
          match es[k]? with
          | none => State.applyEntries n (s.applyPass j false)
          | some e =>
            if s.resets.any (fun r => r.ptn = e.ptn) then s
            else if s.entryAdmits e (es.map (·.ptn)) then State.applyEntries n ((s.applyEntry e).applyPass j false)
            else State.applyEntries n (s.applyPass j true)

/-! ### A Lockkeeper of an apply (R99, R214, R216) -/

/-- LK_LOAD (R214): the Lockkeeper loads and restarts, and the apply goes on with the next. -/
def State.lkLoadCmd (s : State) (n : Nat) : State :=
  match s.boot.job with
  | none => s
  | some j =>
    if 2 < j.kind ∨ j.left.head? ≠ some n then s
    else
      let t := s.lkLoad n
      if (t.lk n).after = .nothing then (t.applyPass j false).applyLk else s

/-! ### Applying (R98, R99) -/

/-- A section whose units or entries are taken one by one. -/
def State.applyJob (s : State) (x : Section) (left : List Nat) : State :=
  { s.setF .mgtApplyStatus 1 0 1 with boot := { s.boot with job := some { kind := x.kind, data := x.data, left := left } } }

/-- A section of the staged image is applied; `xs` are its sections. DESIGN CHOICE: a section of a reserved TYPE ends as DONE with OK,
log entry 89; RNG_PARAMS is DONE once it waits for the next reseed, log entry 118. -/
def State.applySection (s0 : State) (xs : List Section) (x : Section) : State :=
  let s := if x.known then s0.noteVersion x else s0
  match x.kind with
  | 1 | 2 => (s.applyJob x (x.targets 8)).applyLk
  | 3 => State.applyRecipes 64 (s.applyJob x (x.targets 16))
  | 4 => let n := (ptnEntries x.data).length
         State.applyEntries (n + 1) (s.applyJob x (numsFrom 0 n))
  | 5 =>
    let q := qosOf x.data
    if s.qosFails q ≠ 0 then (s0.qosCapture q).applyEnds 4 3
    else if (xs.filter (fun y => y.kind = 4)).all (fun y => isolatedAgree y.data q) then
      (let t := s.qosCapture q
       { t.setF .mgtApplyStatus 1 0 1 with sched := { t.sched with applyWaits := true } })
    else ((s0.setF .qosStatus 11 8 9).setB .qosStatus 0 true).applyEnds 4 3
  | 8 => (s.setCurves x.data).applyJob x []
  | 9 => ((s.setPower x.data).applyCap.capLowered).applyEnds 0 2
  | 12 => (s.setReg .mgtLocks (s.reg .mgtLocks ||| BitVec.ofNat 32 (le64 x.data 8))).applyEnds 0 2
  | _ => (if x.known then s.commitSection x else s).applyEnds 0 2

/-- A write to MGT_APPLY with GO (R98). -/
def State.applyGo (s : State) (index : Nat) : State :=
  if s.regF .mgtApplyStatus 1 0 = 1 then s.setF .mgtApplyStatus 23 16 1
  else
    let s := ((s.setF .mgtApplyStatus 13 8 index).setF .mgtApplyStatus 23 16 0).stageRead
    let xs := imageSections s.boot.stage
    if s.regF .mgtStageStatus 3 0 ≠ 3 then s.applyEnds 2 3
    else
      match xs[index]? with
      | none => s.applyEnds 3 3
      | some x => s.applySection xs x

/-! ### The commands -/

/-- STAGE_VERIFY_DONE (R96). -/
def execStageVerifyDone (s : State) : Host.Outcome State Fault Refusal := s.run State.stageVerified
/-- LK_LOAD (R214). -/
def execLkLoad (lk : Fin 8) (s : State) : Host.Outcome State Fault Refusal := s.run (fun s => s.lkLoadCmd lk)

end Sys2Proof.Machine
end

