-- ==== Sys2Proof/Machine/CmdLk.lean ====
section
/-!
DEFINITION. The Lockkeeper instructions as commands (R195 to R207): each names the Lockkeeper whose running context
executes it. A command whose instruction is not the one that the running context fetches does nothing.
-/
namespace Sys2Proof.Machine

/-- LD A: loads A; Z and N of the value (R197). -/
def execLdA (lk : Fin 8) (op : LkOperand) (s : State) : Host.Outcome State Fault Refusal :=
  s.run (fun s => s.runLk lk.val (.ldA op))

/-- ST A: stores A, or its low half (R197). -/
def execStA (lk : Fin 8) (op : LkOperand) (s : State) : Host.Outcome State Fault Refusal :=
  s.run (fun s => s.runLk lk.val (.stA op))

/-- ADD A (R197, R198). -/
def execAddA (lk : Fin 8) (op : LkOperand) (s : State) : Host.Outcome State Fault Refusal :=
  s.run (fun s => s.runLk lk.val (.addA op))

/-- ADC A: with carry (R197, R198). -/
def execAdcA (lk : Fin 8) (op : LkOperand) (s : State) : Host.Outcome State Fault Refusal :=
  s.run (fun s => s.runLk lk.val (.adcA op))

/-- SUB A (R197, R198). -/
def execSubA (lk : Fin 8) (op : LkOperand) (s : State) : Host.Outcome State Fault Refusal :=
  s.run (fun s => s.runLk lk.val (.subA op))

/-- SBC A: with borrow (R197, R198). -/
def execSbcA (lk : Fin 8) (op : LkOperand) (s : State) : Host.Outcome State Fault Refusal :=
  s.run (fun s => s.runLk lk.val (.sbcA op))

/-- AND A; C and V cleared (R197). -/
def execAndA (lk : Fin 8) (op : LkOperand) (s : State) : Host.Outcome State Fault Refusal :=
  s.run (fun s => s.runLk lk.val (.andA op))

/-- OR A (R197). -/
def execOrA (lk : Fin 8) (op : LkOperand) (s : State) : Host.Outcome State Fault Refusal :=
  s.run (fun s => s.runLk lk.val (.orA op))

/-- XOR A (R197). -/
def execXorA (lk : Fin 8) (op : LkOperand) (s : State) : Host.Outcome State Fault Refusal :=
  s.run (fun s => s.runLk lk.val (.xorA op))

/-- CMP A: the flags of A − v; A stays (R197, R198). -/
def execCmpA (lk : Fin 8) (op : LkOperand) (s : State) : Host.Outcome State Fault Refusal :=
  s.run (fun s => s.runLk lk.val (.cmpA op))

/-- LD X, a 16-bit operand (R196, R197). -/
def execLdX (lk : Fin 8) (op : LkOperand16) (s : State) : Host.Outcome State Fault Refusal :=
  s.run (fun s => s.runLk lk.val (.ldX op))

/-- LD Y, a 16-bit operand (R196, R197). -/
def execLdY (lk : Fin 8) (op : LkOperand16) (s : State) : Host.Outcome State Fault Refusal :=
  s.run (fun s => s.runLk lk.val (.ldY op))

/-- ST X, a 16-bit operand (R196, R197). -/
def execStX (lk : Fin 8) (op : LkOperand16) (s : State) : Host.Outcome State Fault Refusal :=
  s.run (fun s => s.runLk lk.val (.stX op))

/-- ST Y, a 16-bit operand (R196, R197). -/
def execStY (lk : Fin 8) (op : LkOperand16) (s : State) : Host.Outcome State Fault Refusal :=
  s.run (fun s => s.runLk lk.val (.stY op))

/-- NOP (R197). -/
def execLkNop (lk : Fin 8) (s : State) : Host.Outcome State Fault Refusal :=
  s.run (fun s => s.runLk lk.val (.nop))

/-- END: the context ends (R204). -/
def execLkEnd (lk : Fin 8) (s : State) : Host.Outcome State Fault Refusal :=
  s.run (fun s => s.runLk lk.val (.endCtx))

/-- YIELD: the next READY context runs (R183). -/
def execYield (lk : Fin 8) (s : State) : Host.Outcome State Fault Refusal :=
  s.run (fun s => s.runLk lk.val (.yield))

/-- RTS: return from a call (R201). -/
def execRts (lk : Fin 8) (s : State) : Host.Outcome State Fault Refusal :=
  s.run (fun s => s.runLk lk.val (.rts))

/-- RTE: return from the emulation handler (R207). -/
def execRte (lk : Fin 8) (s : State) : Host.Outcome State Fault Refusal :=
  s.run (fun s => s.runLk lk.val (.rte))

/-- CLR C (R197). -/
def execClrC (lk : Fin 8) (s : State) : Host.Outcome State Fault Refusal :=
  s.run (fun s => s.runLk lk.val (.clrC))

/-- SET C (R197). -/
def execSetC (lk : Fin 8) (s : State) : Host.Outcome State Fault Refusal :=
  s.run (fun s => s.runLk lk.val (.setC))

/-- CLR V (R197). -/
def execClrV (lk : Fin 8) (s : State) : Host.Outcome State Fault Refusal :=
  s.run (fun s => s.runLk lk.val (.clrV))

/-- MOV X, A: X is the low half of A (R197). -/
def execMovXA (lk : Fin 8) (s : State) : Host.Outcome State Fault Refusal :=
  s.run (fun s => s.runLk lk.val (.movXA))

/-- MOV A, X: zero-extended (R197). -/
def execMovAX (lk : Fin 8) (s : State) : Host.Outcome State Fault Refusal :=
  s.run (fun s => s.runLk lk.val (.movAX))

/-- MOV Y, A: Y is the low half of A (R197). -/
def execMovYA (lk : Fin 8) (s : State) : Host.Outcome State Fault Refusal :=
  s.run (fun s => s.runLk lk.val (.movYA))

/-- MOV A, Y: zero-extended (R197). -/
def execMovAY (lk : Fin 8) (s : State) : Host.Outcome State Fault Refusal :=
  s.run (fun s => s.runLk lk.val (.movAY))

/-- MOV Y, X (R197). -/
def execMovYX (lk : Fin 8) (s : State) : Host.Outcome State Fault Refusal :=
  s.run (fun s => s.runLk lk.val (.movYX))

/-- MOV X, Y (R197). -/
def execMovXY (lk : Fin 8) (s : State) : Host.Outcome State Fault Refusal :=
  s.run (fun s => s.runLk lk.val (.movXY))

/-- INC X (R197). -/
def execIncX (lk : Fin 8) (s : State) : Host.Outcome State Fault Refusal :=
  s.run (fun s => s.runLk lk.val (.incX))

/-- DEC X (R197). -/
def execDecX (lk : Fin 8) (s : State) : Host.Outcome State Fault Refusal :=
  s.run (fun s => s.runLk lk.val (.decX))

/-- INC Y (R197). -/
def execIncY (lk : Fin 8) (s : State) : Host.Outcome State Fault Refusal :=
  s.run (fun s => s.runLk lk.val (.incY))

/-- DEC Y (R197). -/
def execDecY (lk : Fin 8) (s : State) : Host.Outcome State Fault Refusal :=
  s.run (fun s => s.runLk lk.val (.decY))

/-- CMP X with an 8-bit immediate (R197, R198). -/
def execCmpX (lk : Fin 8) (i : Byte) (s : State) : Host.Outcome State Fault Refusal :=
  s.run (fun s => s.runLk lk.val (.cmpX i))

/-- CMP Y with an 8-bit immediate (R197, R198). -/
def execCmpY (lk : Fin 8) (i : Byte) (s : State) : Host.Outcome State Fault Refusal :=
  s.run (fun s => s.runLk lk.val (.cmpY i))

/-- ADD X, a signed 8-bit immediate (R197, R198). -/
def execAddX (lk : Fin 8) (i : Byte) (s : State) : Host.Outcome State Fault Refusal :=
  s.run (fun s => s.runLk lk.val (.addX i))

/-- ADD Y, a signed 8-bit immediate (R197, R198). -/
def execAddY (lk : Fin 8) (i : Byte) (s : State) : Host.Outcome State Fault Refusal :=
  s.run (fun s => s.runLk lk.val (.addY i))

/-- TRAP #n: to the emulation vector (R205, R206). -/
def execTrap (lk : Fin 8) (n : Byte) (s : State) : Host.Outcome State Fault Refusal :=
  s.run (fun s => s.runLk lk.val (.trap n))

/-- SHL of A (R197, R198). -/
def execShl (lk : Fin 8) (c : LkCount) (s : State) : Host.Outcome State Fault Refusal :=
  s.run (fun s => s.runLk lk.val (.shl c))

/-- SHR of A (R197, R198). -/
def execShr (lk : Fin 8) (c : LkCount) (s : State) : Host.Outcome State Fault Refusal :=
  s.run (fun s => s.runLk lk.val (.shr c))

/-- ASR of A (R197, R198). -/
def execAsr (lk : Fin 8) (c : LkCount) (s : State) : Host.Outcome State Fault Refusal :=
  s.run (fun s => s.runLk lk.val (.asr c))

/-- ROL of A (R197, R198). -/
def execRol (lk : Fin 8) (c : LkCount) (s : State) : Host.Outcome State Fault Refusal :=
  s.run (fun s => s.runLk lk.val (.rol c))

/-- ROR of A (R197, R198). -/
def execRor (lk : Fin 8) (c : LkCount) (s : State) : Host.Outcome State Fault Refusal :=
  s.run (fun s => s.runLk lk.val (.ror c))

/-- BEQ: a branch taken with Z set (R200). -/
def execBeq (lk : Fin 8) (o : Byte) (s : State) : Host.Outcome State Fault Refusal :=
  s.run (fun s => s.runLk lk.val (.beq o))

/-- BNE: a branch taken with Z clear (R200). -/
def execBne (lk : Fin 8) (o : Byte) (s : State) : Host.Outcome State Fault Refusal :=
  s.run (fun s => s.runLk lk.val (.bne o))

/-- BCS: a branch taken with C set (R200). -/
def execBcs (lk : Fin 8) (o : Byte) (s : State) : Host.Outcome State Fault Refusal :=
  s.run (fun s => s.runLk lk.val (.bcs o))

/-- BCC: a branch taken with C clear (R200). -/
def execBcc (lk : Fin 8) (o : Byte) (s : State) : Host.Outcome State Fault Refusal :=
  s.run (fun s => s.runLk lk.val (.bcc o))

/-- BMI: a branch taken with N set (R200). -/
def execBmi (lk : Fin 8) (o : Byte) (s : State) : Host.Outcome State Fault Refusal :=
  s.run (fun s => s.runLk lk.val (.bmi o))

/-- BPL: a branch taken with N clear (R200). -/
def execBpl (lk : Fin 8) (o : Byte) (s : State) : Host.Outcome State Fault Refusal :=
  s.run (fun s => s.runLk lk.val (.bpl o))

/-- BVS: a branch taken with V set (R200). -/
def execBvs (lk : Fin 8) (o : Byte) (s : State) : Host.Outcome State Fault Refusal :=
  s.run (fun s => s.runLk lk.val (.bvs o))

/-- BVC: a branch taken with V clear (R200). -/
def execBvc (lk : Fin 8) (o : Byte) (s : State) : Host.Outcome State Fault Refusal :=
  s.run (fun s => s.runLk lk.val (.bvc o))

/-- BRA: a branch always taken (R200). -/
def execBra (lk : Fin 8) (o : Byte) (s : State) : Host.Outcome State Fault Refusal :=
  s.run (fun s => s.runLk lk.val (.bra o))

/-- JMP to a program address (R197, R201). -/
def execJmp (lk : Fin 8) (t : W16) (s : State) : Host.Outcome State Fault Refusal :=
  s.run (fun s => s.runLk lk.val (.jmp t))

/-- JSR: a call (R197, R201). -/
def execJsr (lk : Fin 8) (t : W16) (s : State) : Host.Outcome State Fault Refusal :=
  s.run (fun s => s.runLk lk.val (.jsr t))

/-- JMP through the data word at a + X (R197, R201). -/
def execJmpX (lk : Fin 8) (t : W16) (s : State) : Host.Outcome State Fault Refusal :=
  s.run (fun s => s.runLk lk.val (.jmpX t))

/-- JSR through the data word at a + X (R197, R201). -/
def execJsrX (lk : Fin 8) (t : W16) (s : State) : Host.Outcome State Fault Refusal :=
  s.run (fun s => s.runLk lk.val (.jsrX t))

/-- ISSUE #k: offers slot k's command to its unit class (R202). -/
def execIssue (lk : Fin 8) (k : Fin 4) (s : State) : Host.Outcome State Fault Refusal :=
  s.run (fun s => s.runLk lk.val (.issue k))

/-- WAITE #k: takes the result of slot k, or waits for it (R203). -/
def execWaite (lk : Fin 8) (k : Fin 4) (s : State) : Host.Outcome State Fault Refusal :=
  s.run (fun s => s.runLk lk.val (.waite k))

/-- POLLE #k: takes the result of slot k if it is DONE (R203). -/
def execPolle (lk : Fin 8) (k : Fin 4) (s : State) : Host.Outcome State Fault Refusal :=
  s.run (fun s => s.runLk lk.val (.polle k))

/-- RESERVED_WORD: the running context fetches a reserved word and traps, or the Lockkeeper halts (R205, R206). -/
def execReservedWord (lk : Fin 8) (s : State) : Host.Outcome State Fault Refusal := s.run (fun s => s.runReserved lk.val)

/-! ### The stores that act: LKC_GO, LKC_HEARTBEAT, FRM_DONE and FRM_ADMIT (R184, R190, R191, R194, R209) -/

/-- The word that a store of `v` at a place writes to data address `a`, if it covers that address. -/
def OpPlace.covers (p : OpPlace) (v : W32) (a : Nat) : Option W16 :=
  match p with
  | .imm _ => none
  | .word b h =>
    if b = a then some (BitVec.ofNat 16 v.toNat)
    else if !h ∧ (b + 1) % 2 ^ 16 = a then some (BitVec.ofNat 16 (v.toNat / 2 ^ 16)) else none

/-- The word that an instruction of context c stores at data address `a`. -/
def State.storedWord (s : State) (n c : Nat) (i : LkInstr) (a : Nat) : Option W16 :=
  let x := (s.lk n).ctx c
  match i with
  | .stA op => match s.lkPlace n c op with | .ok p => p.covers x.a a | .error _ => none
  | .stX op => (lkPlace16 op).covers (x.x.setWidth 32) a
  | .stY op => (lkPlace16 op).covers (x.y.setWidth 32) a
  | _ => none

/-- The running context of Lockkeeper n executes its next instruction if that stores a word at `a` that `ok` accepts. -/
def State.runStore (s : State) (n a : Nat) (ok : W16 → Bool) : State :=
  let l := (s.lk n).dispatch
  match l.cur with
  | none => s
  | some c =>
    match l.fetchInstr (l.ctx c).pc.toNat with
    | .ok (_, some i) =>
      match (s.updLk n (fun _ => l)).storedWord n c i a with
      | some w => if ok w then s.runLk n i else s
      | none => s
    | _ => s

/-- LKC_GO: firmware writes 1 to LKC_GO (R184). -/
def execLkcGo (lk : Fin 8) (s : State) : Host.Outcome State Fault Refusal :=
  s.run (fun s => s.runStore lk.val 0x7F02 (fun w => w.getLsbD 0))

/-- LKC_HEARTBEAT: firmware writes LKC_HEARTBEAT, any value (R194, R209). -/
def execLkcHeartbeat (lk : Fin 8) (s : State) : Host.Outcome State Fault Refusal :=
  s.run (fun s => s.runStore lk.val 0x7F03 (fun _ => true))

/-- FRM_DONE: firmware writes `w` to FRM_DONE of frame f (R190). -/
def execFrmDone (lk : Fin 8) (f : Fin 32) (w : W16) (s : State) : Host.Outcome State Fault Refusal :=
  s.run (fun s => s.runStore lk.val (0x4030 + 64 * f.val) (fun x => x == w))

/-- FRM_ADMIT: firmware writes `w` to FRM_ADMIT of frame f (R191). -/
def execFrmAdmit (lk : Fin 8) (f : Fin 32) (w : W16) (s : State) : Host.Outcome State Fault Refusal :=
  s.run (fun s => s.runStore lk.val (0x4033 + 64 * f.val) (fun x => x == w))

end Sys2Proof.Machine
end

