-- ==== Sys2Proof/Machine/Tamper.lean ====
section
/-!
DEFINITION. The tamper monitors: detections and alarms, the union of their action sets, the end of a zeroize, LOCK, the keep
domain on the cell, flag clears and the signed unlock (R47, R48, R482 to R506).
-/
namespace Sys2Proof.Machine

/-! ### The union of action sets (R488 to R491, R495) -/

/-- The highest of bits 7 to 0 that is set. -/
def topBit (n : Nat) : Option Nat := (numsFrom 0 8).reverse.find? (fun b => n.testBit b)

/-- Steps 1 and 2 of LOCK (R495): TAMPER_LOCKED is recorded, then the zeroize sequence; one under way serves. -/
def State.lockBegin (s : State) : State :=
  let s := ((s.setB .tmpStatus 31 true).abandonLoad).actionsDone 0xA8
  let s : State := { s with tamper := { s.tamper with acting := some 7 } }
  match s.tamper.zeroize with
  | some z => { s with tamper := { s.tamper with zeroize := some { z with lock := true } } }
  | none => s.zeroizeBegin { lock := true }

/-- What has been fetched and not admitted ends before the Lockkeepers go into reset, descriptors of a tow not yet gathered too (R23).
DESIGN CHOICE: with TAMPER_ABORT; log entry 113. -/
def State.endFetched (s : State) : State :=
  let res := plainResult .tamperAbort .completion 0
  let s := (ringOrder (s.reqs.filter (fun r => r.phase == .fetched))).foldl (fun s r => s.endWith r.id res) s
  (numsFrom 0 8).foldl (fun s n => s.giveUpFetch n res) s

/-- Step 3 of LOCK: the Lockkeepers are held in reset, configuration is at its defaults, and the phase is LIMITED (R495). The
entries already appended go out under the identifiers that their partitions had. DESIGN CHOICE: STATE beside RESULT ABORTED is DONE;
log entry 91. -/
def State.lockEnds (s : State) : State :=
  let asids := (numsFrom 0 64).filterMap (fun p => if s.asid p = 0 then none else some (p, s.asid p))
  let s := if s.boot.job.isSome || s.sched.applyWaits then s.applyEnds 7 2 else s
  let up := s.endPhase
  let s := s.endFetched.toDefaults
  let s : State := { s with
    boot := { s.boot with abandoned := false }, tamper := { s.tamper with asids := asids } }
  let s := s.deferRest
  if up then s.setF .mgtStatus 3 0 phLimited else s.endStartup phLimited

/-- The union's actions begin, highest rank first; each that waits for its completion stops here. A load abandoned for an action
resumes once none of rank FENCE_ENGINES or above is left (R103). -/
def State.proceed : Nat → State → State
  | 0, s => s
  | n + 1, s =>
    let todo := s.tamper.todo
    let b := topBit todo
    if (s.tamper.acting.map (fun a => decide (b.getD 0 ≤ a) && a != 2)).getD false then s
    else
      match b with
      | some 7 => s.lockBegin
      | some 6 =>
        let s := s.abandonLoad.clearKeep
        if s.tamper.unsound.testBit 6 then s.unverified 6 else State.proceed n (s.actionsDone 0x40)
      | some 5 =>
        let s := s.abandonLoad.actionsDone 0x28
        let s : State := { s with tamper := { s.tamper with acting := some 5, throttling := s.tamper.throttling || s.tamper.acting == some 2 } }
        if s.tamper.zeroize.isSome then s else s.zeroizeBegin {}
      | some 4 =>
        let s := ((s.abandonLoad.actionsDone 0x10).enterLevel 1 4).deferRest
        { s with tamper := { s.tamper with acting := some 4 } }
      | some 3 =>
        -- R489: a higher action in the union leaves R492 and R493 unchanged.
        let s := if s.tamper.done.testBit 6 then s.abandonLoad.stopEngines.abortAll .tamperAbort else s.abandonLoad.fence
        let s := (s.tamper.withAction 3).foldl (fun s i => s.tmpForce i 3) s
        if s.tamper.unsound.testBit 3 then s.unverified 3 else State.proceed n (s.actionsDone 8)
      | some 2 =>
        let s := s.resumeLoad
        let s := ((s.tamper.withAction 2).foldl (fun s i => s.tmpForce i 2) s).actionsDone 4
        { s with tamper := { s.tamper with acting := some 2 } }
      | _ => if s.tamper.acting = some 2 then s else s.resumeLoad.lowActions

/-- An alarm of a source while the chip is powered (R486, R488, R490, R506): a running unlock attempt fails without counting a
try, and the alarm's set joins the union. -/
def State.alarm (s : State) (src set : Nat) : State :=
  let s := s.recordAlarm src set
  let s := if s.regB .tmpUnlockCtrl 31 then
      (let tries := s.regF .tmpUnlockCtrl 26 24
       (s.unlockFail 1).setF .tmpUnlockCtrl 26 24 tries)
    else s
  if s.tamper.acting = some 4 then
    -- The block reset is under way: what it does not contain waits for the start-up, and LOCK is recorded for it.
    let s := if set.testBit 7 then s.setB .tmpStatus 31 true else s
    let s := if set.testBit 6 then s.clearKeep else s
    let late := set &&& (0x07 ||| fenceLeft set)
    { s with tamper := { s.tamper with deferred := s.tamper.deferred ++ (if late = 0 then [] else [(src, late)]) } }
  else
    let t := s.tamper
    let s : State := { s with tamper := { t with
      alarms := t.alarms ++ [(src, set)], todo := t.todo ||| (set &&& (0xFF - t.done)) } }
    let s := if set.testBit 3 ∧ s.tamper.done.testBit 3 ∧ s.inForce 3 then s.tmpForce src 3 else s
    let s := if set.testBit 2 ∧ s.tamper.done.testBit 2 then s.tmpForce src 2 else s
    s.proceed 10

/-- Steps 3 to 5 of R492: the read-back has ended; what waited for it follows. -/
def State.zeroizeEnds (s : State) : State :=
  match s.tamper.zeroize with
  | none => s
  | some z =>
    let s := s.abortAll .tamperAbort
    let s : State := { s with tamper := { s.tamper with zeroize := none } }
    let s := if z.transition then (if z.lock then s.lcRefused 4 else s.clearKeep.programCopies (s.regF .lcCtrl 10 8)) else s
    if z.lock then s.lockEnds
    else
      match s.tamper.acting with
      | some 5 =>
        let waits := s.tamper.throttling
        (({ s with tamper := { s.tamper with acting := if waits then some 2 else none, throttling := false } } : State).proceed 10).throttleDone
      | _ => s

/-- ZEROIZE_CLEAR_DONE: a T1 that expired during the zeroize then resets the block (R506, R513). -/
def State.zeroizeDone (s : State) : State :=
  let late := s.flt.t1Over && s.tamper.zeroize.isSome
  let s := s.zeroizeEnds
  if late && s.regB .fltEsc 31 then s.t1Enters else s

/-- ACTION_BOUND_EXPIRY (R491): the action under way has not completed within its bound; LOCK replaces it, and the safe state
replaces LOCK. -/
def State.actionBound (s : State) : State :=
  match s.tamper.acting with
  | none => s
  | some 7 => s.enterSafe
  | some _ => ({ s with tamper := { s.tamper with acting := none, todo := s.tamper.todo ||| 0x80 } } : State).proceed 10

/-! ### Detections (R47, R48, R483 to R485, R502, R503) -/

/-- N and ACTIONS of a source: TMP_SRC_CFG, and on the cell the keep domain's copy of it (R502). -/
def State.tmpCfg (s : State) (src : Nat) : W32 := if s.pins.keepOnCell then (s.tmpSrc src).cfg else s.reg .tmpSrcCfg src
def State.tmpN (s : State) (src : Nat) : Nat := max 1 (fld (s.tmpCfg src) 23 16)
def State.tmpActions (s : State) (src : Nat) : Nat := fld (s.tmpCfg src) 31 24

/-- Counts a detection in its window (R484): the machine, and whether the source raises an alarm. -/
def State.countDetection (s : State) (src : Nat) : State × Bool :=
  let c := (s.tmpSrc src).count + 1
  if s.tmpN src ≤ c then (s.updTmpSrc src (fun x => { x with count := 0 }), true)
  else (s.updTmpSrc src (fun x => { x with count := c }), false)

/-- TAMPER_DETECTION: a detector of a source detects. A detection that confirms the other detector's, within 2 ms of it, is not
counted again (R483). -/
def State.detect (s : State) (src det : Nat) : State :=
  if src = 11 ∨ s.tmpDisabled src ∨ s.pins.keepOnCell ∨ s.pins.coldLow ∨ s.pins.warmLow ∨ (det ≠ 0 ∧ !twoDetectors src) ∨ s.detFailed src det then s
  else
    let s := (s.setB .tmpSrcStatus 3 true src).updTmpSrc src (fun x => { x with holding := false })
    if (s.tmpSrc src).waits.any (· ≠ det) then s.updTmpSrc src (fun x => { x with waits := [] })
    else
      let s := if twoDetectors src ∧ !s.detFailed src (1 - det) then s.updTmpSrc src (fun x => { x with waits := x.waits ++ [det] }) else s
      let (s, hit) := s.countDetection src
      if hit then s.alarm src (s.tmpActions src) else s

/-- TAMPER_WINDOW_EXPIRY (R484). -/
def State.windowExpire (s : State) (src : Nat) : State := s.updTmpSrc src (fun x => { x with count := 0 })

/-- DISAGREE_WINDOW_EXPIRY (R483, R485): 2 ms have passed without the other detector since the oldest detection that waits for it. -/
def State.disagreeExpire (s : State) (src : Nat) : State :=
  match (s.tmpSrc src).waits with
  | [] => s
  | _ :: rest =>
    let t := s.updTmpSrc src (fun x => { x with waits := rest })
    if s.tmpDisabled src then t else t.event srcTmpDisagree 3 src

/-- TAMPER_CAUSE_END (R488): FENCE_HOLD runs from here if THROTTLE or FENCE_ENGINES is in force. -/
def State.causeEnd (s : State) (src : Nat) : State :=
  (s.setB .tmpSrcStatus 3 false src).updTmpSrc src (fun x => { x with holding := x.inForce != 0 })

/-- FENCE_HOLD_EXPIRY (R488). -/
def State.fenceHoldExpire (s : State) (src : Nat) : State :=
  if (s.tmpSrc src).holding then s.updTmpSrc src (fun x => { x with inForce := 0, holding := false }) else s

/-- LEVEL_DEBOUNCE: the level of an enclosure line after its debounce; an open loop is a detection (R47, R48). -/
def State.levelDebounce (s : State) (line : Nat) (high : Bool) : State :=
  let s : State := { s with tamper := { s.tamper with lines := modAt (fun _ => high) line s.tamper.lines } }
  if high then s.detect (5 + line) 0 else s

/-- An excursion, in µV, below 1.5 mV or above 25 mV is a line event (R47). -/
def pulseBad (uV : Nat) : Bool := decide (uV < 1500) || decide (25000 < uV)

/-- PULSE_CHECK: the excursions of the lines, and what the pulse-signature detector counts (R47, R48). -/
def State.pulseCheck (s : State) (uV : List Nat) : State :=
  (enumFrom 0 uV).foldl (fun s e => if pulseBad e.2 then s.detect (5 + e.1) 1 else s) s

/-- An alarm on the cell (R503): ZEROIZE_KEEP and LOG at once, the other actions into the pending mask. -/
def State.cellAlarm (s : State) (src set : Nat) : State :=
  let s := s.recordAlarm src set
  let s := if set.testBit 6 then s.clearKeep else s
  let s := if set.testBit 0 then s.tmpLog src else s
  if set &&& 0xBE = 0 then s
  else { s.setB .tmpSrcStatus 1 true src with tamper := { s.tamper with pending := s.tamper.pending ||| (set &&& 0xBE) } }

/-- Sources that the keep domain samples on the cell (R502). -/
def cellSources : List Nat := [2, 4, 5, 6, 7, 8, 10]

/-- The detections of a sample, by source and detector: a line that reads high, or whose excursion is out of bounds, is one (R47). -/
def keepDetections (x : KeepSample) : List (Nat × Nat) :=
  x.found.map (fun e => (e.1.val, e.2.val)) ++
  (enumFrom 5 x.lines).flatMap (fun e => (if e.2.1 then [(e.1, 0)] else []) ++ (if pulseBad e.2.2 then [(e.1, 1)] else []))

/-- KEEP_ON_CELL_EDGE: a keep domain that lost its supply meanwhile has lost its initialisation record (R52, R501). -/
def State.cellEdge (s : State) (e : CellEdge) : State :=
  { s with
    pins := { s.pins with keepOnCell := e.level }
    life := if e.flat && !e.level then { s.life with record := none } else s.life }

/-- KEEP_SAMPLE: what the detectors found, by source and detector (R502, R503). -/
def State.keepSample (s : State) (found : List (Nat × Nat)) : State :=
  if !s.pins.keepOnCell then s
  else
    cellSources.foldl (fun s src =>
      let a := found.contains (src, 0) && !s.detFailed src 0
      let b := found.contains (src, 1) && !s.detFailed src 1
      if s.tmpDisabled src ∨ (!a ∧ !b) then s
      else
        let s : State := if (a && b) || s.detFailed src 0 || s.detFailed src 1 then s else { s with tamper := { s.tamper with disagree := s.tamper.disagree ++ [src] } }
        let (s, hit) := s.countDetection src
        if hit then s.cellAlarm src (s.tmpActions src) else s) s

/-! ### Clearing flags (R487) -/

/-- Clears a flag with FIRST, LAST and ACTIVE; ALARMS stands. -/
def State.clearFlag (s : State) (src : Nat) : State :=
  let s := ((s.setB .tmpStatus src false).setB .tmpSrcStatus 0 false src).setF .tmpSrcStatus 15 8 0 src
  [RegId.tmpSrcFirstLo, .tmpSrcFirstHi, .tmpSrcLastLo, .tmpSrcLastHi].foldl (fun s r => s.setReg r 0 src) s

/-- Flags named in a mask whose cause has ended are cleared, each on condition. -/
def State.clearFlags (s : State) (mask : Nat) : State :=
  ((numsFrom 0 12).filter (fun i => mask.testBit i && s.tmpFlag i && !s.tmpCause i)).foldl State.clearFlag s

/-- A write to TMP_FLAG_CLEAR (R487); the mask is kept for a signed clear (R498). -/
def State.flagClear (s : State) (mask : Nat) : State :=
  let s : State := { s with tamper := { s.tamper with mask := mask } }
  (numsFrom 0 12).foldl (fun s i =>
    if !mask.testBit i ∨ !s.tmpFlag i then s
    else if 16 ≤ s.regF .tmpSrcStatus 15 8 i ∨ s.tmpCause i then s.setB .tmpStatus 28 true
    else s.clearFlag i) s

/-! ### The signed unlock (R496 to R498) -/

def State.unlockCtrlErr (s : State) : State := s.setB .tmpUnlockCtrl 29 true

/-- A write of 1 to TMP_UNLOCK_CTRL.NEW (R496): the challenge is drawn from the DRBG. -/
def State.unlockNew (s : State) : State :=
  if s.rngState ≠ rngReady then s.unlockCtrlErr
  else
    let (s, b) := s.generate 5 [] 32
    (numsFrom 0 8).foldl (fun s n => s.setReg .tmpUnlockChal (BitVec.ofNat 32 (le32 b (4 * n))) n) s

/-- Ends an attempt that was not made: its RESULT, and GO clear. -/
def State.unlockRefused (s : State) (result : Nat) : State := (s.setF .tmpUnlockCtrl 23 16 result).setB .tmpUnlockCtrl 31 false

/-- A write to TMP_UNLOCK_CTRL with GO, once PURPOSE is set (R497, R498). -/
def State.unlockGo (s : State) : State :=
  let purpose := s.regF .tmpUnlockCtrl 1 0
  let len := s.regF .tmpUnlockLen 13 0
  if s.regB .tmpUnlockCtrl 31 then s
  else if purpose = 0 ∨ purpose = 3 then s.unlockCtrlErr
  else if s.regF .tmpUnlockCtrl 26 24 = 5 then (s.unlockRefused 3).unlockCtrlErr
  else if (purpose = 1) ≠ (s.regB .tmpStatus 31 = true) then (s.unlockRefused 5).unlockCtrlErr
  else if allZero (s.otpBytes 0x070 8) ∧ allZero (s.otpBytes 0x078 8) then s.unlockFail 2
  else if len < 8 ∨ 8192 < len then s.unlockFail 1
  else { s.setB .tmpUnlockCtrl 31 true with tamper := { s.tamper with record := [] } }

/-- The record verifies for a purpose (R497, R498). -/
def State.recordVerifies (s : State) (purpose : Nat) : Bool :=
  let b := s.tamper.record
  let scheme := byteAt b 0
  let n := le32 b 4
  let pk := slice b 8 n
  let sig := b.drop (8 + n)
  let m := s.challenge ++ s.deviceId ++ toLe 1 purpose
  let field := s.otpBytes (if scheme = 1 then 0x070 else 0x078) 8
  decide (scheme = 1 ∨ scheme = 2) && allZero (slice b 1 3) && decide (8 + n ≤ b.length) && !allZero field &&
  decide (scheme = 1 → n = 1952 ∧ sig.length = 3309) &&
  field == sha3 (ascii "OVRALIN P3 TMPKY" ++ toLe 1 scheme ++ pk) &&
  (if scheme = 1 then Config.holds .mldsaRecord [ascii "OVRALIN-PARTAR3-TAMPER", pk, m, sig]
   else lmsTypesOk pk && Config.holds .lmsRecord [pk, ascii "P3TMP-LM" ++ m, sig])

/-- UNLOCK_VERIFY_DONE (R498): the record is whole and its verification has ended. -/
def State.unlockDone (s : State) : State :=
  let purpose := s.regF .tmpUnlockCtrl 1 0
  if !s.regB .tmpUnlockCtrl 31 ∨ s.tamper.record.length ≠ s.regF .tmpUnlockLen 13 0 then s
  else if !s.recordVerifies purpose then s.unlockFail 1
  else
    let mask := s.tamper.mask
    let s := s.unlockRefused 0
    let s := (numsFrom 0 8).foldl (fun s n => s.setReg .tmpUnlockChal 0 n) s
    let s : State := { s with tamper := { s.tamper with record := [] } }
    if purpose = 1 then ((s.setB .tmpStatus 31 false).clearFlags 0xFFF).enterLevel 1 6
    else s.clearFlags mask

/-! ### The commands -/

/-- TAMPER_DETECTION (R484). -/
def execTamperDetection (src : Fin 12) (det : Fin 2) (s : State) : Host.Outcome State Fault Refusal := s.run (fun s => s.detect src det)
/-- ZEROIZE_CLEAR_DONE (R492). -/
def execZeroizeClearDone (s : State) : Host.Outcome State Fault Refusal := s.run State.zeroizeDone
/-- TAMPER_WINDOW_EXPIRY (R484). -/
def execTamperWindowExpiry (src : Fin 12) (s : State) : Host.Outcome State Fault Refusal := s.run (fun s => s.windowExpire src)
/-- DISAGREE_WINDOW_EXPIRY (R483). -/
def execDisagreeWindowExpiry (src : Fin 12) (s : State) : Host.Outcome State Fault Refusal := s.run (fun s => s.disagreeExpire src)
/-- FENCE_HOLD_EXPIRY (R488). -/
def execFenceHoldExpiry (src : Fin 12) (s : State) : Host.Outcome State Fault Refusal := s.run (fun s => s.fenceHoldExpire src)
/-- TAMPER_CAUSE_END (R488). -/
def execTamperCauseEnd (src : Fin 12) (s : State) : Host.Outcome State Fault Refusal := s.run (fun s => s.causeEnd src)
/-- ACTION_BOUND_EXPIRY (R491). -/
def execActionBoundExpiry (s : State) : Host.Outcome State Fault Refusal := s.run State.actionBound
/-- LEVEL_DEBOUNCE (R48). -/
def execLevelDebounce (line : Fin 4) (high : Bool) (s : State) : Host.Outcome State Fault Refusal :=
  s.run (fun s => s.levelDebounce line high)
/-- PULSE_CHECK (R48): the excursion of each line in µV. -/
def execPulseCheck (l0 l1 l2 l3 : Nat) (s : State) : Host.Outcome State Fault Refusal := s.run (fun s => s.pulseCheck [l0, l1, l2, l3])
/-- KEEP_SAMPLE (R502). -/
def execKeepSample (x : KeepSample) (s : State) : Host.Outcome State Fault Refusal := s.run (fun s => s.keepSample (keepDetections x))
/-- KEEP_ON_CELL_EDGE (R52). -/
def execKeepOnCellEdge (e : CellEdge) (s : State) : Host.Outcome State Fault Refusal := s.run (fun s => s.cellEdge e)
/-- UNLOCK_VERIFY_DONE (R498). -/
def execUnlockVerifyDone (s : State) : Host.Outcome State Fault Refusal := s.run State.unlockDone

end Sys2Proof.Machine
end

