-- ==== Sys2Proof/Machine/Recovery.lean ====
section
/-!
DEFINITION. P0's writes of the partition table, function resets, requests for levels 3 and 4, and the fault collector's timers,
pin, acknowledgement and injection (R457 to R470, R476 to R479, R512 to R519).
-/
namespace Sys2Proof.Machine

/-! ### Writes of the partition table (R456 to R458) -/

/-- A refused write or an ignored reset start in MGT_PTN_CTRL_ERR. -/
def State.ptnErr (s : State) (p code : Nat) : State := s.setReg .mgtPtnCtrlErr (BitVec.ofNat 32 (p % 64 * 256 + code))

/-- The running entry of a partition with one word replaced: 0 MGT_PTN_A, 1 MGT_PTN_B, 2 MGT_PTN_C. ISOLATED stands, and a
BERTH_QUOTA above 16,384 is taken as that. -/
def State.entryWith (s : State) (p word : Nat) (d : W32) : PtnEntry :=
  let a := if word = 0 then setBit d 28 (s.isolated p) else s.reg .mgtPtnA p
  let b := if word = 1 then d else s.reg .mgtPtnB p
  let c := if word = 2 then d else s.reg .mgtPtnC p
  { ptn := p, flags := fld a 31 31 + 2 * fld a 30 30 + 4 * fld a 29 29 + 8 * fld a 28 28, asid := fld b 15 0, sqMax := fld a 4 0,
    cqMax := fld a 10 6, vecMax := fld a 17 12, keyQuota := fld c 28 16, berthQuota := min (fld c 14 0) 16384,
    gen := getKey 0 s.tableGen p }

/-- The check of R457 that an entry written by P0 fails, by its code. -/
def State.entryCode (s : State) (e : PtnEntry) : Option Nat :=
  let p := e.ptn
  let same := s.asid p == e.asid && s.sqMax p == e.sqMax && s.cqMax p == e.cqMax && s.vecMax p == e.vecMax
  let quiet := s.ptnQuiet p && !s.resets.any (fun r => r.ptn == p)
  firstFail [
    (e.inRange, 1), (!(e.enabled && s.asidTaken e.asid [p]), 2), (p != 0 || e.enabled, 3),
    ((same && (e.enabled || !s.enabled p)) || quiet, 5)]

/-- A write of a word of the table (R457); one while an apply changes the table is dropped (R102). -/
def State.ptnWrite (s : State) (p word : Nat) (d : W32) : State :=
  if (s.boot.job.map (fun j => j.kind == 4)).getD false then s.setB .mgtStatus 15 true
  else
    let e := s.entryWith p word d
    match s.entryCode e with
    | some code => s.ptnErr p code
    | none => s.applyEntry e

/-! ### Function reset (R466 to R470) -/

def State.updReset (s : State) (p : Nat) (f : FnReset → FnReset) : State :=
  { s with resets := s.resets.map (fun r => if r.ptn = p then f r else r) }

/-- Every ring of a partition goes to STOPPING and what it has is ended (R467 steps 1 to 3); one that was not running has
nothing to flush. -/
def State.stopRings (s : State) (p : Nat) : State :=
  (numsFrom 0 16).foldl (fun s n =>
    match s.sqState p n with
    | 1 | 4 => s.stopRing p n
    | 2 => s
    | _ => { s.setSqState p n 2 with flushEnded := s.flushEnded ++ [(p, n)] }) s

/-- Operand slots last owned by a partition are wiped (R362). -/
def State.wipeOperands (s : State) (p : Nat) : State :=
  { s with operands := s.operands.map (fun o =>
      { o with owner := o.owner.filter (fun e => e.2 ≠ p), words := o.words.filter (fun e => getKey 64 o.owner (e.1 / max 1 o.slotWords) ≠ p) }) }

/-- The first steps of a function reset, all but the flush of descriptors that were never fetched (R467, R470, R144). -/
def State.resetBegin (s : State) (p : Nat) (keep : Bool) : State :=
  let s : State := { s with irqs := s.irqs.filter (fun m => m.ptn ≠ p) }
  let s := (numsFrom 0 16).foldl (fun s c => s.cqResume p c) s
  let s := (s.stopRings p).wipeOperands p
  let s := if s.regB .keyStageStatus 31 p then s.commitEnds p .tamperAbort 0 else s.zeroStaging p
  let s := if keep then s
    else
      let s := ((s.berths.filter (fun e => e.2.owner = p)).map (·.1)).foldl State.freeBerth s
      ((s.ckc.entries.filter (fun e => e.2.owner = p)).map (·.1)).foldl State.ckcRelease s
  s.updReset p (fun r => { r with begun := true })

/-- A start of a function reset of an enabled partition (R466). -/
def State.resetStart (s : State) (p : Nat) (keep : Bool) : State :=
  if s.resetOf p then s.setB .ptnStatus 14 true p
  else
    let s : State := { s with resets := s.resets ++ [{ ptn := p, keep := keep }] }
    if s.tamper.zeroize.isSome then s else s.resetBegin p keep

/-- A P0 start through MGT_PTN_RESET, once KEEP and PTN are set (R466). -/
def State.mgtReset (s : State) : State :=
  let p := s.regF .mgtPtnReset 5 0
  if s.enabled p then s.resetStart p (s.regB .mgtPtnReset 30) else s.ptnErr p 4

/-- A ring of a partition under reset whose entries are written, or wait where they outlive the reset: in the holding area, or for
a completion ring that is in FAULT after the retry of its held writes, or that is full (R144, R467). -/
def State.ringSettled (s : State) (p n : Nat) : Bool :=
  let c := s.sqCq p n
  let stuck := s.cqState p c != 1 || decide (s.cqSize p c ≤ s.cqFill p c)
  let inFlight := s.writes.any (fun w => match w.purpose with
    | .entry q r _ _ _ => !w.dead && q == p && r == n
    | _ => false)
  s.flushState p n == 0 && !inFlight && !s.retrying p c &&
  (s.ringReqs p n).all (fun r => r.phase == .finished && (r.place == .holding || (stuck && r.place != .inPlace)))

/-- The end of a function reset: every submission ring is STOPPED with its bit in RING_EVENT (R467). -/
def State.resetEnds (s : State) (p : Nat) : State :=
  let s : State := { s with resets := s.resets.filter (fun r => r.ptn ≠ p) }
  let s := (numsFrom 0 16).foldl (fun s n =>
    if s.sqState p n = 2 then
      (({ s with flushEnded := s.flushEnded.filter (· ≠ (p, n)) } : State).setSqState p n 3).ringEvent p n
    else s) s
  match s.boot.job with
  | some j => State.applyEntries (j.left.length + 1) s
  | none => s

/-- FUNCTION_RESET_FLUSH (R468): the lowest ring with descriptors that were never fetched flushes its next one, or stops flushing;
once every ring is settled the reset ends. -/
def State.resetFlush (s : State) (p : Nat) : State :=
  match s.resets.find? (fun r => r.ptn = p) with
  | none => s
  | some r =>
    if s.tamper.zeroize.isSome then s
    else if !r.begun then s.resetBegin p r.keep
    else
      match s.flushRing p with
      | some n =>
        (match s.flushState p n with
         | 1 => s.flushFetch p n
         | 3 => ({ s with flushEnded := s.flushEnded ++ [(p, n)] } : State).checkStopped p n
         | _ => s)
      | none => if (numsFrom 0 16).all (fun n => s.ringSettled p n) then s.resetEnds p else s

/-! ### Levels 3 and 4 (R476 to R479) -/

/-- A write to MGT_RCV_CTRL with GO, once LEVEL is set (R479). The safe state takes LEVEL 1 alone (R516). -/
def State.rcvGo (s : State) : State :=
  let level := s.regF .mgtRcvCtrl 1 0
  if s.phase ≠ phReady ∨ level = 0 ∨ level = 3 ∨ (s.safe ∧ level ≠ 1) then s.setB .mgtRcvCtrl 30 true else s.enterLevel level 1

/-! ### The fault collector (R511 to R519) -/

/-- PROMOTION_WINDOW_EXPIRY (R511). -/
def State.promotionExpire (s : State) (src : Nat) : State := s.setF .fltSrcCount 15 8 0 src

/-- The pin is released (R512). -/
def State.pinHigh (s : State) : State :=
  let s := s.setB .fltEsc 25 false
  { s with pins := { s.pins with fltErrN := true }, flt := { s.flt with pinWanted := false } }

/-- A write of 1 to FLT_PIN (R512). -/
def State.fltPin (s : State) : State :=
  if s.criticalSet ∨ s.safe then s.setB .fltEsc 23 true
  else if s.pins.fltErrN then s
  else if s.flt.pinHold then { s with flt := { s.flt with pinWanted := true } }
  else s.pinHigh

/-- PIN_HOLD_EXPIRY (R512): the 250 cc have ended. -/
def State.pinHoldExpire (s : State) : State :=
  if !s.flt.pinHold then s
  else
    let s : State := { s with flt := { s.flt with pinHold := false } }
    if s.flt.pinWanted ∧ !s.criticalSet ∧ !s.safe then s.pinHigh else s

/-- A write of 1 to FLT_ACK (R513, R514, R519). -/
def State.fltAck (s : State) : State :=
  let s := (((s.setB .fltEsc 31 false).setB .fltEsc 30 false).setF .fltEsc 28 27 0).setB .fltEsc 29 false
  { s with flt := { s.flt with t1Waits := false, t2Waits := false, t1Over := false } }

/-- An automatic entry to level 4 counts towards STRIKES (R514). -/
def State.strike (s : State) : State :=
  let n := min 3 (s.regF .fltEsc 28 27 + 1)
  let s := s.setF .fltEsc 28 27 n
  if n = 3 then s.setB .fltEsc 29 true else s

/-- T1_EXPIRY (R513). -/
def State.t1Expire (s : State) : State :=
  if !s.regB .fltEsc 31 then s
  else if s.tamper.zeroize.isSome then { s with flt := { s.flt with t1Over := true } }
  else s.t1Enters

/-- T2_EXPIRY (R513). -/
def State.t2Expire (s : State) : State :=
  if s.regB .fltEsc 30 then ((s.setB .fltEsc 30 false).strike).enterLevel 2 3 else s

/-- END_PHASE_DEADLINE (R513): no end phase within 25 ms of the level-3 request. -/
def State.deadlineExpire (s : State) : State :=
  if s.flt.deadline then (({ s with flt := { s.flt with deadline := false } } : State).strike).enterLevel 2 3 else s

/-- COLLECTOR_SELF (R516). -/
def State.collectorSelf (s : State) : State := (s.event srcCollectorSelf 2 0).enterSafe

/-- A write to FLT_INJECT with GO that is accepted, once its fields are set (R517). An injection of a reserved number is ignored.
One of COLLECTOR_SELF, whose handling is fixed, is recorded, contains no unit and enters the safe state. -/
def State.fltInject (s : State) : State :=
  let src := s.regF .fltInject 29 24
  let t := (s.recordEvent src (s.regF .fltInject 22 16) (s.regF .fltInject 15 0) true).1
  if src = srcCollectorSelf then ({ t with toContain := s.toContain } : State).enterSafe
  else if 0x2E < src then s
  else t

/-! ### The commands -/

/-- FUNCTION_RESET_FLUSH (R468). -/
def execFunctionResetFlush (p : Fin 64) (s : State) : Host.Outcome State Fault Refusal := s.run (fun s => s.resetFlush p)
/-- PROMOTION_WINDOW_EXPIRY (R511). -/
def execPromotionWindowExpiry (src : Fin 64) (s : State) : Host.Outcome State Fault Refusal := s.run (fun s => s.promotionExpire src)
/-- PIN_HOLD_EXPIRY (R512). -/
def execPinHoldExpiry (s : State) : Host.Outcome State Fault Refusal := s.run State.pinHoldExpire
/-- T1_EXPIRY (R513). -/
def execT1Expiry (s : State) : Host.Outcome State Fault Refusal := s.run State.t1Expire
/-- T2_EXPIRY (R513). -/
def execT2Expiry (s : State) : Host.Outcome State Fault Refusal := s.run State.t2Expire
/-- END_PHASE_DEADLINE (R513). -/
def execEndPhaseDeadline (s : State) : Host.Outcome State Fault Refusal := s.run State.deadlineExpire
/-- COLLECTOR_SELF (R516). -/
def execCollectorSelf (s : State) : Host.Outcome State Fault Refusal := s.run State.collectorSelf

end Sys2Proof.Machine
end

