-- ==== Sys2Proof/Machine/PowerOps.lean ====
section
/-!
DEFINITION. The pm port, the clocks, the debug enable, units in service, the power cap and the lifetime records as commands
(R62 to R66, R69, R70, R267, R423, R439, R520 to R540).
-/
namespace Sys2Proof.Machine

/-! ### Domains (R62 to R64, R520 to R523) -/

/-- What a domain loses when it is switched off, and finds as zeros at its wake (R520, R523). The polynomial engines keep the tag and
the sets that the engine takes again by its copy. -/
def State.domLost (s : State) (d : Nat) : State :=
  if 4 ≤ d ∧ d < 12 then s.updLk (d - 4) (fun l => { l with prog := [], data := [], bad := [], emuEn := false, fwTag := 0 })
  else if d = 79 then { s with ckc := { s.ckc with entries := [] } }
  else if 88 ≤ d ∧ d < 96 then s.zeroOperands (d - 88)
  else
    match domUnits d with
    | some (1, ns) => { s with roundKeys := s.roundKeys.filter (fun e => !ns.contains e.1) }
    | some (3, ns) => ns.foldl (fun s n => let s := s.dropLinks n
        { s with plys := modAt (fun p => { p with slots := [], shares := [], bad := [], woken := p.woken || decide (p.rcp ≠ {}) }) n s.plys }) s
    | some (4, ns) => ns.foldl State.zeroWork s
    | _ => s

/-- What a woken domain goes on with. -/
def State.domWoken (s : State) (d : Nat) (off : Bool) : State :=
  if 4 ≤ d ∧ d < 12 then s.lkWoken (d - 4) off
  else if 35 ≤ d ∧ d < 38 then s.srcStart (d - 35)
  else if d = 38 then s.rngKat
  else if 59 ≤ d ∧ d < 75 then
    { s with plys := modAt (fun p => { p with restoring := p.restoring || p.woken }) (d - 59) s.plys }
  else s

/-- PM_ACK: the domain reaches the state that was asked for. -/
def State.pmAck (s : State) (d : Nat) : State :=
  match s.power.asked.find? (fun e => e.1 = d) with
  | none => s
  | some (_, op) =>
    let off := s.power.fromOff.contains d
    let rest := if op = 2 then s.power.fromOff.filter (· ≠ d) else s.power.fromOff
    let s := ({ s with power := { s.power with asked := s.power.asked.filter (fun e => e.1 ≠ d), late := s.power.late.filter (· ≠ d), fromOff := rest } } : State).setDom d op
    let s := if op = 2 then (s.domWoken d off).fillDomain d else if op = 0 then (s.domLost d).dropBuffers d else s
    State.pumpPm 4 s.bootReady

/-- PM_HANDSHAKE_TIMEOUT: the units of the domain leave service, and the request stays asserted (R64). -/
def State.pmTimeout (s : State) (d : Nat) : State :=
  if s.power.asked.any (fun e => e.1 = d) ∧ !s.power.late.contains d then
    let s : State := { s with power := { s.power with late := s.power.late ++ [d] } }
    -- PD16 has no class of PWR_MAP; 10 marks the completion unit.
    let s := if d = 16 then s.mark 10 0 else s.containDom d
    (s.event srcPmHandshake d d).bootReady
  else s

/-- MIN_ON of a class: the first instances in service, by physical number, are never put below ON (R521). -/
def State.minOn (s : State) (cls : Nat) : List Nat :=
  let inService := (numsFrom 0 (classSize cls)).filter (fun n => if cls = 0 then (s.lk n).state ≠ .halted else !s.unitOut cls n)
  (inService.take (s.regF .pwrIdle 31 24 cls)).map (fun n => if cls = 0 then n else s.physical cls n)

/-- An idle engine or Lockkeeper domain may leave ON. -/
def State.mayRest (s : State) (cls : Nat) (ns : List Nat) (d : Nat) : Bool :=
  s.domIdle d && !ns.any (fun n => (s.minOn cls).contains n) &&
  (decide (cls ≠ 0) || ns.all (fun n => (s.lk n).state ≠ .loading)) &&
  (decide (cls ≠ 3) || ns.all (fun n => !(s.plys.getD n {}).restoring))

/-- RET_AFTER_EXPIRY (R521): engine and Lockkeeper domains alone. -/
def State.retExpire (s : State) (d : Nat) : State :=
  match domUnits d with
  | some (cls, ns) => if cls ≤ 5 ∧ s.domOn d ∧ s.mayRest cls ns d then s.askDom d 1 else s
  | none => s

/-- A hold line of the engine is live (R157, R158). -/
def State.holdsLine (s : State) (cls phys : Nat) : Bool :=
  s.tows.any (fun t => t.holds.any (fun h =>
    match h.line with
    | some (e, _) => if e < 16 then cls = 3 && s.physical 3 e == phys else cls = 4 && s.physical 4 (e - 16) == phys
    | none => false))

/-- A polynomial engine that still holds its recipes: ON or in RETENTION and in service. -/
def State.holdsRecipes (s : State) (phys : Nat) : Bool :=
  s.domState (59 + phys) ≠ 0 && !s.outMarks.contains (3, phys) && !(s.plys.getD phys {}).woken && !(s.plys.getD phys {}).restoring

/-- The power controller never switches the domain of the unit off (R520, R522). -/
def State.keepsPower (s : State) (d cls phys : Nat) : Bool :=
  match cls with
  | 0 => (s.lk phys).state ≠ .drained && (s.lk phys).state ≠ .halted
  | 3 => s.holdsLine 3 phys ||
      !(numsFrom 0 16).any (fun n => n ≠ phys && s.holdsRecipes n && (s.plys.getD n {}).rcp.tag == (s.plys.getD phys {}).rcp.tag)
  | 4 => s.holdsLine 4 phys
  | 5 => decide (88 ≤ d) && !(s.operands.getD phys {}).groups.isEmpty
  | _ => false

/-- OFF_AFTER_EXPIRY (R521, R522). -/
def State.offExpire (s : State) (d : Nat) : State :=
  match domUnits d with
  | some (cls, ns) =>
    if cls ≤ 5 ∧ s.domState d = 1 ∧ s.regF .pwrIdle 23 12 cls ≠ 0 ∧ s.mayRest cls ns d ∧ !ns.any (s.keepsPower d cls) ∧
        !s.power.asked.any (fun e => e.1 = d) then s.askDom d 0
    else s
  | none => s

/-! ### Clocks and caps (R63, R65, R66, R524, R528) -/

/-- Nothing crosses the fabric side of the block. -/
def State.fabIdle (s : State) : Bool :=
  s.port.waiting.isEmpty && s.reads.isEmpty && s.writes.isEmpty && s.reqs.isEmpty && !s.lks.any Lk.busy && (numsFrom 12 13).all (fun d => s.domState d ≠ 3)

/-- CLK_IDLE_EXPIRY: the clock request falls. With fab_clk the DMA, completion and Basin domains go to RETENTION (R520, R524). -/
def State.clkIdle (s : State) (eng : Bool) : State :=
  if eng then
    if s.needsEng then s
    else { s with pins := { s.pins with engReq := false, engRun := false } }
  else if s.fabIdle then
    ((numsFrom 12 13).filter s.domOn).foldl (fun s d => s.askDom d 1) { s with pins := { s.pins with fabReq := false, fabRun := false } }
  else s

/-- PM_CAP_CHANGE: pm_cap is sampled, above 140 taken as 140 (R65, R529). -/
def State.pmCapChange (s : State) (v : Nat) : State :=
  ({ s with pins := { s.pins with pmCap := min (v % 256) 140 } } : State).capLowered

/-- ENG_CLK_ANNOUNCE: pm_eng_mhz (R66). -/
def State.engAnnounce (s : State) (v : Nat) : State := { s with pins := { s.pins with engMhz := v % 2048 } }

/-- BALLAST_HOLD_EXPIRY: the logical instance sheds its ballast (R528). -/
def State.ballastExpire (s : State) (cls inst : Nat) : State :=
  { s with power := { s.power with ballast := s.power.ballast.filter (fun u => u ≠ (cls, s.physical cls inst)) } }

/-- POWER_CAP_BOUND_EXPIRY: the draw is not under a lowered cap within the bound (R65, R507). -/
def State.capBound (s : State) : State := if s.power.capWait then s.event srcPowerCap 0xFF 0 else s

/-! ### The debug enable (R69, R70, R439) -/

/-- The request has taken a key from a slot, a berth or a cache entry with ROOT_REAL set. -/
def State.tookReal (s : State) (r : Req) : Bool :=
  (r.key.map (·.rootReal)).getD false || (r.berth.map (fun i => (s.berth i).rootReal)).getD false ||
  (r.entry.map (fun n => (s.ckcEntry n).isPrivate && (s.ckcEntry n).rootReal)).getD false

/-- DBG_EN_RISE: every derivation switches to the test root; what was made under a real root is invalidated, and requests that took a
key from it end with ROOT_UNAVAILABLE. During a zeroize the stores are empty already (R506). -/
def State.dbgRise (s : State) : State :=
  if s.pins.dbgEn then s
  else
    let s : State := { s with pins := { s.pins with dbgEn := true }, reqs := s.reqs.map (fun r => { r with testRoot := true }) }
    let s : State := { s.endCommits .rootUnavailable with staging := [] }
    let hit := if s.tamper.zeroize.isSome then [] else s.reqs.filter (fun r => r.atWork && s.tookReal r)
    let s := hit.foldl (fun s r => (s.abortEngine r).finishReq r.id
      { status := .rootUnavailable, outLen := r.bas.acked, unit := r.unit, inst := r.inst }) s
    let s := ((s.berths.filter (fun e => e.2.rootReal)).map (·.1)).foldl State.invalidateBerth s
    let s : State := { s with ckc := { s.ckc with entries := s.ckc.entries.filter (fun e => !(e.2.isPrivate && e.2.rootReal)) } }
    ((s.keys.filter (fun e => e.2.rootReal && decide (e.2.state ≠ .invalid))).map (·.1)).foldl (fun s i =>
      if (s.key i).state = .invalid then s else s.invalidateSlot i) s

/-- DBG_EN_FALL. -/
def State.dbgFall (s : State) : State := { s with pins := { s.pins with dbgEn := false } }

/-! ### Units in service (R534, R535) -/

/-- The instance is out of service by DRAIN or by CONTAIN. -/
def State.unitMarked (s : State) (c n : Nat) : Bool := if c = 7 then s.bankOut n else s.outMarks.contains (c, s.physical c n)

/-- PWR_UNIT_CTRL names a unit. -/
def unitNamed (c n : Nat) : Bool := 1 ≤ c && c ≤ 9 && n < classSize c

/-- An operation ends: GO reads 0 and RESULT is given. -/
def State.unitEnds (s : State) (res : Nat) : State := (s.setB .pwrUnitCtrl 31 false).setF .pwrUnitStatus 7 0 res

/-- A refused operation sets CTRL_ERR. -/
def State.unitRefused (s : State) : State := (s.setB .pwrUnitCtrl 30 true).setF .pwrUnitStatus 7 0 1

/-- DRAIN. -/
def State.unitDrain (s : State) (c n : Nat) : State :=
  if !unitNamed c n || s.unitMarked c n || s.unitOut c n then s.unitRefused
  else { s.setB .pwrUnitCtrl 31 true with power := { s.power with drain := some { cls := c, inst := n } } }

/-- The memories of a unit that returns, zeroized (R534). -/
def State.returnZero (s : State) (c n : Nat) : State :=
  let p := s.physical c n
  match c with
  | 1 => s.dropCore p
  | 3 => let s := s.dropLinks p
    { s with plys := modAt (fun x => { x with slots := [], shares := [], bad := [], restoring := decide (x.rcp ≠ {}), woken := decide (x.rcp ≠ {}) }) p s.plys }
  | 4 => s.zeroWork p
  | 5 => s.zeroOperands p
  | 8 => ((s.berths.map (·.1)).filter (fun i => i % 8 == n)).foldl State.freeBerth s
  | 9 => { s with ckc := { s.ckc with entries := [] } }
  | _ => s

/-- RETURN; engines run their known-answer self-test, whose answer is a free value. -/
def State.unitReturn (s : State) (c n : Nat) : State :=
  if !unitNamed c n || !s.unitMarked c n then s.unitRefused
  else
    let good := decide (5 < c) || Config.holds .healthOk [toLe 8 s.free, toLe 2 c, toLe 2 n]
    let s := s.drawn.returnZero c n
    if !good then s.unitEnds 3
    else
      let s := if c = 7 then s.setB .bsnErr (24 + n) false else s
      ({ s with outMarks := s.outMarks.filter (fun m => m ≠ (c, s.physical c n)) } : State).unitEnds 0

/-- REMAP: the two instances exchange logical numbers. -/
def State.unitRemap (s : State) (c n t : Nat) : State :=
  if !unitNamed c n || !unitNamed c t || !s.unitMarked c n || !s.unitMarked c t then s.unitRefused
  else
    let a := s.reg .pwrMap c n
    let b := s.reg .pwrMap c t
    ((s.setReg .pwrMap b c n).setReg .pwrMap a c t).unitEnds 0

/-- A 1 written to GO of PWR_UNIT_CTRL: OP, CLASS, TARGET and INSTANCE as just written. One while a drain runs is refused. -/
def State.unitGo (s : State) : State :=
  let c := s.regF .pwrUnitCtrl 27 24
  let n := s.regF .pwrUnitCtrl 5 0
  if s.power.drain.isSome then s.unitRefused
  else
    match s.regF .pwrUnitCtrl 29 28 with
    | 0 => s.unitDrain c n
    | 1 => s.unitReturn c n
    | 2 => s.unitRemap c n (s.regF .pwrUnitCtrl 13 8)
    | _ => s.unitRefused

/-- The requests whose work keeps a unit under drain. -/
def State.drainUsers (s : State) (c n : Nat) : List Req :=
  match c with
  | 6 => s.reqs.filter (fun r => !r.completed &&
      (s.reads.any (fun x => x.engine = n && x.purpose = .input r.id) ||
       s.writes.any (fun x => x.engine = n && (x.purpose = .output r.id || x.purpose = .scrub r.id))))
  | 8 => s.reqs.filter (fun r => r.onEngine && (r.berth.map (fun i => i % 8 == n)).getD false)
  | 9 => s.reqs.filter (fun r => r.onEngine && r.desc.usesCache)
  | _ => []

/-- UNIT_DRAIN_LIMIT_EXPIRY: the work that is left ends with ENGINE_FAULT, and the unit leaves service. -/
def State.drainExpire (s : State) : State :=
  match s.power.drain with
  | none => s
  | some d =>
    let s := (s.drainUsers d.cls d.inst).foldl (fun s r => (s.abortEngine r).finishReq r.id
      { plainResult .engineFault r.unit r.inst with outLen := r.bas.acked }) s
    let s := if d.cls = 6 then s.dmaLost d.inst else if d.cls ≤ 5 then s.failUnit (engineUnit d.cls) d.inst else s
    (s.drainDone d.cls d.inst).setF .pwrUnitStatus 7 0 2

/-! ### Lifetime records (R536 to R539) -/

/-- The engines by their number of R537: class and physical instance. -/
def lifeEngines : List (Nat × Nat) :=
  (numsFrom 0 48).map (fun n => (1, n)) ++ (numsFrom 0 32).map (fun n => (2, n)) ++ (numsFrom 0 16).map (fun n => (3, n)) ++
  (numsFrom 0 4).map (fun n => (4, n)) ++ (numsFrom 0 8).map (fun n => (5, n))

/-- A second towards an hour counter. -/
def State.lifeSecond (s : State) (i : Nat) : State :=
  let t := getKey 0 s.life.secs i + 1
  if t < 3600 then { s with life := { s.life with secs := setKey 0 s.life.secs i t } }
  else ({ s with life := { s.life with secs := setKey 0 s.life.secs i 0 } } : State).lifeAdd i 1

/-- LIFETIME_COMMIT: a second has passed. The junction's temperature band is a free value. -/
def State.lifetimeCommit (s : State) : State :=
  let x := s.pick
  let on := (enumFrom 0 lifeEngines).filter (fun e => s.domState (classDomain e.2.1 e.2.2) == 2)
  (on.foldl (fun s e => s.lifeSecond (0x200 + 4 * e.1 + x / 4 ^ e.1 % 4)) (s.drawn.lifeSecond 0)).lifeCommit

/-- LIF_CAL_CTRL.SET: the calendar takes the seconds written, the sub-seconds at zero (R536). -/
def State.calSet (s : State) : State :=
  ((s.setReg .lifCalLo (s.reg .lifCalSetLo)).setReg .lifCalHi (BitVec.ofNat 32 (s.regF .lifCalSetHi 15 0))).setB .lifStatus 30 true

/-! ### The commands -/

/-- PM_ACK (R62). -/
def execPmAck (dom : Fin 96) (s : State) : Host.Outcome State Fault Refusal := s.run (fun s => s.pmAck dom)
/-- PM_HANDSHAKE_TIMEOUT (R64). -/
def execPmHandshakeTimeout (dom : Fin 96) (s : State) : Host.Outcome State Fault Refusal := s.run (fun s => s.pmTimeout dom)
/-- PM_CAP_CHANGE (R65). -/
def execPmCapChange (v : Nat) (s : State) : Host.Outcome State Fault Refusal := s.run (fun s => s.pmCapChange v)
/-- ENG_CLK_ANNOUNCE (R66). -/
def execEngClkAnnounce (v : Nat) (s : State) : Host.Outcome State Fault Refusal := s.run (fun s => s.engAnnounce v)
/-- DBG_EN_RISE (R439). -/
def execDbgEnRise (s : State) : Host.Outcome State Fault Refusal := s.run State.dbgRise
/-- DBG_EN_FALL (R70). -/
def execDbgEnFall (s : State) : Host.Outcome State Fault Refusal := s.run State.dbgFall
/-- RET_AFTER_EXPIRY (R521). -/
def execRetAfterExpiry (dom : Fin 96) (s : State) : Host.Outcome State Fault Refusal := s.run (fun s => s.retExpire dom)
/-- OFF_AFTER_EXPIRY (R521). -/
def execOffAfterExpiry (dom : Fin 96) (s : State) : Host.Outcome State Fault Refusal := s.run (fun s => s.offExpire dom)
/-- CLK_IDLE_EXPIRY (R524). -/
def execClkIdleExpiry (eng : Bool) (s : State) : Host.Outcome State Fault Refusal := s.run (fun s => s.clkIdle eng)
/-- BALLAST_HOLD_EXPIRY (R528). -/
def execBallastHoldExpiry (cls inst : Nat) (s : State) : Host.Outcome State Fault Refusal := s.run (fun s => s.ballastExpire cls inst)
/-- UNIT_DRAIN_LIMIT_EXPIRY (R534). -/
def execUnitDrainLimitExpiry (s : State) : Host.Outcome State Fault Refusal := s.run State.drainExpire
/-- LIFETIME_COMMIT (R539). -/
def execLifetimeCommit (s : State) : Host.Outcome State Fault Refusal := s.run State.lifetimeCommit
/-- POWER_CAP_BOUND_EXPIRY (R65). -/
def execPowerCapBoundExpiry (s : State) : Host.Outcome State Fault Refusal := s.run State.capBound

end Sys2Proof.Machine
end

