-- ==== Sys2Proof/Machine/Port.lean ====
section
/-!
DEFINITION. The register port: how an access is judged, the access log, and what each register reads (R10, R27 to R32, R76, R77, R541
to R553; the register tables of every chapter).
-/
namespace Sys2Proof.Machine

/-! ### The windows and the five steps (R541 to R543) -/

inductive Window where
  | mgt
  | part (p : Nat)
  | group
  | engines
  | test
  deriving DecidableEq, Repr

/-- The window of an address (R541). -/
def windowOf (a : Nat) : Option Window :=
  if a < 0x100000 then some .mgt
  else if a < 0x500000 then some (.part ((a - 0x100000) / 0x10000))
  else if a < 0x600000 then some .group
  else if a < 0x700000 then some .engines
  else if a < 0x800000 then some .test
  else none

/-- An alias of an engine class: the register of one engine, its instances, and whether the group alias is meant (R532, R533, R548). -/
structure Alias where
  id : RegId
  code : Nat
  count : Nat
  group : Bool
  deriving DecidableEq, Repr

/-- The base of a class in the individual engine window and its instances, by alias code (R548). -/
def aliasClass : Nat → Option (Nat × Nat)
  | 0 => some (0x600000, 48)
  | 3 => some (0x630000, 32)
  | 4 => some (0x650000, 16)
  | 5 => some (0x660000, 4)
  | 6 => some (0x670000, 8)
  | _ => none

/-- The alias that an address names. -/
def aliasAt (a : Nat) : Option Alias :=
  if a < 0x500000 ∨ 0x600000 ≤ a then none
  else
    let o := a - 0x500000
    let c := o % 0x80000 / 0x10000
    let r := o % 0x10000
    match aliasClass c with
    | some (base, n) =>
      if 0x1000 ≤ r then none
      else (regAt (base + r)).map (fun x => { id := x.id, code := c, count := n, group := decide (0x80000 ≤ o) })
    | none => none

/-- What an address of the port names: a register, an alias of one, or nothing. -/
structure Target where
  addr : Nat
  reg : Option RegRef := none
  alias_ : Option Alias := none
  deriving DecidableEq, Repr

/-- What an address names. -/
def targetOf (a : Nat) : Target := { addr := a, reg := regAt a, alias_ := aliasAt a }

/-- A register by its name. -/
def RegId.target (r : RegId) (i j : Nat) : Target := { addr := r.addr i j, reg := some { id := r, i := i, j := j } }

/-- A register occupies the address (R545). -/
def Target.occupied (t : Target) : Bool := t.reg.isSome || t.alias_.isSome

/-- Step 2: the debug port is admitted (R32, R450); in DECOMMISSIONED and LC_LOCKED for reads alone. -/
def State.debugAdmits (s : State) (write : Bool) : Bool :=
  s.pins.dbgEn &&
  (if s.lc = lcDeployed then s.regB .lcStatus 19
   else if s.lc = lcDecom ∨ s.lc = lcLocked then !write
   else s.lc ≠ lcDecoding)

/-- Registers that P0 reads before READY: MGT_, LC_, TMP_, FLT_ and LIF_ (R76). -/
def statusAddr (a : Nat) : Bool :=
  decide (a < 0x010000) || (decide (0x020000 ≤ a) && decide (a < 0x050000)) || (decide (0x070000 ≤ a) && decide (a < 0x080000))

/-- Registers of the signed unlock, and of the life-cycle commands (R76, R77). -/
def unlockReg : RegId → Bool
  | .tmpUnlockCtrl | .tmpUnlockAddrLo | .tmpUnlockAddrHi | .tmpUnlockLen | .tmpUnlockChal => true
  | _ => false
def transitionReg : RegId → Bool
  | .lcCtrl | .lcToken => true
  | _ => false

/-- Registers that P0 writes before READY and in REJECTED; on a LIMITED path the list is R77's. -/
def State.earlyWrite (s : State) (r : RegId) : Bool :=
  if s.phase = phLimited then
    if s.regB .tmpStatus 31 then unlockReg r else decide (s.lc = lcLocked) && transitionReg r
  else
    match r with
    | .fltAck | .fltPin | .fltStatusLo | .fltStatusHi => true
    | .mgtReload => decide (s.phase = phRejected)
    | _ => unlockReg r || transitionReg r

/-- Step 3 (R76, R542). -/
def State.phaseAdmits (s : State) (write : Bool) (t : Target) : Bool :=
  if write && s.safe && !decide (t.reg.map (·.id) = some .mgtRcvCtrl) then true
  else if s.phase = phReady then true
  else
    match windowOf t.addr, t.reg with
    | some .mgt, some r => decide (s.lc ≠ lcDecoding) && (if write then s.earlyWrite r.id else statusAddr t.addr)
    | _, _ => false

/-- Writes to a partition window by its own partition (R543). -/
def State.mayWritePart (s : State) (acc : Access) (p : Nat) (x : Option RegRef) : Bool :=
  match x with
  | none => acc.priv
  | some r =>
    match r.id.row.part with
    | .doorbell => true
    | .keyStage => acc.priv && s.keyWrite p
    | .privileged => acc.priv

/-- Step 4 (R543). -/
def State.mayUse (s : State) (acc : Access) (write : Bool) (t : Target) : Bool :=
  let p0 := decide (acc.ptn.val = 0) && acc.priv
  match windowOf t.addr with
  | some (.part p) =>
    s.enabled p && decide (acc.ptn.val = p) &&
    (!write || s.mayWritePart acc p t.reg)
  | some .test => p0 && (decide (s.lc = lcBlank) || decide (s.lc = lcFactory))
  | some _ => p0
  | none => false

/-- The response that an access receives (R542). -/
def State.judge (s : State) (acc : Access) (write : Bool) (t : Target) : Rsp :=
  if windowOf t.addr = none then .unmapped
  else if acc.dbg && !s.debugAdmits write then .refused
  else if !s.phaseAdmits write t then .refused
  else if !s.mayUse acc write t then .refused
  else if t.occupied then .okay
  else .unmapped

/-- The access log (R552). -/
def State.logAccess (s : State) (acc : Access) (write : Bool) (a : Nat) (rsp : Rsp) : State :=
  if s.regB .mgtAccLogA 31 then s.setB .mgtAccLogA 30 true
  else
    (s.setReg .mgtAccLogA (BitVec.ofNat 32 (2 ^ 31 + (if rsp = .refused then 1 else 2) * 2 ^ 28 + b2n write * 2 ^ 27 + b2n acc.dbg * 2 ^ 26 +
      b2n acc.priv * 2 ^ 25 + acc.ptn.val))).setReg .mgtAccLogB (BitVec.ofNat 32 a)

/-- An address that the port can carry: aligned, and within the aperture (R27). -/
def portAddr (a : Nat) : Bool := decide (a % 4 = 0) && decide (a < 0x1000000)

/-! ### What registers read -/

/-- A word composed of fields: value and lowest bit. -/
def pack (fs : List (Nat × Nat)) : W32 := BitVec.ofNat 32 ((fs.map (fun f => f.1 * 2 ^ f.2)).sum)

/-- STATE, PTN, OPCODE and ALG of an engine's status word. -/
def engineWord (r : Option Req) (state : Nat) : W32 :=
  match r with
  | some r => pack [(state, 0), (r.desc.alg.toNat, 8), (r.desc.opcode.toNat, 16), (r.ptn, 24)]
  | none => pack [(state, 0)]

/-- The request that an instance serves, or has joined. -/
def State.served (s : State) (u : Unit) (n : Nat) : Option Req :=
  s.reqs.find? (fun r => r.servedBy u n)

/-- Status words of the engines: OFF 0, IDLE 1, BUSY 2, then what each class adds. -/
def State.engineStatus (s : State) (u : Unit) (n : Nat) : W32 :=
  let c := u.code
  let r := s.served u n
  let out := match c with | 1 => 5 | 2 => 4 | 3 => 5 | 4 => 3 | _ => 5
  if s.outMarks.contains (c, s.physical c n) then engineWord r out
  else if s.domState (s.unitDomain c n) = 0 then engineWord none 0
  else if c = 3 ∧ (s.ply n).restoring then engineWord none (if (s.ply n).woken then 4 else 5)
  else
    match r with
    | some x =>
      if c = 2 ∧ x.joined.contains n then engineWord r 3
      else if c = 3 ∧ x.phase = .paused then engineWord r 3
      else engineWord r 2
    | none => engineWord none (if s.internal.contains (c, n) then (if c = 5 then 4 else 2) else 1)

/-- BSN_QSTAT of queue q: its lane's request, or the staged image and the compaction table. -/
def State.queueStat (s : State) (q : Nat) : W32 :=
  if q = 0x7E0 then
    let occ := s.stageOcc
    pack [(min 0x7FF (s.boot.stageCells.length - occ), 0), (min 0x7FF occ, 12), (b2n (!s.boot.stageCells.isEmpty), 31)]
  else if q = 0x7E1 then
    match s.hbs.compact with
    | some c => pack [(min 0x7FF c.cells.length, 12), (1, 31)]
    | none => 0
  else
    match s.reqs.find? (fun r => r.bas.lane = some (q / 2)) with
    | none => 0
    | some r =>
      let occ := if q % 2 = 0 then r.occIn else r.occOut
      let held := if q % 2 = 0 then r.bas.inBanks.length else r.bas.outBanks.length
      pack [(min 0x7FF (held - occ), 0), (min 0x7FF occ, 12), (r.ptn, 24), (1, 31)]

/-- Entries that occupy holding entries of a partition, for one completion ring or for all. -/
def State.heldEntries (s : State) (p : Nat) (c : Option Nat) : Nat :=
  (s.cu.filter (fun e => e.ptn = p && c.all (fun c => e.cq == c) && ((s.findReq e.req).any (fun r => r.place == .holding)))).length +
  s.heldOut p c

/-- SQ_STATUS.OUTSTANDING: descriptors fetched, in requests or on their way to frames. -/
def State.outstanding (s : State) (p n : Nat) : Nat :=
  (s.ringReqs p n).length +
  ((s.lks.map (fun l => match l.fetch with
    | some f => if f.ptn = p ∧ f.ring = n then f.got.length else 0
    | none => 0)).sum)

/-- Dispatch of the ring waits for a completion credit: the partition's holding entries are all in use (R115), or a single or a tow
that has been fetched lacks its places (R114, R116). -/
def State.waitsCredit (s : State) (p n : Nat) : Bool :=
  (decide (s.sqState p n = 1 ∧ s.sqAvail p n ≠ 0 ∧ 256 ≤ s.holdingUsed p) && s.enabled p) ||
  (s.ringReqs p n).any (fun r => r.phase == .fetched && r.pos == 0 &&
    (s.places p n (((r.tow.bind s.findTow).map (·.members.length)).getD 1) 0 0).isNone)

/-- OWNER and DEVICE of LC_ROOT_STATUS: 1 or 2 the field sealed, 3 both used and none sealed. -/
def State.rootState (s : State) (owner : Bool) : Nat :=
  let base := if owner then 2 else 0
  let used (i : Nat) : Bool := !allZero (s.otpBytes (0x100 + 8 * (base + i)) 8)
  match s.rootField owner with
  | some i => i - base + 1
  | none => if used 0 && used 1 then 3 else 0

/-- A command of KEY_SLOT_CTRL waits for earlier users (R24). -/
def State.slotBusy (s : State) : Bool := s.keys.any (fun e => e.2.doom == .clear || e.2.doom == .invalidate)

/-- A queued engine request would start but for the cap. -/
def State.capHolds (s : State) : Bool :=
  s.capEff ≠ 0 && s.reqs.any (fun r => r.phase == .queued && r.ready && decide (1 ≤ r.unit.code ∧ r.unit.code ≤ 5) &&
    (let ns := (numsFrom 0 (classSize r.unit.code)).filter (fun n => !s.unitOut r.unit.code n && !s.unitTaken r.unit n)
     !ns.isEmpty && ns.all (fun n => !s.capAllows r.unit.code n)))

/-- What the registers of the management window read beyond the words stored for them. -/
def State.readMgt (s : State) (r : RegId) (i j : Nat) : W32 :=
  let w := s.reg r i j
  match r with
  | .mgtStatus => setBit w 14 ((numsFrom 0 16).any (fun n => [1, 2].contains (s.regF .crvStatus 2 0 n)) ||
      s.curves.jobs.any (fun j => j.change != .clear))
  | .mgtSvFloor => BitVec.ofNat 32 s.svFloor
  | .mgtSvCommit => pack [(b2n (s.otpJobs.any (fun x => x.purpose == .svFloor)), 0)]
  | .mgtPtnA => setBit w 28 (s.isolated i)
  | .mgtPtnReset => setBit w 31 (s.resets.any (fun x => x.ptn = fld w 5 0))
  | .keyStatus =>
    let live := (s.keys.filter (fun e => e.2.state != .empty)).length
    setFld (setFld w 13 0 (8192 - live)) 29 16 (s.keys.filter (fun e => e.2.state == .bad)).length
  | .keySlotCtrl => setBit w 31 s.slotBusy
  | .keySlotAttrLo => BitVec.ofNat 32 (s.key (s.regF .keySlotCtrl 12 0)).attr
  | .keySlotAttrHi => BitVec.ofNat 32 ((s.key (s.regF .keySlotCtrl 12 0)).attr / 2 ^ 32)
  | .keyPtnGen => BitVec.ofNat 32 (s.ptnGen i)
  | .lcRootStatus =>
    pack ([(s.rootState false, 0), (s.rootState true, 2)] ++
      (numsFrom 0 7).map (fun n => (b2n (!allZero (s.otpBytes (digestField n) 8)), 8 + n)))
  | .tmpStatus => setBit (setBit w 30 (s.inForce 3)) 29 (s.inForce 2)
  | .tmpSrcStatus => setBit w 2 (s.tmpDisabled i)
  | .tmpSrcCfg => if i = 11 then setFld w 31 24 s.keepLostSet else w
  | .tmpUnlockChal => if s.lc = lcFactory ∨ s.lc = lcProvisioned then 0 else w
  | .pwrStatus =>
    pack [(min 0xFFFF s.estimate, 16), (s.capEff, 8), (b2n s.capHolds, 2), (s.pick % 2, 1), (b2n (!s.power.capSusp.isEmpty), 0)]
  | .pwrDomState => pack ((numsFrom 0 16).map (fun n => (s.domState (16 * i + n), 2 * n)))
  | .lifCalLo => BitVec.ofNat 32 s.seconds
  | .lifCalHi => pack [(s.seconds / 2 ^ 32 % 2 ^ 16, 0), (s.pick % 2 ^ 15, 16)]
  | .lifValLo => BitVec.ofNat 32 (getKey 0 s.life.counts (s.regF .lifSel 9 0))
  | .lifValHi => BitVec.ofNat 32 (getKey 0 s.life.counts (s.regF .lifSel 9 0) / 2 ^ 32)
  | .lifValStat => pack [(b2n (decide (2 ^ 64 - 1 ≤ getKey 0 s.life.counts (s.regF .lifSel 9 0))), 0)]
  | .rngStatus => setBit (setFld w 31 24 s.rng.pool.length) 8
      (s.reqs.any (fun x => decide (x.phase = .running) && x.desc.opIs .getRandom && x.desc.param.getLsbD 0 && (decide (s.rng.pool.length < 2) || s.rng.rootWaits)))
  | .qosUsage => pack [(s.linesOf i, 16), (s.towsOf i, 0)]
  | .lkStatus =>
    let l := s.lk i
    pack [(l.state.code, 0), (b2n (bitOf w 6), 6), (b2n l.emuEn, 7), ((l.frames.filter (·.valid)).length, 8), (l.cause, 16)]
  | .lkHalt => pack [((s.lk i).haltPc.toNat, 0), ((s.lk i).haltCtx, 16)]
  | .lkFwTag => (s.lk i).fwTag
  | .lkDispatched => (s.lk i).dispatched
  | .bsnStatus => pack [(s.isoFree, 0), (s.sharedFree, 16)]
  | .bsnQstat => s.queueStat i
  | .brtStatus =>
    pack [(16384 - s.berths.length, 0), ((s.berths.filter (fun e => e.2.state == .invalid)).length, 16), (b2n (bitOf w 31), 31)]
  | .hbsStatus => setFld w 6 0 (s.keep.recs.filter (fun x => x.state ≠ 0)).length
  | .hbsRecState =>
    let x := s.keep.recs.getD i {}
    pack [(b2n x.pending, 23), (x.owner, 24), (x.state, 30)]
  | .hbsRecNextLo => BitVec.ofNat 32 (s.keep.recs.getD i {}).next
  | .hbsRecNextHi => BitVec.ofNat 32 ((s.keep.recs.getD i {}).next / 2 ^ 32)
  | .hbsRecHighLo => BitVec.ofNat 32 (s.keep.recs.getD i {}).high
  | .hbsRecHighHi => BitVec.ofNat 32 ((s.keep.recs.getD i {}).high / 2 ^ 32)
  | .hbsRecId => BitVec.ofNat 32 (le32 (s.keep.recs.getD i {}).keyId (4 * j))
  | .ckcStatus => pack [(s.ckcIsoFree, 0), (s.ckcSharedFree, 16)]
  | .ckcPtn => setFld w 9 0 (s.ckcUsed i)
  | .crvStatus => setFld w 25 16 (le16 (getKey [] s.curves.entries i) 2)
  | _ => w

/-- What every register reads (R10): WO bits are zero, and registers that show the state of a unit are composed from it. -/
def State.readReg (s : State) (x : RegRef) : W32 :=
  let i := x.i
  let w := s.reg x.id i x.j
  let v := match x.id with
    | .ptnStatus => setFld (setBit (setBit w 15 (s.resets.any (fun r => r.ptn = i))) 12 (s.isolated i)) 8 0 (s.heldEntries i none)
    | .sqStatus => setBit (setFld w 31 16 (s.outstanding i x.j)) 6 (s.waitsCredit i x.j)
    | .cqStatus => setFld w 24 16 (s.heldEntries i (some x.j))
    | .brtPtnStatus => pack [(s.berthsOwned i, 0), (s.berthQuota i, 16)]
    | .rngPtnStatus => setFld w 2 0 s.rngState
    | .keyPtnStatus => pack [(s.slotsOwned i, 0), (s.keyQuota i, 16)]
    | .keyCommit => 0
    | .symStatus => s.engineStatus .sym i
    | .hshStatus => s.engineStatus .hsh i
    | .plyStatus => s.engineStatus .ply i
    | .codStatus => s.engineStatus .cod i
    | .bneStatus => s.engineStatus .bne i
    | .plyCache => pack [(12 - (s.ply i).areas.length, 0)]
    | .plyRcpTag => (s.ply i).rcp.tag
    | .bneSlots =>
      let o := s.operandsAt i
      pack [(o.freeSlots.length, 0), (o.total, 16), (o.groups.length, 24)]
    | .rngRaw => s.rawSamples i
    | id => s.readMgt id i x.j
  v &&& ~~~(BitVec.ofNat 32 x.id.row.wo)

/-- The high half that a read of a low half latches (R538). -/
def latchedHalf : RegId → Option RegId
  | .lifCalLo => some .lifCalHi
  | .lifValLo => some .lifValHi
  | .keySlotAttrLo => some .keySlotAttrHi
  | .tmpSrcFirstLo => some .tmpSrcFirstHi
  | .tmpSrcLastLo => some .tmpSrcLastHi
  | .hbsRecNextLo => some .hbsRecNextHi
  | .hbsRecHighLo => some .hbsRecHighHi
  | _ => none

/-- High halves return what was latched (R553). -/
def isLatched : RegId → Bool
  | .lifCalHi | .lifValHi | .keySlotAttrHi | .tmpSrcFirstHi | .tmpSrcLastHi | .hbsRecNextHi | .hbsRecHighHi => true
  | _ => false

/-- Registers whose reading shows a free value. -/
def readsFree : RegId → Bool
  | .lifCalLo | .pwrStatus => true
  | _ => false

/-- The machine with the port's response and read data. -/
def State.respond (s : State) (rsp : Rsp) (v : W32) : State := { s with port := { s.port with rsp := rsp, rdata := v, earlier := [] } }

/-- A read of one register, with its side effects (R402, R411, R538, R553). -/
def State.readOne (s : State) (x : RegRef) : State :=
  if x.id = .rngData then
    let (s, v) := s.rngDataRead x.i
    s.respond .okay v
  else if isLatched x.id then s.respond .okay s.port.latchHi
  else
    let v := s.readReg x
    let hi := match latchedHalf x.id with
      | some h => s.readReg { x with id := h }
      | none => s.port.latchHi
    let s := if readsFree x.id then s.drawn else if x.id = .rngRaw then s.rawRead x.i else s
    ({ s with port := { s.port with latchHi := hi } } : State).respond .okay v

/-- The instances that a write through an alias reaches (R532, R533). -/
def State.aliasTargets (s : State) (x : Alias) : List Nat :=
  if x.group then
    (numsFrom 0 x.count).filter (fun n => bitOf (s.reg (if n < 32 then .engGroupSelLo else .engGroupSelHi) x.code) (n % 32))
  else numsFrom 0 x.count

/-- The port accepts no access while fab_clk is stopped: the front asks for the clock, and the access waits (R525). At most 8 accesses
have no response (R29). DESIGN CHOICE: a further one is not taken and leaves nothing; log entry 116. -/
def State.offerAccess (s : State) (x : Offered) : State :=
  if 8 ≤ s.port.waiting.length then s
  else { s with port := { s.port with waiting := s.port.waiting ++ [x] }, pins := { s.pins with fabReq := true } }

/-- An accepted read of what an address names (R542, R544, R549). -/
def State.readNow (s : State) (acc : Access) (t : Target) : State :=
  match s.judge acc false t with
  | .okay =>
    match t.alias_, t.reg with
    | some x, _ =>
      if x.group then
        match s.aliasTargets x with
        | n :: _ => s.readOne { id := x.id, i := n }
        | [] => s.respond .okay 0
      else s.readOne { id := x.id, i := 0 }
    | none, some x => s.readOne x
    | none, none => s
  | rsp => (s.logAccess acc false t.addr rsp).respond rsp 0

/-- A read of what an address names. -/
def State.readTarget (s : State) (acc : Access) (t : Target) : State :=
  if s.pins.fabRun then s.readNow acc t else s.offerAccess { acc := acc, write := false, addr := t.addr }

/-- A read of the register port. -/
def State.portRead (s : State) (acc : Access) (a : Nat) : State :=
  if portAddr a then s.readTarget acc (targetOf a) else s

end Sys2Proof.Machine
end

