-- ==== Sys2Proof/Machine/RegWrite.lean ====
section
/-!
DEFINITION. What a write does to each register (R10 to R12, and the register tables of every chapter), and the writes and reads of the
register port as commands (R542).
-/
namespace Sys2Proof.Machine

/-! ### Writes by field type (R10, R12, R551) -/

/-- The RW and RWL bits that a write sets: none of the bits of a WO field, and no bit of a locked group (R550, R551). -/
def State.locked (s : State) (r : RegId) : Bool :=
  match r.row.lock with
  | some g => s.regB .mgtLocks g
  | none => false

/-- The word `old` after a write of d by its masks: RW and RWL bits are set, 1s clear W1C bits. -/
def written (old d wr w1c : W32) : W32 := ((old &&& ~~~wr) ||| (d &&& wr)) &&& ~~~(d &&& w1c)

/-- The RW and RWL bits of a register that writes set. -/
def RegRow.setBits (w : RegRow) : W32 := BitVec.ofNat 32 w.wr &&& ~~~(BitVec.ofNat 32 w.wo)

/-- A register is written anew: its parity matches again (R507). -/
def State.rewritten (s : State) (a : Nat) : State := { s with flt := { s.flt with badRegs := s.flt.badRegs.filter (· ≠ a) } }

/-- A write by the field types, to the bits of `mask`. -/
def State.storeMasked (s : State) (x : RegRef) (d mask : W32) : State :=
  let w := x.id.row
  let wr := if s.locked x.id then 0 else w.setBits &&& mask
  (if wr = 0 then s else s.rewritten x.addr).setReg x.id (written (s.reg x.id x.i x.j) d wr (BitVec.ofNat 32 w.w1c)) x.i x.j

/-- A write by the field types. -/
def State.store (s : State) (x : RegRef) (d : W32) : State := s.storeMasked x d 0xFFFFFFFF

/-- Level-type sources whose cause persists (R12, R507, R515). -/
def State.fltLevel (s : State) (src : Nat) : Bool :=
  (decide (0x21 ≤ src ∧ src ≤ 0x23) && decide (s.srcState (src - 0x21) = 3)) ||
  (decide (src = srcRngTotalFail) && decide (s.rngState = rngHalted)) || (decide (src = srcPmHandshake) && !s.power.late.isEmpty) ||
  (decide (src = srcCfgParity) && !s.flt.badRegs.isEmpty)

/-- The bits of FLT_STATUS that no write clears now: lo is word 0. -/
def State.fltStuck (s : State) (word : Nat) : W32 :=
  pack ((numsFrom 0 32).map (fun i => (b2n (s.fltLevel (32 * word + i)), i)))

/-! ### Key-store control (R24, R416, R437, R453) -/

def State.slotErr (s : State) : State := s.setB .keySlotCtrl 30 true

/-- REASSIGN: VALID or RESERVED RAW keys, within the new owner's quota. -/
def State.slotReassign (s : State) (i p : Nat) : State :=
  let k := s.key i
  if (k.state ≠ .valid ∧ k.state ≠ .reserved) ∨ k.kind ≠ 0 ∨ k.pair = 2 ∨ k.doomed ∨ s.halfOut (halfOf i) ∨ !s.enabled p then s.slotErr
  else if s.keyQuota p < s.slotsOwned p + (s.slotsOf i).length then s.slotErr
  else (s.slotsOf i).foldl (fun s j => (s.clearRoundKeys false j).putSlot j { s.key j with owner := p }) s

/-- RESTORE_HALF, of a half that is out of service. -/
def State.restoreHalf (s : State) (h : Nat) : State :=
  if !s.halfOut h then s.slotErr
  else
    let s := ((s.keys.map (·.1)).filter (fun i => halfOf i = h)).foldl State.clearSlot s
    s.setB .keyStatus (30 + h) false

/-- A write of GO to KEY_SLOT_CTRL, once its fields are set. CLEAR of an EMPTY slot is in the wrong state. -/
def State.slotCtrl (s : State) : State :=
  let i := s.regF .keySlotCtrl 12 0
  let p := s.regF .keySlotCtrl 27 22
  match s.regF .keySlotCtrl 29 28 with
  | 0 =>
    if (s.key i).state = .empty ∨ (s.key i).pair = 2 then s.slotErr
    -- DESIGN CHOICE: a destruction that is already decided stands, also one to INVALID; log entry 17.
    else if (s.key i).doomed then s
    else s.doomSlot i .clear
  | 1 => s.slotReassign i p
  | 2 =>
    ((s.keys.filter (fun e => decide (e.2.owner = p) && e.2.state != .empty && e.2.state != .invalid && e.2.pair != 2 && !e.2.doomed)).map
      (·.1)).foldl (fun s i => s.doomSlot i .invalidate) s
  | _ => s.restoreHalf (s.regF .keySlotCtrl 13 13)

/-- A write of KEY_PTN_GEN p: it only raises the generation (R437). -/
def State.genWrite (s : State) (p v : Nat) : State :=
  if v ≤ s.ptnGen p then s.slotErr else { s with keep := { s.keep with ptnGen := setKey 0 s.keep.ptnGen p v } }

/-- KEY_COMMIT with GO starts a commit; while one runs, staging is not written (R422). -/
def State.commitGo (s : State) (p : Nat) (d : W32) : State :=
  if bitOf d 31 then (s.setReg .keyCommit d p).setB .keyStageStatus 31 true p else s

/-! ### Berths, curves, operand memories, Lockkeepers -/

/-- A write of GO to BRT_CTRL, once its fields are set (R258, R267). -/
def State.brtCtrl (s : State) : State :=
  let p := s.regF .brtCtrl 29 24
  let own := s.berths.filter (fun e => e.2.owner = p)
  match s.regF .brtCtrl 1 0 with
  | 0 => (own.map (·.1)).foldl (fun s i => s.loseBerth i .berthInvalid) s
  | 1 => ((own.filter (fun e => e.2.state == .invalid)).map (·.1)).foldl State.freeBerth s
  | _ => s.setB .brtStatus 31 true

/-- A write of GO or CLEAR to CRV_CTRL, once INDEX is set (R382, R383); a host address that is not aligned is refused. While the apply
of a CURVES section changes the table, the write is ignored (R102). -/
def State.crvCtrl (s : State) (go clear : Bool) : State :=
  let i := s.regF .crvCtrl 3 0
  if (go || clear) && s.applying 8 then s.setB .mgtStatus 15 true
  else if go && clear then s.setB .crvCtrl 29 true
  else if go then
    if s.curves.fetch.isSome then s
    else if s.regF .crvLoadAddrLo 5 0 ≠ 0 then s.setB .crvCtrl 29 true
    else { s.setB .crvCtrl 31 true with curves := { s.curves with fetch := some (i, []) } }
  else if clear then s.changeCurve i .clear
  else s

/-- A write of SLOT_WORDS: the engine takes no new allocation until it holds none (R359). -/
def State.slotWords (s : State) (n : Nat) : State := s.updOperands n (fun o => { o with waiting := true })

/-- A write of LK_CTRL, once CLONE_SRC is set (R214, R215). -/
def State.lkCtrl (s : State) (n : Nat) (d : W32) : State :=
  let s := if bitOf d 1 then s.lkDrain n else s
  let s := if bitOf d 2 then s.lkRestartCmd n else s
  if bitOf d 3 then s.lkClone n (s.regF .lkCtrl 6 4 n) else s

/-! ### Writes to each register -/

/-- A write to the shadows of the scheduler: dropped while an apply changes them (R102, R177). -/
def State.qosWrite (s : State) (x : RegRef) (d : W32) : State :=
  if s.sched.applyWaits then s.setB .mgtStatus 15 true else s.store x d

/-- Bits of FLT_SRC_CFG that are writable for a source: SEVERITY of 0x29 and of 0x3F is fixed; promotion fields only on promotable
sources (R507, R508). -/
def fltCfgMask (src : Nat) : W32 :=
  if src = 0x3F ∨ src = 0x29 then 0x0000FFFF
  else if srcPromotable src then 0xFFFFFFFF
  else 0xE000FFFF

/-- Writes to the start-up, partition and recovery registers. -/
def State.writeMgt (s : State) (x : RegRef) (d : W32) : State :=
  match x.id with
  | .mgtSvCommit => if bitOf d 0 then s.svCommit else s
  | .mgtReload => if bitOf d 0 then s.reload else s
  | .mgtStage =>
    let s := if bitOf d 1 then s.stageDiscard else s
    if bitOf d 0 then s.stageGo else s
  | .mgtApply => if bitOf d 31 then s.applyGo (fld d 5 0) else s
  | .mgtAccLogA => if bitOf d 31 then (s.setB .mgtAccLogA 31 false).setB .mgtAccLogA 30 false else s
  | .mgtPtnA => if s.locked .mgtPtnA then s else s.ptnWrite x.i 0 d
  | .mgtPtnB => if s.locked .mgtPtnB then s else s.ptnWrite x.i 1 d
  | .mgtPtnC => if s.locked .mgtPtnC then s else s.ptnWrite x.i 2 d
  | .mgtPtnReset => let s := s.store x d; if bitOf d 31 then s.mgtReset else s
  | .mgtRcvCtrl => let s := s.store x d; if bitOf d 31 then s.rcvGo else s
  | _ => s.store x d

/-- Writes to the key store's, the life cycle's and the tamper monitors' registers. -/
def State.writeKeys (s : State) (x : RegRef) (d : W32) : State :=
  match x.id with
  | .keySlotCtrl => let s := s.store x d; if bitOf d 31 then s.slotCtrl else s
  | .keyPtnGen => s.genWrite x.i (fld d 15 0)
  | .lcCtrl =>
    if s.regB .lcStatus 31 then s
    else
      let s := s.store x d
      if bitOf d 31 then s.lcCommand else s
  | .lcToken => if s.regB .lcStatus 31 then s else s.setReg .lcToken d x.i
  | .tmpCfg => (s.store x d).capLowered
  | .tmpFlagClear => s.flagClear (fld d 11 0)
  | .tmpUnlockCtrl =>
    let s := s.store x d
    let s := if bitOf d 30 then s.unlockNew else s
    if bitOf d 31 then s.unlockGo else s
  | .tmpUnlockChal => if s.lc = lcFactory ∨ s.lc = lcProvisioned then s.setReg .tmpUnlockChal d x.i else s
  | .tmpOtpCtrl =>
    let busy := s.regB .tmpOtpCtrl 31
    let s := s.store x d
    if bitOf d 31 && !busy then s.tmpOtp else s
  | .tmpSrcCfg => (s.store x d).copyTmpCfg
  | .tmpSrcParam => if tmpParamOk x.i (fld d 15 0) then s.store x d else s
  | _ => s.store x d

/-- Writes to the fault collector's, the power controller's, the calendar's and the RNG's registers. -/
def State.writeUnits (s : State) (x : RegRef) (d : W32) : State :=
  match x.id with
  | .fltStatusLo => s.store x (d &&& ~~~(s.fltStuck 0))
  | .fltStatusHi => s.store x (d &&& ~~~(s.fltStuck 1))
  | .fltAck => if bitOf d 0 then s.fltAck else s
  | .fltPin => if bitOf d 0 then s.fltPin else s
  | .fltInject =>
    if bitOf d 31 && decide (s.lc ≠ lcFactory) then s.setB .fltEsc 22 true
    else
      let s := s.store x d
      if bitOf d 31 then s.fltInject else s
  | .fltSrcCfg => s.storeMasked x d (fltCfgMask x.i)
  | .pwrCfg => (s.store x d).capLowered
  | .pwrUnitCtrl => let s := s.store x d; if bitOf d 31 then s.unitGo else s
  | .lifCalCtrl => if bitOf d 0 && !s.locked .lifCalCtrl then s.calSet else s
  | .rngCtrl => let s := s.store x d; if bitOf d 0 then s.rngReset else s
  | .rngSrcCtrl => if bitOf d 0 then s.rngRecal x.i else s
  | _ => s.store x d

/-- Writes to the scheduler's, Lockkeepers', Basin's and memories' registers, and to the engines'. -/
def State.writePath (s : State) (x : RegRef) (d : W32) : State :=
  match x.id with
  | .qosCtrl => s.qosCtrl (bitOf d 0) (bitOf d 1)
  | .qosPtnCfg | .qosPtnLim | .qosRingCfg | .qosRsvA | .qosRsvB => s.qosWrite x d
  | .qosViolCtrl =>
    let s := s.store x d
    if bitOf d 31 then s.violClear (bitOf d 30) (fld d 5 0) else s
  | .lkCtrl => (s.store x d).lkCtrl x.i d
  | .bsnQcfg =>
    if x.i = 0x7E0 ∨ x.i = 0x7E1 then s else s.store x d
  | .bsnQctrl => if bitOf d 0 then s.flushQueue x.i else s
  | .brtCtrl => let s := s.store x d; if bitOf d 31 then s.brtCtrl else s
  | .crvCtrl => (s.store x d).crvCtrl (bitOf d 31) (bitOf d 30)
  | .bneCfg => (s.store x d).slotWords x.i
  | _ => s.store x d

/-- Writes to a partition window. -/
def State.writePart (s : State) (x : RegRef) (d : W32) : State :=
  let p := x.i
  let n := x.j
  let busy := s.regB .keyStageStatus 31 p
  match x.id with
  | .ptnCtrl => if bitOf d 0 then s.resetStart p (bitOf d 1) else s
  | .sqBaseLo | .sqBaseHi | .sqCfg => if s.sqState p n = 0 ∨ s.sqState p n = 3 then s.store x d else s
  | .cqBaseLo | .cqBaseHi | .cqCfg => if s.cqState p n = 0 then s.store x d else s
  | .sqCtrl => s.sqCtrl p n (bitOf d 0) (bitOf d 1)
  | .cqCtrl => s.cqCtrl p n (bitOf d 0) (bitOf d 1) (bitOf d 2)
  | .sqDb => s.sqDoorbell p n (fld d 16 0)
  | .cqDb => s.cqDoorbell p n (fld d 16 0)
  | .keyStage => if busy then s else { s with staging := setKey 0 s.staging (16 * p + n) d }
  | .keyStageAttr => if busy then s else s.store x d
  | .keyCommit => if busy then s else s.commitGo p d
  | _ => s.store x d

/-- A write to a register, by the part of the map that it lies in. -/
def State.writeReg (s : State) (x : RegRef) (d : W32) : State :=
  let a := x.addr
  if a < 0x010000 then s.writeMgt x d
  else if a < 0x040000 then s.writeKeys x d
  else if a < 0x080000 then s.writeUnits x d
  else if 0x100000 ≤ a ∧ a < 0x500000 then s.writePart x d
  else s.writePath x d

/-- A write to what an address names, through an alias to each instance that it reaches (R532, R533). -/
def State.writeAt (s : State) (t : Target) (d : W32) : State :=
  match t.alias_, t.reg with
  | some x, _ => (s.aliasTargets x).foldl (fun s n => s.writeReg { id := x.id, i := n } d) s
  | none, some x => s.writeReg x d
  | none, none => s

/-- What the safe state still carries out: requests for recovery, and doorbells (R516). -/
def safeWrite (t : Target) : Bool :=
  match t.reg with
  | some x => x.id = .mgtRcvCtrl || x.id = .sqDb || x.id = .cqDb
  | none => false

/-- A recovery request in a phase other than READY is refused with CTRL_ERR as well as at the port (R76, R479). -/
def State.refusedGo (s : State) (acc : Access) (t : Target) (d : W32) : State :=
  if t.reg.map (·.id) = some .mgtRcvCtrl ∧ bitOf d 31 ∧ s.phase ≠ phReady ∧ s.mayUse acc true t ∧ (!acc.dbg || s.debugAdmits true) then
    s.setB .mgtRcvCtrl 30 true
  else s

/-- An accepted write (R542, R544). -/
def State.writeNow (s : State) (acc : Access) (t : Target) (d : W32) : State :=
  match s.judge acc true t with
  | .okay => (if s.safe && !safeWrite t then s else s.writeAt t d).respond .okay 0
  | rsp => ((s.refusedGo acc t d).logAccess acc true t.addr rsp).respond rsp 0

/-- A write to what an address names. -/
def State.writeTarget (s : State) (acc : Access) (t : Target) (d : W32) : State :=
  if s.pins.fabRun then s.writeNow acc t d else s.offerAccess { acc := acc, write := true, addr := t.addr, data := d }

/-- The accesses that waited for fab_clk are carried out in their order (R525). -/
def State.servePort (s : State) : State :=
  if s.port.waiting.isEmpty then s
  else
    let (s, rs) := s.port.waiting.foldl (fun e x =>
      let s := if x.write then e.1.writeNow x.acc (targetOf x.addr) x.data else e.1.readNow x.acc (targetOf x.addr)
      (s, e.2 ++ [(s.port.rsp, s.port.rdata)])) (({ s with port := { s.port with waiting := [] } } : State), ([] : List (Rsp × W32)))
    { s with port := { s.port with earlier := rs.dropLast } }

/-- CLOCK_ACK: a requested clock runs (R63); the register port goes on (R525). -/
def State.clockAck (s : State) (eng : Bool) : State :=
  if eng then (if s.pins.engReq then { s with pins := { s.pins with engRun := true } } else s)
  else if s.pins.fabReq then State.servePort { s with pins := { s.pins with fabRun := true } } else s

/-- A write of the register port. -/
def State.portWrite (s : State) (acc : Access) (a : Nat) (d : W32) : State :=
  if portAddr a then s.writeTarget acc (targetOf a) d else s

/-- A write to a register by its name. -/
def State.write (s : State) (acc : Access) (d : W32) (r : RegId) (i : Nat := 0) (j : Nat := 0) : State := s.writeTarget acc (r.target i j) d

/-! ### The commands -/

/-- CLOCK_ACK (R63, R525). -/
def execClockAck (eng : Bool) (s : State) : Host.Outcome State Fault Refusal := s.run (fun s => s.clockAck eng)
/-- REGISTER_WRITE (R542). -/
def execRegisterWrite (acc : Access) (addr : Nat) (d : W32) (s : State) : Host.Outcome State Fault Refusal :=
  s.run (fun s => s.portWrite acc addr d)
/-- LATCH_LO_READ (R538), and a read of any other register that has no row of its own. -/
def execLatchLoRead (acc : Access) (addr : Nat) (s : State) : Host.Outcome State Fault Refusal := s.run (fun s => s.portRead acc addr)
/-- RNG_DATA_READ (R402). -/
def execRngDataRead (acc : Access) (n : Fin 8) (s : State) : Host.Outcome State Fault Refusal :=
  s.run (fun s => s.readTarget acc (RegId.rngData.target n 0))
/-- REFUSED_OR_UNMAPPED_READ (R544). -/
def execRefusedOrUnmappedRead (acc : Access) (addr : Nat) (s : State) : Host.Outcome State Fault Refusal :=
  s.run (fun s => s.portRead acc addr)
/-- MGT_RELOAD (R89). -/
def execMgtReload (acc : Access) (d : W32) (s : State) : Host.Outcome State Fault Refusal :=
  s.run (fun s => s.write acc d .mgtReload)
/-- MGT_SV_COMMIT (R87). -/
def execMgtSvCommit (acc : Access) (d : W32) (s : State) : Host.Outcome State Fault Refusal :=
  s.run (fun s => s.write acc d .mgtSvCommit)
/-- MGT_STAGE_GO (R95). -/
def execMgtStageGo (acc : Access) (d : W32) (s : State) : Host.Outcome State Fault Refusal :=
  s.run (fun s => s.write acc d .mgtStage)
/-- MGT_STAGE_DISCARD (R97). -/
def execMgtStageDiscard (acc : Access) (d : W32) (s : State) : Host.Outcome State Fault Refusal :=
  s.run (fun s => s.write acc d .mgtStage)
/-- MGT_APPLY (R98). -/
def execMgtApply (acc : Access) (d : W32) (s : State) : Host.Outcome State Fault Refusal :=
  s.run (fun s => s.write acc d .mgtApply)
/-- SQ_DB (R106). -/
def execSqDb (acc : Access) (p : Fin 64) (n : Fin 16) (d : W32) (s : State) : Host.Outcome State Fault Refusal :=
  s.run (fun s => s.write acc d .sqDb p n)
/-- CQ_DB (R112). -/
def execCqDb (acc : Access) (p : Fin 64) (n : Fin 16) (d : W32) (s : State) : Host.Outcome State Fault Refusal :=
  s.run (fun s => s.write acc d .cqDb p n)
/-- SQ_ENABLE (R143). -/
def execSqEnable (acc : Access) (p : Fin 64) (n : Fin 16) (d : W32) (s : State) : Host.Outcome State Fault Refusal :=
  s.run (fun s => s.write acc d .sqCtrl p n)
/-- SQ_STOP (R137). -/
def execSqStop (acc : Access) (p : Fin 64) (n : Fin 16) (d : W32) (s : State) : Host.Outcome State Fault Refusal :=
  s.run (fun s => s.write acc d .sqCtrl p n)
/-- CQ_ENABLE (R143). -/
def execCqEnable (acc : Access) (p : Fin 64) (n : Fin 16) (d : W32) (s : State) : Host.Outcome State Fault Refusal :=
  s.run (fun s => s.write acc d .cqCtrl p n)
/-- CQ_DISABLE (R143). -/
def execCqDisable (acc : Access) (p : Fin 64) (n : Fin 16) (d : W32) (s : State) : Host.Outcome State Fault Refusal :=
  s.run (fun s => s.write acc d .cqCtrl p n)
/-- CQ_RESUME (R140). -/
def execCqResume (acc : Access) (p : Fin 64) (n : Fin 16) (d : W32) (s : State) : Host.Outcome State Fault Refusal :=
  s.run (fun s => s.write acc d .cqCtrl p n)
/-- QOS_COMMIT (R177). -/
def execQosCommit (acc : Access) (d : W32) (s : State) : Host.Outcome State Fault Refusal :=
  s.run (fun s => s.write acc d .qosCtrl)
/-- QOS_DISCARD (R177). -/
def execQosDiscard (acc : Access) (d : W32) (s : State) : Host.Outcome State Fault Refusal :=
  s.run (fun s => s.write acc d .qosCtrl)
/-- QOS_VIOL_CLEAR (R472). -/
def execQosViolClear (acc : Access) (d : W32) (s : State) : Host.Outcome State Fault Refusal :=
  s.run (fun s => s.write acc d .qosViolCtrl)
/-- LK_DRAIN (R214). -/
def execLkDrain (acc : Access) (lk : Fin 8) (d : W32) (s : State) : Host.Outcome State Fault Refusal :=
  s.run (fun s => s.write acc d .lkCtrl lk)
/-- LK_RESTART (R214). -/
def execLkRestart (acc : Access) (lk : Fin 8) (d : W32) (s : State) : Host.Outcome State Fault Refusal :=
  s.run (fun s => s.write acc d .lkCtrl lk)
/-- LK_CLONE (R215). -/
def execLkClone (acc : Access) (lk : Fin 8) (d : W32) (s : State) : Host.Outcome State Fault Refusal :=
  s.run (fun s => s.write acc d .lkCtrl lk)
/-- BSN_FLUSH (R229). -/
def execBsnFlush (acc : Access) (q : Fin 2048) (d : W32) (s : State) : Host.Outcome State Fault Refusal :=
  s.run (fun s => s.write acc d .bsnQctrl q)
/-- BERTH_INVALIDATE_PTN (R267). -/
def execBerthInvalidatePtn (acc : Access) (d : W32) (s : State) : Host.Outcome State Fault Refusal :=
  s.run (fun s => s.write acc d .brtCtrl)
/-- BERTH_RELEASE_INVALID (R258). -/
def execBerthReleaseInvalid (acc : Access) (d : W32) (s : State) : Host.Outcome State Fault Refusal :=
  s.run (fun s => s.write acc d .brtCtrl)
/-- SLOT_WORDS_WRITE (R359). -/
def execSlotWordsWrite (acc : Access) (n : Fin 8) (d : W32) (s : State) : Host.Outcome State Fault Refusal :=
  s.run (fun s => s.write acc d .bneCfg n)
/-- CRV_LOAD (R382). -/
def execCrvLoad (acc : Access) (d : W32) (s : State) : Host.Outcome State Fault Refusal :=
  s.run (fun s => s.write acc d .crvCtrl)
/-- CRV_CLEAR (R383). -/
def execCrvClear (acc : Access) (d : W32) (s : State) : Host.Outcome State Fault Refusal :=
  s.run (fun s => s.write acc d .crvCtrl)
/-- KEY_COMMIT (R422). -/
def execKeyCommit (acc : Access) (p : Fin 64) (d : W32) (s : State) : Host.Outcome State Fault Refusal :=
  s.run (fun s => s.write acc d .keyCommit p)
/-- KEY_SLOT_CLEAR (R416). -/
def execKeySlotClear (acc : Access) (d : W32) (s : State) : Host.Outcome State Fault Refusal :=
  s.run (fun s => s.write acc d .keySlotCtrl)
/-- KEY_SLOT_REASSIGN (R453). -/
def execKeySlotReassign (acc : Access) (d : W32) (s : State) : Host.Outcome State Fault Refusal :=
  s.run (fun s => s.write acc d .keySlotCtrl)
/-- KEY_PTN_INVALIDATE (R24). -/
def execKeyPtnInvalidate (acc : Access) (d : W32) (s : State) : Host.Outcome State Fault Refusal :=
  s.run (fun s => s.write acc d .keySlotCtrl)
/-- RESTORE_HALF (R453). -/
def execRestoreHalf (acc : Access) (d : W32) (s : State) : Host.Outcome State Fault Refusal :=
  s.run (fun s => s.write acc d .keySlotCtrl)
/-- KEY_PTN_GEN_WRITE (R437). -/
def execKeyPtnGenWrite (acc : Access) (p : Fin 64) (d : W32) (s : State) : Host.Outcome State Fault Refusal :=
  s.run (fun s => s.write acc d .keyPtnGen p)
/-- TRANSITION (R446). -/
def execTransition (acc : Access) (d : W32) (s : State) : Host.Outcome State Fault Refusal :=
  s.run (fun s => s.write acc d .lcCtrl)
/-- REPAIR (R448). -/
def execRepair (acc : Access) (d : W32) (s : State) : Host.Outcome State Fault Refusal :=
  s.run (fun s => s.write acc d .lcCtrl)
/-- DEBUG_UNLOCK (R451). -/
def execDebugUnlock (acc : Access) (d : W32) (s : State) : Host.Outcome State Fault Refusal :=
  s.run (fun s => s.write acc d .lcCtrl)
/-- ROOT_CREATE (R441). -/
def execRootCreate (acc : Access) (d : W32) (s : State) : Host.Outcome State Fault Refusal :=
  s.run (fun s => s.write acc d .lcCtrl)
/-- PROG_DIGEST (R452). -/
def execProgDigest (acc : Access) (d : W32) (s : State) : Host.Outcome State Fault Refusal :=
  s.run (fun s => s.write acc d .lcCtrl)
/-- ATTEST (R451). -/
def execAttest (acc : Access) (d : W32) (s : State) : Host.Outcome State Fault Refusal :=
  s.run (fun s => s.write acc d .lcCtrl)
/-- PARTITION_TABLE_WRITE (R457). -/
def execPartitionTableWrite (acc : Access) (addr : Nat) (d : W32) (s : State) : Host.Outcome State Fault Refusal :=
  s.run (fun s => s.portWrite acc addr d)
/-- PTN_RESET (R466). -/
def execPtnReset (acc : Access) (p : Fin 64) (d : W32) (s : State) : Host.Outcome State Fault Refusal :=
  s.run (fun s => s.write acc d .ptnCtrl p)
/-- MGT_PTN_RESET (R466). -/
def execMgtPtnReset (acc : Access) (d : W32) (s : State) : Host.Outcome State Fault Refusal :=
  s.run (fun s => s.write acc d .mgtPtnReset)
/-- BLOCK_RESET_REQUEST (R477). -/
def execBlockResetRequest (acc : Access) (d : W32) (s : State) : Host.Outcome State Fault Refusal :=
  s.run (fun s => s.write acc d .mgtRcvCtrl)
/-- DOMAIN_POWER_CYCLE_REQUEST (R478). -/
def execDomainPowerCycleRequest (acc : Access) (d : W32) (s : State) : Host.Outcome State Fault Refusal :=
  s.run (fun s => s.write acc d .mgtRcvCtrl)
/-- TMP_FLAG_CLEAR (R487). -/
def execTmpFlagClear (acc : Access) (d : W32) (s : State) : Host.Outcome State Fault Refusal :=
  s.run (fun s => s.write acc d .tmpFlagClear)
/-- UNLOCK_CHALLENGE_NEW (R496). -/
def execUnlockChallengeNew (acc : Access) (d : W32) (s : State) : Host.Outcome State Fault Refusal :=
  s.run (fun s => s.write acc d .tmpUnlockCtrl)
/-- UNLOCK_SUBMIT (R497). -/
def execUnlockSubmit (acc : Access) (d : W32) (s : State) : Host.Outcome State Fault Refusal :=
  s.run (fun s => s.write acc d .tmpUnlockCtrl)
/-- TMP_PROG_DIGEST (R500). -/
def execTmpProgDigest (acc : Access) (d : W32) (s : State) : Host.Outcome State Fault Refusal :=
  s.run (fun s => s.write acc d .tmpOtpCtrl)
/-- TMP_SOURCE_DISABLE (R500). -/
def execTmpSourceDisable (acc : Access) (d : W32) (s : State) : Host.Outcome State Fault Refusal :=
  s.run (fun s => s.write acc d .tmpOtpCtrl)
/-- KEEP_LOST_SET (R500). -/
def execKeepLostSet (acc : Access) (d : W32) (s : State) : Host.Outcome State Fault Refusal :=
  s.run (fun s => s.write acc d .tmpOtpCtrl)
/-- FLT_PIN (R512). -/
def execFltPin (acc : Access) (d : W32) (s : State) : Host.Outcome State Fault Refusal :=
  s.run (fun s => s.write acc d .fltPin)
/-- FLT_ACK (R513). -/
def execFltAck (acc : Access) (d : W32) (s : State) : Host.Outcome State Fault Refusal :=
  s.run (fun s => s.write acc d .fltAck)
/-- FLT_INJECT (R517). -/
def execFltInject (acc : Access) (d : W32) (s : State) : Host.Outcome State Fault Refusal :=
  s.run (fun s => s.write acc d .fltInject)
/-- RNG_RECAL (R392). -/
def execRngRecal (acc : Access) (src : Fin 3) (d : W32) (s : State) : Host.Outcome State Fault Refusal :=
  s.run (fun s => s.write acc d .rngSrcCtrl src)
/-- RNG_RESET (R405). -/
def execRngReset (acc : Access) (d : W32) (s : State) : Host.Outcome State Fault Refusal :=
  s.run (fun s => s.write acc d .rngCtrl)
/-- UNIT_DRAIN (R534). -/
def execUnitDrain (acc : Access) (d : W32) (s : State) : Host.Outcome State Fault Refusal :=
  s.run (fun s => s.write acc d .pwrUnitCtrl)
/-- UNIT_RETURN (R534). -/
def execUnitReturn (acc : Access) (d : W32) (s : State) : Host.Outcome State Fault Refusal :=
  s.run (fun s => s.write acc d .pwrUnitCtrl)
/-- UNIT_REMAP (R534). -/
def execUnitRemap (acc : Access) (d : W32) (s : State) : Host.Outcome State Fault Refusal :=
  s.run (fun s => s.write acc d .pwrUnitCtrl)
/-- BROADCAST_WRITE (R532). -/
def execBroadcastWrite (acc : Access) (addr : Nat) (d : W32) (s : State) : Host.Outcome State Fault Refusal :=
  s.run (fun s => s.portWrite acc addr d)
/-- GROUP_ALIAS_WRITE (R533). -/
def execGroupAliasWrite (acc : Access) (addr : Nat) (d : W32) (s : State) : Host.Outcome State Fault Refusal :=
  s.run (fun s => s.portWrite acc addr d)
/-- LIF_CAL_SET (R536). -/
def execLifCalSet (acc : Access) (d : W32) (s : State) : Host.Outcome State Fault Refusal :=
  s.run (fun s => s.write acc d .lifCalCtrl)

end Sys2Proof.Machine
end

