-- ==== Sys2Proof/Machine/Suspend.lean ====
section
/-!
DEFINITION. Suspension and resumption of cipher requests (R172, R270, R271).
-/
namespace Sys2Proof.Machine

/-- A running request that may be suspended (R270). -/
def State.suspendable (s : State) (r : Req) : Bool :=
  r.phase == .running && r.unit == .sym && [0x10, 0x11, 0x12, 0x13, 0x16, 0x17].contains r.desc.opcode.toNat &&
  decide (r.desc.mode ≠ 4) && r.berth.isSome && !s.isolated r.ptn && !r.urgent

/-- Bytes of its source that a running request has left: its engine reads the item a cell at a time, the auxiliary bytes first. -/
def Req.bytesLeft (r : Req) : Nat :=
  if r.desc.holdIn then r.desc.srcLen.toNat else min r.desc.srcBytes (r.desc.itemLen - 128 * r.bas.taken)

/-- Core n may serve a cipher request at time t of the frame, were it free; and it is free. -/
def State.coreUsable (s : State) (r : Req) (n t : Nat) : Bool :=
  s.inService .sym n && (decide (r.want = 0xFF) || decide (r.want = n)) && !s.drainBars r n && s.timeAllows r n t && s.capAllows 1 n
def State.coreFree (s : State) (r : Req) (n t : Nat) : Bool := s.coreUsable r n t && !s.unitTaken .sym n

/-- An honoured urgent request that waits for a core alone. -/
def State.urgentReady (s : State) (x : Req) : Bool := x.unit == .sym && x.urgent && s.startable x && (s.startFault x).isNone

/-- The first urgent request that finds no free core. -/
def State.urgentStuck (s : State) (t : Nat) : Option Req :=
  (s.reqs.filter (fun x => s.urgentReady x && !(numsFrom 0 48).any (fun n => s.coreFree x n t))).foldl (fun best r => match best with
    | none => some r
    | some b => if r.seq < b.seq then some r else best) none

/-- The request that the scheduler suspends for the urgent request `u`: of those on a core that `u` may use, the one with the most bytes
left (R172). -/
def State.suspendChoice (s : State) (u : Req) (t : Nat) : Option Req :=
  (s.reqs.filter (fun r => s.suspendable r && s.coreUsable u r.inst t)).foldl (fun best r => match best with
    | none => some r
    | some b => if b.bytesLeft < r.bytesLeft then some r else best) none

/-- SUSP: the working counter block, the working accumulator and the remaining length after the bytes done so far (R271). -/
def State.suspWords (s : State) (r : Req) (b : Berth) : Bytes :=
  let g := b.segment r (s.genIv r b) (((s.srcOf r).toOption.getD []).take (r.desc.srcLen.toNat - r.bytesLeft))
  let w := b.afterSegment r.desc g
  fit 16 w.cb ++ fit 16 w.acc ++ toLe 1 w.accTop ++ toLe 15 r.bytesLeft

/-- CIPHER_SUSPEND: an urgent request finds no free core, and the chosen request's state goes into its berth (R172, R271). The time in
the frame is a free value. -/
def State.cipherSuspend (s : State) (rid : Nat) : State :=
  let t := s.pick % 1000
  let s := s.drawn
  match (s.urgentStuck t).bind (fun u => s.suspendChoice u t), s.findReq rid with
  | some c, some r =>
    match r.berth with
    | some i =>
      if c.bytesLeft ≤ r.bytesLeft ∧ s.suspendable r ∧ (s.urgentStuck t).any (fun u => s.coreUsable u r.inst t) then
        let b := s.berth i
        let s := s.setBerth i { b with state := .suspended, susp := s.suspWords r b }
        (s.updReq rid (fun r => { r with phase := .suspended })).setF .symSusp 15 0 (s.regF .symSusp 15 0 r.inst + 1) r.inst
      else s
    | none => s
  | _, _ => s

/-- The cores that a suspended request may resume on: free ones that no urgent request can start on now (R172). -/
def State.resumeCores (s : State) (r : Req) (t : Nat) : List Nat :=
  (numsFrom 0 48).filter (fun n => s.coreFree r n t && !s.reqs.any (fun x => s.urgentReady x && s.coreFree x n t))

/-- CIPHER_RESUME: on any free core; one whose domains are not on is woken first (R172, R271, R520). -/
def State.cipherResume (s : State) (rid : Nat) : State :=
  match s.findReq rid with
  | none => s
  | some r =>
    if r.phase ≠ .suspended then s
    else
      let t := s.pick % 1000
      let s := s.drawn
      let cores := s.resumeCores r t
      match cores[s.pick % max 1 cores.length]? with
      | none => s
      | some n =>
        let s := s.drawn
        let doms := s.startDomains r n t
        if !doms.all s.domOn then s.wakeAll (doms.filter (fun d => !s.domOn d))
        else
          let s := match r.berth with
            | some i => s.restoreBerth i r.desc.init
            | none => s
          s.updReq rid (fun r => { r with phase := .running, inst := n })

/-! ### The commands -/

/-- CIPHER_SUSPEND (R271). -/
def execCipherSuspend (rid : Nat) (s : State) : Host.Outcome State Fault Refusal := s.run (fun s => s.cipherSuspend rid)
/-- CIPHER_RESUME (R271). -/
def execCipherResume (rid : Nat) (s : State) : Host.Outcome State Fault Refusal := s.run (fun s => s.cipherResume rid)

end Sys2Proof.Machine
end

