-- ==== Sys2Proof/Machine/Dispatch.lean ====
section
/-!
DEFINITION. Dispatch: the meaning of each command.
-/
namespace Sys2Proof.Machine

/-- What a command does to everything but the queue. -/
def exec (i : Instr) (s : State) : Host.Outcome State Fault Refusal :=
  match i with
  | .registerWrite acc addr d => Sys2Proof.Machine.execRegisterWrite acc addr d s
  | .latchLoRead acc addr => Sys2Proof.Machine.execLatchLoRead acc addr s
  | .rngDataRead acc n => Sys2Proof.Machine.execRngDataRead acc n s
  | .rngDataRefill => Sys2Proof.Machine.execRngDataRefill s
  | .coldResetRelease => Sys2Proof.Machine.execColdResetRelease s
  | .warmResetRelease => Sys2Proof.Machine.execWarmResetRelease s
  | .mfsWord w => Sys2Proof.Machine.execMfsWord w s
  | .mfsTimeout => Sys2Proof.Machine.execMfsTimeout s
  | .manifestVerifyDone => Sys2Proof.Machine.execManifestVerifyDone s
  | .mgtReload acc d => Sys2Proof.Machine.execMgtReload acc d s
  | .mgtSvCommit acc d => Sys2Proof.Machine.execMgtSvCommit acc d s
  | .mgtStageGo acc d => Sys2Proof.Machine.execMgtStageGo acc d s
  | .mgtStageDiscard acc d => Sys2Proof.Machine.execMgtStageDiscard acc d s
  | .stageVerifyDone => Sys2Proof.Machine.execStageVerifyDone s
  | .mgtApply acc d => Sys2Proof.Machine.execMgtApply acc d s
  | .lkLoad lk => Sys2Proof.Machine.execLkLoad lk s
  | .rngWaitLimitExpiry rid => Sys2Proof.Machine.execRngWaitLimitExpiry rid s
  | .curveCheckDone n => Sys2Proof.Machine.execCurveCheckDone n s
  | .sqDb acc p n d => Sys2Proof.Machine.execSqDb acc p n d s
  | .cqDb acc p n d => Sys2Proof.Machine.execCqDb acc p n d s
  | .lockkeeperGrant lk => Sys2Proof.Machine.execLockkeeperGrant lk s
  | .descriptorArrival lk => Sys2Proof.Machine.execDescriptorArrival lk s
  | .openTowTimeout p n => Sys2Proof.Machine.execOpenTowTimeout p n s
  | .towAdmit lk c => Sys2Proof.Machine.execTowAdmit lk c s
  | .towMemberIssue rid => Sys2Proof.Machine.execTowMemberIssue rid s
  | .basinGrant => Sys2Proof.Machine.execBasinGrant s
  | .engineStart rid inst => Sys2Proof.Machine.execEngineStart rid inst s
  | .outputCellRelease rid => Sys2Proof.Machine.execOutputCellRelease rid s
  | .requestResultPosted rid => Sys2Proof.Machine.execRequestResultPosted rid s
  | .completionEntryWrite p n => Sys2Proof.Machine.execCompletionEntryWrite p n s
  | .inplaceStatusWrite rid => Sys2Proof.Machine.execInplaceStatusWrite rid s
  | .coalesceTimer p n => Sys2Proof.Machine.execCoalesceTimer p n s
  | .sqEnable acc p n d => Sys2Proof.Machine.execSqEnable acc p n d s
  | .sqStop acc p n d => Sys2Proof.Machine.execSqStop acc p n d s
  | .ringStopFlushFetch p n => Sys2Proof.Machine.execRingStopFlushFetch p n s
  | .cqEnable acc p n d => Sys2Proof.Machine.execCqEnable acc p n d s
  | .cqDisable acc p n d => Sys2Proof.Machine.execCqDisable acc p n d s
  | .cqResume acc p n d => Sys2Proof.Machine.execCqResume acc p n d s
  | .dmaReadReturn tag data err poison => Sys2Proof.Machine.execDmaReadReturn tag data err poison s
  | .dmaWriteCompletion tag err => Sys2Proof.Machine.execDmaWriteCompletion tag err s
  | .dmaTimeout write tag => Sys2Proof.Machine.execDmaTimeout write tag s
  | .irqMessageAccept p => Sys2Proof.Machine.execIrqMessageAccept p s
  | .frameBoundary => Sys2Proof.Machine.execFrameBoundary s
  | .qosCommit acc d => Sys2Proof.Machine.execQosCommit acc d s
  | .qosDiscard acc d => Sys2Proof.Machine.execQosDiscard acc d s
  | .qosViolClear acc d => Sys2Proof.Machine.execQosViolClear acc d s
  | .cipherSuspend rid => Sys2Proof.Machine.execCipherSuspend rid s
  | .cipherResume rid => Sys2Proof.Machine.execCipherResume rid s
  | .intervalEndPause rid => Sys2Proof.Machine.execIntervalEndPause rid s
  | .pausedSignResume rid => Sys2Proof.Machine.execPausedSignResume rid s
  | .declaredTimeEnd rid => Sys2Proof.Machine.execDeclaredTimeEnd rid s
  | .ldA lk op => Sys2Proof.Machine.execLdA lk op s
  | .stA lk op => Sys2Proof.Machine.execStA lk op s
  | .addA lk op => Sys2Proof.Machine.execAddA lk op s
  | .adcA lk op => Sys2Proof.Machine.execAdcA lk op s
  | .subA lk op => Sys2Proof.Machine.execSubA lk op s
  | .sbcA lk op => Sys2Proof.Machine.execSbcA lk op s
  | .andA lk op => Sys2Proof.Machine.execAndA lk op s
  | .orA lk op => Sys2Proof.Machine.execOrA lk op s
  | .xorA lk op => Sys2Proof.Machine.execXorA lk op s
  | .cmpA lk op => Sys2Proof.Machine.execCmpA lk op s
  | .ldX lk op => Sys2Proof.Machine.execLdX lk op s
  | .ldY lk op => Sys2Proof.Machine.execLdY lk op s
  | .stX lk op => Sys2Proof.Machine.execStX lk op s
  | .stY lk op => Sys2Proof.Machine.execStY lk op s
  | .lkNop lk => Sys2Proof.Machine.execLkNop lk s
  | .lkEnd lk => Sys2Proof.Machine.execLkEnd lk s
  | .yield lk => Sys2Proof.Machine.execYield lk s
  | .rts lk => Sys2Proof.Machine.execRts lk s
  | .rte lk => Sys2Proof.Machine.execRte lk s
  | .clrC lk => Sys2Proof.Machine.execClrC lk s
  | .setC lk => Sys2Proof.Machine.execSetC lk s
  | .clrV lk => Sys2Proof.Machine.execClrV lk s
  | .movXA lk => Sys2Proof.Machine.execMovXA lk s
  | .movAX lk => Sys2Proof.Machine.execMovAX lk s
  | .movYA lk => Sys2Proof.Machine.execMovYA lk s
  | .movAY lk => Sys2Proof.Machine.execMovAY lk s
  | .movYX lk => Sys2Proof.Machine.execMovYX lk s
  | .movXY lk => Sys2Proof.Machine.execMovXY lk s
  | .incX lk => Sys2Proof.Machine.execIncX lk s
  | .decX lk => Sys2Proof.Machine.execDecX lk s
  | .incY lk => Sys2Proof.Machine.execIncY lk s
  | .decY lk => Sys2Proof.Machine.execDecY lk s
  | .cmpX lk b => Sys2Proof.Machine.execCmpX lk b s
  | .cmpY lk b => Sys2Proof.Machine.execCmpY lk b s
  | .addX lk b => Sys2Proof.Machine.execAddX lk b s
  | .addY lk b => Sys2Proof.Machine.execAddY lk b s
  | .trap lk n => Sys2Proof.Machine.execTrap lk n s
  | .reservedWord lk => Sys2Proof.Machine.execReservedWord lk s
  | .shl lk c => Sys2Proof.Machine.execShl lk c s
  | .shr lk c => Sys2Proof.Machine.execShr lk c s
  | .asr lk c => Sys2Proof.Machine.execAsr lk c s
  | .rol lk c => Sys2Proof.Machine.execRol lk c s
  | .ror lk c => Sys2Proof.Machine.execRor lk c s
  | .beq lk o => Sys2Proof.Machine.execBeq lk o s
  | .bne lk o => Sys2Proof.Machine.execBne lk o s
  | .bcs lk o => Sys2Proof.Machine.execBcs lk o s
  | .bcc lk o => Sys2Proof.Machine.execBcc lk o s
  | .bmi lk o => Sys2Proof.Machine.execBmi lk o s
  | .bpl lk o => Sys2Proof.Machine.execBpl lk o s
  | .bvs lk o => Sys2Proof.Machine.execBvs lk o s
  | .bvc lk o => Sys2Proof.Machine.execBvc lk o s
  | .bra lk o => Sys2Proof.Machine.execBra lk o s
  | .jmp lk t => Sys2Proof.Machine.execJmp lk t s
  | .jsr lk t => Sys2Proof.Machine.execJsr lk t s
  | .jmpX lk t => Sys2Proof.Machine.execJmpX lk t s
  | .jsrX lk t => Sys2Proof.Machine.execJsrX lk t s
  | .issue lk k => Sys2Proof.Machine.execIssue lk k s
  | .waite lk k => Sys2Proof.Machine.execWaite lk k s
  | .polle lk k => Sys2Proof.Machine.execPolle lk k s
  | .frmDone lk f w => Sys2Proof.Machine.execFrmDone lk f w s
  | .frmAdmit lk f w => Sys2Proof.Machine.execFrmAdmit lk f w s
  | .lkcGo lk => Sys2Proof.Machine.execLkcGo lk s
  | .lkcHeartbeat lk => Sys2Proof.Machine.execLkcHeartbeat lk s
  | .heartbeatExpiry lk => Sys2Proof.Machine.execHeartbeatExpiry lk s
  | .lkScrub lk => Sys2Proof.Machine.execLkScrub lk s
  | .lkDrain acc lk d => Sys2Proof.Machine.execLkDrain acc lk d s
  | .lkDrainLimitExpiry lk => Sys2Proof.Machine.execLkDrainLimitExpiry lk s
  | .lkRestart acc lk d => Sys2Proof.Machine.execLkRestart acc lk d s
  | .lkClone acc lk d => Sys2Proof.Machine.execLkClone acc lk d s
  | .lkCloneDone lk => Sys2Proof.Machine.execLkCloneDone lk s
  | .bsnFlush acc q d => Sys2Proof.Machine.execBsnFlush acc q d s
  | .poolAuditDone => Sys2Proof.Machine.execPoolAuditDone s
  | .nop rid => Sys2Proof.Machine.execNop rid s
  | .fence rid => Sys2Proof.Machine.execFence rid s
  | .copy rid => Sys2Proof.Machine.execCopy rid s
  | .getRandom rid => Sys2Proof.Machine.execGetRandom rid s
  | .encrypt rid => Sys2Proof.Machine.execEncrypt rid s
  | .decrypt rid => Sys2Proof.Machine.execDecrypt rid s
  | .aeadSeal rid => Sys2Proof.Machine.execAeadSeal rid s
  | .aeadOpen rid => Sys2Proof.Machine.execAeadOpen rid s
  | .macGenerate rid => Sys2Proof.Machine.execMacGenerate rid s
  | .macVerify rid => Sys2Proof.Machine.execMacVerify rid s
  | .berthSetup rid => Sys2Proof.Machine.execBerthSetup rid s
  | .berthSealOut rid => Sys2Proof.Machine.execBerthSealOut rid s
  | .berthSealIn rid => Sys2Proof.Machine.execBerthSealIn rid s
  | .berthRelease rid => Sys2Proof.Machine.execBerthRelease rid s
  | .berthInvalidatePtn acc d => Sys2Proof.Machine.execBerthInvalidatePtn acc d s
  | .berthReleaseInvalid acc d => Sys2Proof.Machine.execBerthReleaseInvalid acc d s
  | .hash rid => Sys2Proof.Machine.execHash rid s
  | .xof rid => Sys2Proof.Machine.execXof rid s
  | .hmacGenerate rid => Sys2Proof.Machine.execHmacGenerate rid s
  | .hmacVerify rid => Sys2Proof.Machine.execHmacVerify rid s
  | .kmacGenerate rid => Sys2Proof.Machine.execKmacGenerate rid s
  | .kmacVerify rid => Sys2Proof.Machine.execKmacVerify rid s
  | .hkdf rid => Sys2Proof.Machine.execHkdf rid s
  | .hkdfExtract rid => Sys2Proof.Machine.execHkdfExtract rid s
  | .hkdfExpand rid => Sys2Proof.Machine.execHkdfExpand rid s
  | .kdf108 rid => Sys2Proof.Machine.execKdf108 rid s
  | .kdf56cOnestep rid => Sys2Proof.Machine.execKdf56cOnestep rid s
  | .kdf56cTwostep rid => Sys2Proof.Machine.execKdf56cTwostep rid s
  | .slhdsaKeygen rid => Sys2Proof.Machine.execSlhdsaKeygen rid s
  | .slhdsaSign rid => Sys2Proof.Machine.execSlhdsaSign rid s
  | .slhdsaVerify rid => Sys2Proof.Machine.execSlhdsaVerify rid s
  | .hssKeygen rid => Sys2Proof.Machine.execHssKeygen rid s
  | .hssSign rid => Sys2Proof.Machine.execHssSign rid s
  | .hssVerify rid => Sys2Proof.Machine.execHssVerify rid s
  | .xmssKeygen rid => Sys2Proof.Machine.execXmssKeygen rid s
  | .xmssSign rid => Sys2Proof.Machine.execXmssSign rid s
  | .xmssVerify rid => Sys2Proof.Machine.execXmssVerify rid s
  | .logScanDone region words => Sys2Proof.Machine.execLogScanDone region words s
  | .mfsAppendAck => Sys2Proof.Machine.execMfsAppendAck s
  | .mfsAppendErr => Sys2Proof.Machine.execMfsAppendErr s
  | .mfsAppendTimeout => Sys2Proof.Machine.execMfsAppendTimeout s
  | .mlkemKeygen rid => Sys2Proof.Machine.execMlkemKeygen rid s
  | .mlkemEncaps rid => Sys2Proof.Machine.execMlkemEncaps rid s
  | .mlkemDecaps rid => Sys2Proof.Machine.execMlkemDecaps rid s
  | .mldsaKeygen rid => Sys2Proof.Machine.execMldsaKeygen rid s
  | .mldsaSign rid => Sys2Proof.Machine.execMldsaSign rid s
  | .mldsaVerify rid => Sys2Proof.Machine.execMldsaVerify rid s
  | .mldsaSignMu rid => Sys2Proof.Machine.execMldsaSignMu rid s
  | .mldsaVerifyMu rid => Sys2Proof.Machine.execMldsaVerifyMu rid s
  | .recipeEnd ply => Sys2Proof.Machine.execRecipeEnd ply s
  | .setq ply => Sys2Proof.Machine.execSetq ply s
  | .ntt ply => Sys2Proof.Machine.execNtt ply s
  | .intt ply => Sys2Proof.Machine.execIntt ply s
  | .pmul ply => Sys2Proof.Machine.execPmul ply s
  | .pmac ply => Sys2Proof.Machine.execPmac ply s
  | .padd ply => Sys2Proof.Machine.execPadd ply s
  | .psub ply => Sys2Proof.Machine.execPsub ply s
  | .kinit ply => Sys2Proof.Machine.execKinit ply s
  | .kabs ply => Sys2Proof.Machine.execKabs ply s
  | .suni ply => Sys2Proof.Machine.execSuni ply s
  | .scbd ply => Sys2Proof.Machine.execScbd ply s
  | .seta ply => Sys2Proof.Machine.execSeta ply s
  | .smsk ply => Sys2Proof.Machine.execSmsk ply s
  | .sball ply => Sys2Proof.Machine.execSball ply s
  | .cmpr ply => Sys2Proof.Machine.execCmpr ply s
  | .pack ply => Sys2Proof.Machine.execPack ply s
  | .unpk ply => Sys2Proof.Machine.execUnpk ply s
  | .round ply => Sys2Proof.Machine.execRound ply s
  | .hint ply => Sys2Proof.Machine.execHint ply s
  | .norm ply => Sys2Proof.Machine.execNorm ply s
  | .iter ply => Sys2Proof.Machine.execIter ply s
  | .ceq ply => Sys2Proof.Machine.execCeq ply s
  | .csel ply => Sys2Proof.Machine.execCsel ply s
  | .share ply => Sys2Proof.Machine.execShare ply s
  | .move ply => Sys2Proof.Machine.execMove ply s
  | .recipeCopy ply => Sys2Proof.Machine.execRecipeCopy ply s
  | .recipeScrub ply => Sys2Proof.Machine.execRecipeScrub ply s
  | .hqcKeygen rid => Sys2Proof.Machine.execHqcKeygen rid s
  | .hqcEncaps rid => Sys2Proof.Machine.execHqcEncaps rid s
  | .hqcDecaps rid => Sys2Proof.Machine.execHqcDecaps rid s
  | .mceImport rid => Sys2Proof.Machine.execMceImport rid s
  | .mceEncaps rid => Sys2Proof.Machine.execMceEncaps rid s
  | .mceDecaps rid => Sys2Proof.Machine.execMceDecaps rid s
  | .ckcLoad rid => Sys2Proof.Machine.execCkcLoad rid s
  | .ckcEvict rid => Sys2Proof.Machine.execCkcEvict rid s
  | .modmul rid => Sys2Proof.Machine.execModmul rid s
  | .modexp rid => Sys2Proof.Machine.execModexp rid s
  | .modinv rid => Sys2Proof.Machine.execModinv rid s
  | .rsaPublic rid => Sys2Proof.Machine.execRsaPublic rid s
  | .rsaPrivateCrt rid => Sys2Proof.Machine.execRsaPrivateCrt rid s
  | .rsaPssSign rid => Sys2Proof.Machine.execRsaPssSign rid s
  | .rsaPssVerify rid => Sys2Proof.Machine.execRsaPssVerify rid s
  | .rsaOaepEncrypt rid => Sys2Proof.Machine.execRsaOaepEncrypt rid s
  | .rsaOaepDecrypt rid => Sys2Proof.Machine.execRsaOaepDecrypt rid s
  | .rsaKeygen rid => Sys2Proof.Machine.execRsaKeygen rid s
  | .primeTest rid => Sys2Proof.Machine.execPrimeTest rid s
  | .ecdsaSign rid => Sys2Proof.Machine.execEcdsaSign rid s
  | .ecdsaVerify rid => Sys2Proof.Machine.execEcdsaVerify rid s
  | .ecdh rid => Sys2Proof.Machine.execEcdh rid s
  | .ecKeygen rid => Sys2Proof.Machine.execEcKeygen rid s
  | .eddsaSign rid => Sys2Proof.Machine.execEddsaSign rid s
  | .eddsaVerify rid => Sys2Proof.Machine.execEddsaVerify rid s
  | .xdh rid => Sys2Proof.Machine.execXdh rid s
  | .slotWordsWrite acc n d => Sys2Proof.Machine.execSlotWordsWrite acc n d s
  | .slotWordsApply n => Sys2Proof.Machine.execSlotWordsApply n s
  | .crvLoad acc d => Sys2Proof.Machine.execCrvLoad acc d s
  | .crvClear acc d => Sys2Proof.Machine.execCrvClear acc d s
  | .keyGenerate rid => Sys2Proof.Machine.execKeyGenerate rid s
  | .keyImportWrapped rid => Sys2Proof.Machine.execKeyImportWrapped rid s
  | .keyExportWrapped rid => Sys2Proof.Machine.execKeyExportWrapped rid s
  | .keyDestroy rid => Sys2Proof.Machine.execKeyDestroy rid s
  | .slotDestroyComplete slot => Sys2Proof.Machine.execSlotDestroyComplete slot s
  | .keyDerive rid => Sys2Proof.Machine.execKeyDerive rid s
  | .keyAttrRead rid => Sys2Proof.Machine.execKeyAttrRead rid s
  | .ptnInfo rid => Sys2Proof.Machine.execPtnInfo rid s
  | .keyList rid => Sys2Proof.Machine.execKeyList rid s
  | .qosRead rid => Sys2Proof.Machine.execQosRead rid s
  | .keyCommit acc p d => Sys2Proof.Machine.execKeyCommit acc p d s
  | .keyCommitDone p => Sys2Proof.Machine.execKeyCommitDone p s
  | .keySlotClear acc d => Sys2Proof.Machine.execKeySlotClear acc d s
  | .keySlotReassign acc d => Sys2Proof.Machine.execKeySlotReassign acc d s
  | .keyPtnInvalidate acc d => Sys2Proof.Machine.execKeyPtnInvalidate acc d s
  | .restoreHalf acc d => Sys2Proof.Machine.execRestoreHalf acc d s
  | .keyPtnGenWrite acc p d => Sys2Proof.Machine.execKeyPtnGenWrite acc p d s
  | .keepSecretDraw => Sys2Proof.Machine.execKeepSecretDraw s
  | .transition acc d => Sys2Proof.Machine.execTransition acc d s
  | .repair acc d => Sys2Proof.Machine.execRepair acc d s
  | .debugUnlock acc d => Sys2Proof.Machine.execDebugUnlock acc d s
  | .rootCreate acc d => Sys2Proof.Machine.execRootCreate acc d s
  | .progDigest acc d => Sys2Proof.Machine.execProgDigest acc d s
  | .attest acc d => Sys2Proof.Machine.execAttest acc d s
  | .otpAck rdata err => Sys2Proof.Machine.execOtpAck rdata err s
  | .partitionTableWrite acc addr d => Sys2Proof.Machine.execPartitionTableWrite acc addr d s
  | .ptnReset acc p d => Sys2Proof.Machine.execPtnReset acc p d s
  | .mgtPtnReset acc d => Sys2Proof.Machine.execMgtPtnReset acc d s
  | .functionResetFlush p => Sys2Proof.Machine.execFunctionResetFlush p s
  | .blockResetRequest acc d => Sys2Proof.Machine.execBlockResetRequest acc d s
  | .domainPowerCycleRequest acc d => Sys2Proof.Machine.execDomainPowerCycleRequest acc d s
  | .tamperDetection src det => Sys2Proof.Machine.execTamperDetection src det s
  | .zeroizeClearDone => Sys2Proof.Machine.execZeroizeClearDone s
  | .tamperWindowExpiry src => Sys2Proof.Machine.execTamperWindowExpiry src s
  | .disagreeWindowExpiry src => Sys2Proof.Machine.execDisagreeWindowExpiry src s
  | .fenceHoldExpiry src => Sys2Proof.Machine.execFenceHoldExpiry src s
  | .actionBoundExpiry => Sys2Proof.Machine.execActionBoundExpiry s
  | .levelDebounce line high => Sys2Proof.Machine.execLevelDebounce line high s
  | .pulseCheck l0 l1 l2 l3 => Sys2Proof.Machine.execPulseCheck l0 l1 l2 l3 s
  | .keepSample x => Sys2Proof.Machine.execKeepSample x s
  | .keepOnCellEdge e => Sys2Proof.Machine.execKeepOnCellEdge e s
  | .tmpFlagClear acc d => Sys2Proof.Machine.execTmpFlagClear acc d s
  | .unlockChallengeNew acc d => Sys2Proof.Machine.execUnlockChallengeNew acc d s
  | .unlockSubmit acc d => Sys2Proof.Machine.execUnlockSubmit acc d s
  | .unlockVerifyDone => Sys2Proof.Machine.execUnlockVerifyDone s
  | .tmpProgDigest acc d => Sys2Proof.Machine.execTmpProgDigest acc d s
  | .tmpSourceDisable acc d => Sys2Proof.Machine.execTmpSourceDisable acc d s
  | .keepLostSet acc d => Sys2Proof.Machine.execKeepLostSet acc d s
  | .promotionWindowExpiry src => Sys2Proof.Machine.execPromotionWindowExpiry src s
  | .pinHoldExpiry => Sys2Proof.Machine.execPinHoldExpiry s
  | .fltPin acc d => Sys2Proof.Machine.execFltPin acc d s
  | .fltAck acc d => Sys2Proof.Machine.execFltAck acc d s
  | .t1Expiry => Sys2Proof.Machine.execT1Expiry s
  | .t2Expiry => Sys2Proof.Machine.execT2Expiry s
  | .endPhaseDeadline => Sys2Proof.Machine.execEndPhaseDeadline s
  | .fltInject acc d => Sys2Proof.Machine.execFltInject acc d s
  | .collectorSelf => Sys2Proof.Machine.execCollectorSelf s
  | .rngSample src bit => Sys2Proof.Machine.execRngSample src bit s
  | .drbgReseed k => Sys2Proof.Machine.execDrbgReseed k s
  | .rngReady => Sys2Proof.Machine.execRngReady s
  | .rngRecal acc src d => Sys2Proof.Machine.execRngRecal acc src d s
  | .rngRecalDone src good => Sys2Proof.Machine.execRngRecalDone src good s
  | .rngReset acc d => Sys2Proof.Machine.execRngReset acc d s
  | .pmAck dom => Sys2Proof.Machine.execPmAck dom s
  | .pmHandshakeTimeout dom => Sys2Proof.Machine.execPmHandshakeTimeout dom s
  | .clockAck eng => Sys2Proof.Machine.execClockAck eng s
  | .pmCapChange v => Sys2Proof.Machine.execPmCapChange v s
  | .engClkAnnounce v => Sys2Proof.Machine.execEngClkAnnounce v s
  | .dbgEnRise => Sys2Proof.Machine.execDbgEnRise s
  | .dbgEnFall => Sys2Proof.Machine.execDbgEnFall s
  | .retAfterExpiry dom => Sys2Proof.Machine.execRetAfterExpiry dom s
  | .offAfterExpiry dom => Sys2Proof.Machine.execOffAfterExpiry dom s
  | .clkIdleExpiry eng => Sys2Proof.Machine.execClkIdleExpiry eng s
  | .ballastHoldExpiry cls inst => Sys2Proof.Machine.execBallastHoldExpiry cls inst s
  | .unitDrain acc d => Sys2Proof.Machine.execUnitDrain acc d s
  | .unitDrainLimitExpiry => Sys2Proof.Machine.execUnitDrainLimitExpiry s
  | .unitReturn acc d => Sys2Proof.Machine.execUnitReturn acc d s
  | .unitRemap acc d => Sys2Proof.Machine.execUnitRemap acc d s
  | .broadcastWrite acc addr d => Sys2Proof.Machine.execBroadcastWrite acc addr d s
  | .groupAliasWrite acc addr d => Sys2Proof.Machine.execGroupAliasWrite acc addr d s
  | .lifCalSet acc d => Sys2Proof.Machine.execLifCalSet acc d s
  | .lifetimeCommit => Sys2Proof.Machine.execLifetimeCommit s
  | .coldResetAssert => Sys2Proof.Machine.execColdResetAssert s
  | .warmResetAssert => Sys2Proof.Machine.execWarmResetAssert s
  | .refusedOrUnmappedRead acc addr => Sys2Proof.Machine.execRefusedOrUnmappedRead acc addr s
  | .tamperCauseEnd src => Sys2Proof.Machine.execTamperCauseEnd src s
  | .powerCapBoundExpiry => Sys2Proof.Machine.execPowerCapBoundExpiry s
  | .compactionScanDone log => Sys2Proof.Machine.execCompactionScanDone log s

end Sys2Proof.Machine
end

