-- ==== Sys2Proof/Safety.lean ====
section
/-!
DEFINITION. The terms that statements about the block are made in: a state from which nothing follows, and what a Lockkeeper is
about to execute.
-/
namespace Sys2Proof.Machine

/-- Nothing follows from `s` after a command given in `s0`: each thing that ends a command (`State.wrapUp`) leaves `s` as it is. -/
abbrev State.Settled (s0 s : State) : Prop :=
  s.toContain = [] ∧ s.finishEngines = s ∧ s.finishRecipes = s ∧ State.applyRecipes 64 s = s ∧ s.finishDooms = s ∧ s.finishCurves = s ∧ s.applyCurves = s ∧ s.startInternal = s ∧
  s.finishDrain = s ∧ s.dropBanks = s ∧ s.pumpPort = s ∧ s.applyCap = s ∧ s0.ballastAfter s = s ∧ s.clocksAfter = s ∧
  s.capReached = s ∧ s.throttleDone = s ∧ s.alarmPin = s ∧ s.pending = s0.pending

/-- Lockkeeper n, as `l` once it has chosen the context c that runs (R183), executes, and fetches w, the word or the first word of `i`
(R186, R197). -/
abbrev State.AtInstr (s : State) (n : Nat) (l : Lk) (c : Nat) (w : W16) (i : LkInstr) : Prop :=
  s.lkRuns n = true ∧ (s.lk n).dispatch = l ∧ l.cur = some c ∧ l.fetchInstr (l.ctx c).pc.toNat = .ok (w, some i) ∧
    l.flaws (fetchKeys (l.ctx c).pc.toNat i) = []

/-- The port carries a write to `t`: fab_clk runs (R525), the five steps let it through (R542), and the safe state does not drop it
(R516). -/
abbrev State.Carries (s : State) (acc : Access) (t : Target) : Prop :=
  s.pins.fabRun = true ∧ s.judge acc true t = .okay ∧ (s.safe = true → safeWrite t = true)

/-- The unit of request `rid`, which is `r`, has come to run it: it names `op`, its input is there, and no check of the unit finds a
fault (R278, R366, R399). The
pin dbg_en has not fallen since the request began: one for which it has runs as it would with the pin high
(`Obligations.PowerAndClocks`, R70). -/
abbrev State.Runs (s : State) (rid : Nat) (r : Req) (op : Op) : Prop :=
  s.findReq rid = some r ∧ r.phase = .running ∧ r.desc.op = some op ∧ r.itemHere = true ∧
  (r.testRoot = true → s.pins.dbgEn = true) ∧ s.soundFor r = true

/-- The state once a running request holds its key, with the key and the source that its operation works on; none where there is no
such key, or the request waits for the keep secret (R24, R254, R431, R559). -/
def State.keyed (s : State) (r : Req) (need : KeyNeed) (contents : List Nat := [0]) : Option (State × KeyMat × Bytes) :=
  match s.ensureKey r need with
  | (t, .ok m0) =>
    match t.keyAndSource { r with key := some m0 } need contents with
    | .ok m src => some (t, m, src)
    | _ => none
  | _ => none

/-- The recipe that polynomial engine n runs, in `e`, has come to the micro-command `m`, which is `op`; what it reads is whole, and no
check of the engine finds a fault (R331, R335). -/
abbrev State.AtMicro (s : State) (n : Nat) (e : RecipeEnv) (m : Micro) (op : Nat) : Prop :=
  s.recipeEnv n = some e ∧ Micro.ofWord (e.mem.word e.run.pc) = m ∧ m.op = op ∧ s.microSound n e m = true

/-- Lockkeeper n replaced. -/
def State.putLk (s : State) (n : Nat) (l : Lk) : State := s.updLk n (fun _ => l)

end Sys2Proof.Machine
end

