-- ==== Sys2Proof/Certificates/Slice0/Obligations.lean ====
section
/-!
DEFINITION. The statements about the block.

A statement that a command completes concludes `exec c s = .next (s.wrapUp u)`: `u` is the state that the command's own effect gives,
and `State.wrapUp` is what ends every command, which leaves a settled state as it is (`Obligations.SettledStateStands`).
-/
open Sys2Proof Sys2Proof.Machine

/-! ### Lockkeeper instructions -/

def Obligations.ContextRegisterInstructions : Prop :=
  ∀ (s : State) (lk : Fin 8) (l : Lk) (c : Nat) (w : W16) (b : Byte),
    let next (f : Ctx → Ctx) : State := s.putLk lk (l.updCtx c (fun x => { f x with pc := x.pc + 1 }))
    (s.AtInstr lk l c w .nop → exec (.lkNop lk) s = .next (s.wrapUp (next id))) ∧
    (s.AtInstr lk l c w .clrC → exec (.clrC lk) s = .next (s.wrapUp (next fun x => { x with fC := false }))) ∧
    (s.AtInstr lk l c w .setC → exec (.setC lk) s = .next (s.wrapUp (next fun x => { x with fC := true }))) ∧
    (s.AtInstr lk l c w .clrV → exec (.clrV lk) s = .next (s.wrapUp (next fun x => { x with fV := false }))) ∧
    (s.AtInstr lk l c w .movXA → exec (.movXA lk) s = .next (s.wrapUp (next fun x =>
      { x with x := x.a.setWidth 16, fZ := x.a.setWidth 16 == 0, fN := x.a.getLsbD 15 }))) ∧
    (s.AtInstr lk l c w .movAX → exec (.movAX lk) s = .next (s.wrapUp (next fun x =>
      { x with a := x.x.setWidth 32, fZ := x.x == 0, fN := false }))) ∧
    (s.AtInstr lk l c w .movYA → exec (.movYA lk) s = .next (s.wrapUp (next fun x =>
      { x with y := x.a.setWidth 16, fZ := x.a.setWidth 16 == 0, fN := x.a.getLsbD 15 }))) ∧
    (s.AtInstr lk l c w .movAY → exec (.movAY lk) s = .next (s.wrapUp (next fun x =>
      { x with a := x.y.setWidth 32, fZ := x.y == 0, fN := false }))) ∧
    (s.AtInstr lk l c w .movYX → exec (.movYX lk) s = .next (s.wrapUp (next fun x =>
      { x with y := x.x, fZ := x.x == 0, fN := x.x.getLsbD 15 }))) ∧
    (s.AtInstr lk l c w .movXY → exec (.movXY lk) s = .next (s.wrapUp (next fun x =>
      { x with x := x.y, fZ := x.y == 0, fN := x.y.getLsbD 15 }))) ∧
    (s.AtInstr lk l c w .incX → exec (.incX lk) s = .next (s.wrapUp (next fun x =>
      { x with x := x.x + 1, fZ := x.x + 1 == 0, fN := (x.x + 1).msb }))) ∧
    (s.AtInstr lk l c w .decX → exec (.decX lk) s = .next (s.wrapUp (next fun x =>
      { x with x := x.x - 1, fZ := x.x - 1 == 0, fN := (x.x - 1).msb }))) ∧
    (s.AtInstr lk l c w .incY → exec (.incY lk) s = .next (s.wrapUp (next fun x =>
      { x with y := x.y + 1, fZ := x.y + 1 == 0, fN := (x.y + 1).msb }))) ∧
    (s.AtInstr lk l c w .decY → exec (.decY lk) s = .next (s.wrapUp (next fun x =>
      { x with y := x.y - 1, fZ := x.y - 1 == 0, fN := (x.y - 1).msb }))) ∧
    (s.AtInstr lk l c w (.cmpX b) → exec (.cmpX lk b) s = .next (s.wrapUp (next fun x =>
      { x with fZ := x.x == b.setWidth 16, fN := (x.x - b.setWidth 16).msb, fC := decide (b.toNat ≤ x.x.toNat), fV := false }))) ∧
    (s.AtInstr lk l c w (.cmpY b) → exec (.cmpY lk b) s = .next (s.wrapUp (next fun x =>
      { x with fZ := x.y == b.setWidth 16, fN := (x.y - b.setWidth 16).msb, fC := decide (b.toNat ≤ x.y.toNat), fV := false }))) ∧
    (s.AtInstr lk l c w (.addX b) → exec (.addX lk b) s = .next (s.wrapUp (next fun x =>
      { x with x := x.x + b.signExtend 16, fZ := x.x + b.signExtend 16 == 0, fN := (x.x + b.signExtend 16).msb }))) ∧
    (s.AtInstr lk l c w (.addY b) → exec (.addY lk b) s = .next (s.wrapUp (next fun x =>
      { x with y := x.y + b.signExtend 16, fZ := x.y + b.signExtend 16 == 0, fN := (x.y + b.signExtend 16).msb })))

def Obligations.OperandInstructions : Prop :=
  (∀ (s : State) (lk : Fin 8) (l : Lk) (c : Nat) (w : W16) (op : LkOperand) (p : OpPlace) (v : W32),
     (s.putLk lk l).lkPlace lk c op = .ok p → (s.putLk lk l).lkLoadAt lk c p = .ok v → l.flaws (op.keys ++ p.keys c) = [] →
     let next (f : Ctx → Ctx) : State := (if p.readsTime then s.drawn else s).putLk lk
       (l.updCtx c (fun x => { f x with pc := x.pc + BitVec.ofNat 16 op.words }))
     (s.AtInstr lk l c w (.ldA op) → exec (.ldA lk op) s = .next (s.wrapUp (next fun x =>
       { x with a := v, fZ := v == 0, fN := v.msb }))) ∧
     (s.AtInstr lk l c w (.addA op) → exec (.addA lk op) s = .next (s.wrapUp (next fun x =>
       { x with a := x.a + v, fZ := x.a + v == 0, fN := (x.a + v).msb, fC := decide (2 ^ 32 ≤ x.a.toNat + v.toNat),
                fV := x.a.msb == v.msb && (x.a + v).msb != x.a.msb }))) ∧
     (s.AtInstr lk l c w (.adcA op) → exec (.adcA lk op) s = .next (s.wrapUp (next fun x =>
       let r := x.a + v + (if x.fC then 1 else 0)
       { x with a := r, fZ := r == 0, fN := r.msb, fC := decide (2 ^ 32 ≤ x.a.toNat + v.toNat + (if x.fC then 1 else 0)),
                fV := x.a.msb == v.msb && r.msb != x.a.msb }))) ∧
     (s.AtInstr lk l c w (.subA op) → exec (.subA lk op) s = .next (s.wrapUp (next fun x =>
       { x with a := x.a - v, fZ := x.a - v == 0, fN := (x.a - v).msb, fC := decide (v.toNat ≤ x.a.toNat),
                fV := x.a.msb != v.msb && (x.a - v).msb != x.a.msb }))) ∧
     (s.AtInstr lk l c w (.sbcA op) → exec (.sbcA lk op) s = .next (s.wrapUp (next fun x =>
       let r := x.a - v - (if x.fC then 0 else 1)
       { x with a := r, fZ := r == 0, fN := r.msb, fC := decide (v.toNat + (if x.fC then 0 else 1) ≤ x.a.toNat),
                fV := x.a.msb != v.msb && r.msb != x.a.msb }))) ∧
     (s.AtInstr lk l c w (.andA op) → exec (.andA lk op) s = .next (s.wrapUp (next fun x =>
       { x with a := x.a &&& v, fZ := x.a &&& v == 0, fN := (x.a &&& v).msb, fC := false, fV := false }))) ∧
     (s.AtInstr lk l c w (.orA op) → exec (.orA lk op) s = .next (s.wrapUp (next fun x =>
       { x with a := x.a ||| v, fZ := x.a ||| v == 0, fN := (x.a ||| v).msb, fC := false, fV := false }))) ∧
     (s.AtInstr lk l c w (.xorA op) → exec (.xorA lk op) s = .next (s.wrapUp (next fun x =>
       { x with a := x.a ^^^ v, fZ := x.a ^^^ v == 0, fN := (x.a ^^^ v).msb, fC := false, fV := false }))) ∧
     (s.AtInstr lk l c w (.cmpA op) → exec (.cmpA lk op) s = .next (s.wrapUp (next fun x =>
       { x with fZ := x.a - v == 0, fN := (x.a - v).msb, fC := decide (v.toNat ≤ x.a.toNat),
                fV := x.a.msb != v.msb && (x.a - v).msb != x.a.msb })))) ∧
  (∀ (s : State) (lk : Fin 8) (l : Lk) (c : Nat) (w : W16) (op : LkOperand16) (v : W32),
     (s.putLk lk l).lkLoadAt lk c (lkPlace16 op) = .ok v → l.flaws ((lkPlace16 op).keys c) = [] →
     let next (f : Ctx → Ctx) : State := (if (lkPlace16 op).readsTime then s.drawn else s).putLk lk
       (l.updCtx c (fun x => { f x with pc := x.pc + BitVec.ofNat 16 op.words }))
     (s.AtInstr lk l c w (.ldX op) → exec (.ldX lk op) s = .next (s.wrapUp (next fun x =>
       { x with x := v.setWidth 16, fZ := v.setWidth 16 == 0, fN := (v.setWidth 16).msb }))) ∧
     (s.AtInstr lk l c w (.ldY op) → exec (.ldY lk op) s = .next (s.wrapUp (next fun x =>
       { x with y := v.setWidth 16, fZ := v.setWidth 16 == 0, fN := (v.setWidth 16).msb }))))

/-- Data words 0x0000–0x1BFF are plain memory (R187).

A store that a command names, in any of its forms, is carried out when the context comes to it.

16-bit stores of A to LKC_GO, LKC_HEARTBEAT, and to FRM_DONE and FRM_ADMIT of a frame of the context that has neither been
issued nor completed (R189 to R191, R194). -/
def Obligations.StoreInstructions : Prop :=
  (∀ (s : State) (lk : Fin 8) (l : Lk) (c : Nat) (w : W16) (op : LkOperand) (op16 : LkOperand16) (a : Nat) (h : Bool),
     let next (m : Lk) (words : Nat) : State := s.putLk lk (m.updCtx c (fun x => { x with pc := x.pc + BitVec.ofNat 16 words }))
     let put (m : Lk) (b : Nat) (v : W16) : Lk := { m with data := setKey 0 m.data b v, bad := dropKey (0x4000 + b) m.bad }
     a < 0x1C00 → (h ∨ a + 1 < 0x1C00) → l.flaws op.keys = [] →
     ((s.putLk lk l).lkPlace lk c op = .ok (.word a h) → s.AtInstr lk l c w (.stA op) →
       exec (.stA lk op) s = .next (s.wrapUp (next
         (if h then put l a ((l.ctx c).a.setWidth 16)
          else put (put l a ((l.ctx c).a.setWidth 16)) (a + 1) (((l.ctx c).a >>> 16).setWidth 16)) op.words))) ∧
     (lkPlace16 op16 = .word a true → s.AtInstr lk l c w (.stX op16) →
       exec (.stX lk op16) s = .next (s.wrapUp (next (put l a (l.ctx c).x) op16.words))) ∧
     (lkPlace16 op16 = .word a true → s.AtInstr lk l c w (.stY op16) →
       exec (.stY lk op16) s = .next (s.wrapUp (next (put l a (l.ctx c).y) op16.words)))) ∧
  (∀ (s : State) (lk : Fin 8) (l : Lk) (c : Nat) (w : W16) (i : LkInstr) (f : Fin 32) (v : W16),
     s.AtInstr lk l c w i →
     ((s.putLk lk l).storedWord lk c i 0x7F02 = some v → v.getLsbD 0 = true →
       exec (.lkcGo lk) s = .next (s.wrapUp ((s.putLk lk l).lkExecute lk c w i))) ∧
     ((s.putLk lk l).storedWord lk c i 0x7F03 = some v →
       exec (.lkcHeartbeat lk) s = .next (s.wrapUp ((s.putLk lk l).lkExecute lk c w i))) ∧
     ((s.putLk lk l).storedWord lk c i (0x4030 + 64 * f.val) = some v →
       exec (.frmDone lk f v) s = .next (s.wrapUp ((s.putLk lk l).lkExecute lk c w i))) ∧
     ((s.putLk lk l).storedWord lk c i (0x4033 + 64 * f.val) = some v →
       exec (.frmAdmit lk f v) s = .next (s.wrapUp ((s.putLk lk l).lkExecute lk c w i)))) ∧
  (∀ (s : State) (lk : Fin 8) (l : Lk) (c : Nat) (w : W16) (op : LkOperand) (f : Fin 32) (r : Req) (t : State),
     let s' := s.putLk lk l
     let a := (l.ctx c).a.setWidth 16
     s.AtInstr lk l c w (.stA op) → l.flaws op.keys = [] →
     (s'.lkPlace lk c op = .ok (.word 0x7F02 true) → (l.ctx c).a.getLsbD 0 = true →
       exec (.lkcGo lk) s = .next (s.wrapUp (s.putLk lk
         ({ l with go := true }.updCtx c (fun x => { x with pc := x.pc + BitVec.ofNat 16 op.words }))))) ∧
     (s'.lkPlace lk c op = .ok (.word 0x7F03 true) →
       exec (.lkcHeartbeat lk) s = .next (s.wrapUp (s.putLk lk
         ({ l with heart := 0 }.updCtx c (fun x => { x with pc := x.pc + BitVec.ofNat 16 op.words }))))) ∧
     (s'.lkPlace lk c op = .ok (.word (0x4030 + 64 * f.val) true) →
       (l.frame f).valid = true → (l.frame f).ctx = some c → (l.frame f).killed = false → (l.frame f).completed = false →
       (l.frame f).issued = false → l.flaws (l.heldKeys c) = [] → s'.frmDone lk (l.frame f) (frmResult lk (l.frame f) a) = some t →
       exec (.frmDone lk f a) s = .next (s.wrapUp (t.advance lk c op.words))) ∧
     (s'.lkPlace lk c op = .ok (.word (0x4033 + 64 * f.val) true) → (l.ctx c).a.getLsbD 0 = true →
       (l.frame f).valid = true → (l.frame f).ctx = some c → (l.frame f).killed = false → (l.frame f).completed = false →
       (l.frame f).issued = false → (l.frame f).admitted = false → l.flaws (l.heldKeys c) = [] → s'.findReq (l.frame f).req = some r → s'.admitWith r = some t →
       exec (.frmAdmit lk f a) s = .next (s.wrapUp (((t.updLk lk Lk.releaseFrames).ctxWaits lk c .ready).advance lk c op.words))))

def Obligations.ShiftInstructions : Prop :=
  ∀ (s : State) (lk : Fin 8) (l : Lk) (c : Nat) (w : W16) (k : LkCount),
    let n := match k with
      | .imm i => i.toNat
      | .fromX => (l.ctx c).x.toNat % 32
    let next (f : W32 → W32 × Bool) : State := s.putLk lk (l.updCtx c (fun _ =>
      let x := l.ctx c
      let p := if n = 0 then (x.a, x.fC) else f x.a
      { x with a := p.1, fZ := p.1 == 0, fN := p.1.msb, fC := p.2, fV := false, pc := x.pc + 1 }))
    (s.AtInstr lk l c w (.shl k) → exec (.shl lk k) s = .next (s.wrapUp (next fun a => (a <<< n, a.getLsbD (32 - n))))) ∧
    (s.AtInstr lk l c w (.shr k) → exec (.shr lk k) s = .next (s.wrapUp (next fun a => (a >>> n, a.getLsbD (n - 1))))) ∧
    (s.AtInstr lk l c w (.asr k) → exec (.asr lk k) s = .next (s.wrapUp (next fun a => (a.sshiftRight n, a.getLsbD (n - 1))))) ∧
    (s.AtInstr lk l c w (.rol k) → exec (.rol lk k) s = .next (s.wrapUp (next fun a =>
      ((a <<< n) ||| (a >>> (32 - n)), a.getLsbD (32 - n))))) ∧
    (s.AtInstr lk l c w (.ror k) → exec (.ror lk k) s = .next (s.wrapUp (next fun a =>
      ((a >>> n) ||| (a <<< (32 - n)), a.getLsbD (n - 1)))))

def Obligations.BranchesAndJumps : Prop :=
  (∀ (s : State) (lk : Fin 8) (l : Lk) (c : Nat) (w : W16) (o : Byte),
     let next (taken : Ctx → Bool) : State := s.putLk lk (l.updCtx c (fun x =>
       { x with pc := x.pc + 1 + (if taken x then o.signExtend 16 else 0) }))
     (s.AtInstr lk l c w (.beq o) → exec (.beq lk o) s = .next (s.wrapUp (next fun x => x.fZ))) ∧
     (s.AtInstr lk l c w (.bne o) → exec (.bne lk o) s = .next (s.wrapUp (next fun x => !x.fZ))) ∧
     (s.AtInstr lk l c w (.bcs o) → exec (.bcs lk o) s = .next (s.wrapUp (next fun x => x.fC))) ∧
     (s.AtInstr lk l c w (.bcc o) → exec (.bcc lk o) s = .next (s.wrapUp (next fun x => !x.fC))) ∧
     (s.AtInstr lk l c w (.bmi o) → exec (.bmi lk o) s = .next (s.wrapUp (next fun x => x.fN))) ∧
     (s.AtInstr lk l c w (.bpl o) → exec (.bpl lk o) s = .next (s.wrapUp (next fun x => !x.fN))) ∧
     (s.AtInstr lk l c w (.bvs o) → exec (.bvs lk o) s = .next (s.wrapUp (next fun x => x.fV))) ∧
     (s.AtInstr lk l c w (.bvc o) → exec (.bvc lk o) s = .next (s.wrapUp (next fun x => !x.fV))) ∧
     (s.AtInstr lk l c w (.bra o) → exec (.bra lk o) s = .next (s.wrapUp (next fun _ => true)))) ∧
  (∀ (s : State) (lk : Fin 8) (l : Lk) (c : Nat) (w t v : W16) (rest : List W16),
     let next (f : Ctx → Ctx) : State := s.putLk lk (l.updCtx c f)
     let x := l.ctx c
     let sound := l.flaws (dataKey c (t + x.x).toNat) = []
     (s.AtInstr lk l c w (.jmp t) → exec (.jmp lk t) s = .next (s.wrapUp (next fun x => { x with pc := t }))) ∧
     (s.AtInstr lk l c w (.jsr t) → x.stack.length < 16 →
       exec (.jsr lk t) s = .next (s.wrapUp (next fun x => { x with stack := (x.pc + 2) :: x.stack, pc := t }))) ∧
     (s.AtInstr lk l c w (.jmpX t) → (s.putLk lk l).lkRead lk c (t + x.x).toNat = .ok v → sound →
       exec (.jmpX lk t) s = .next (s.wrapUp (next fun x => { x with pc := v }))) ∧
     (s.AtInstr lk l c w (.jsrX t) → x.stack.length < 16 → (s.putLk lk l).lkRead lk c (t + x.x).toNat = .ok v → sound →
       exec (.jsrX lk t) s = .next (s.wrapUp (next fun x => { x with stack := (x.pc + 2) :: x.stack, pc := v }))) ∧
     (s.AtInstr lk l c w .rts → x.stack = v :: rest →
       exec (.rts lk) s = .next (s.wrapUp (next fun x => { x with stack := rest, pc := v }))) ∧
     (s.AtInstr lk l c w .rte → x.emuStat.getLsbD 4 = true →
       exec (.rte lk) s = .next (s.wrapUp (next fun x =>
         { x with fN := x.emuStat.getLsbD 3, fZ := x.emuStat.getLsbD 2, fC := x.emuStat.getLsbD 1, fV := x.emuStat.getLsbD 0,
                  emuStat := x.emuStat &&& 0xFFEF, pc := x.emuPc }))) ∧
     (s.AtInstr lk l c w (.jsr t) → 16 ≤ x.stack.length →
       exec (.jsr lk t) s = .next (s.wrapUp ((s.putLk lk l).haltLk lk c .stack))) ∧
     (s.AtInstr lk l c w .rts → x.stack = [] → exec (.rts lk) s = .next (s.wrapUp ((s.putLk lk l).haltLk lk c .stack))) ∧
     (s.AtInstr lk l c w .rte → x.emuStat.getLsbD 4 = false →
       exec (.rte lk) s = .next (s.wrapUp ((s.putLk lk l).haltLk lk c .emuState))))

/-- TRAP and a reserved word (R205, R206). -/
def Obligations.EmulationTraps : Prop :=
  ∀ (s : State) (lk : Fin 8) (l : Lk) (c : Nat) (w : W16) (k : Byte),
    let x := l.ctx c
    let saved (stat : Nat) : State := s.putLk lk (l.updCtx c (fun x => { x with
      emuPc := x.pc + 1, emuWord := w, emuNext := l.nextWord (x.pc.toNat + 1),
      emuStat := BitVec.ofNat 16 (x.flagBits + 0x10 + stat), pc := 0x0010 }))
    (s.AtInstr lk l c w (.trap k) → l.emuEn = true → x.emuStat.getLsbD 4 = false →
      exec (.trap lk k) s = .next (s.wrapUp (saved (0x20 + 256 * k.toNat)))) ∧
    (s.AtInstr lk l c w (.trap k) → l.emuEn = false →
      exec (.trap lk k) s = .next (s.wrapUp ((s.putLk lk l).haltLk lk c .noHandler))) ∧
    (s.AtInstr lk l c w (.trap k) → l.emuEn = true → x.emuStat.getLsbD 4 = true →
      exec (.trap lk k) s = .next (s.wrapUp ((s.putLk lk l).haltLk lk c .doubleTrap))) ∧
    (s.lkRuns lk = true → (s.lk lk).dispatch = l → l.cur = some c → l.fetchInstr x.pc.toNat = .ok (w, none) →
      l.flaws [x.pc.toNat] = [] → l.emuEn = true →
      x.emuStat.getLsbD 4 = false → exec (.reservedWord lk) s = .next (s.wrapUp (saved 0)))

/-- Words that the instruction reads have no bad symbols. ISSUE (R202) of a frame that is ready is accepted while its class has a lane
free or has none, changes C alone while it has none free, and gives the status of a frame that is KILLED or complete; it halts on a slot that
is busy, on a frame of another context, and on one not ready. WAITE and POLLE (R203), YIELD and END (R204). The cause that the fault
event of an abandoned frame shows is a free value. -/
def Obligations.EngineInstructions : Prop :=
  ∀ (s : State) (lk : Fin 8) (l : Lk) (c : Nat) (w : W16) (k : Fin 4) (r : Req) (u : Machine.Unit),
    let s' := s.putLk lk l
    let sl := (l.ctx c).slots.getD k {}
    let f := sl.cmdFrame.toNat % 32
    let fr := l.frame f
    let next (g : Ctx → Ctx) : State := s.putLk lk (l.updCtx c (fun x => { g x with pc := x.pc + 1 }))
    let slot (g : Slot → Slot) (x : Ctx) : Ctx := { x with fC := true, slots := modAt g k x.slots }
    let taken (x : Ctx) : Ctx := { slot Slot.free x with a := sl.result, fZ := fld sl.result 7 0 == 0 }
    let halted := Host.Outcome.next (s.wrapUp (s'.haltLk lk c .badCmd))
    let ready := s.AtInstr lk l c w (.issue k) ∧ l.flaws (issueKeys c k ++ frameKeys f) = []
    let offered := ready ∧ Unit.ofCommand (sl.cmdUnit.toNat / 256) = some u ∧ sl.state ≠ 1 ∧ sl.state ≠ 2 ∧ fr.valid = true ∧ fr.ctx = some c
    let issuable := offered ∧ fr.killed = false ∧ fr.completed = false ∧ fr.admitted = true ∧ fr.issued = false ∧ s.findReq fr.req = some r
    let waits (i : LkInstr) (st : Nat) := s.AtInstr lk l c w i ∧ l.flaws (resultKeys c k) = [] ∧ s'.slotState lk c k = st
    (issuable → ((s.freeLane u).isSome = true ∨ classLanes u = []) →
      exec (.issue lk k) s = .next (s.wrapUp ((s'.acceptIssue lk c k f r u (sl.cmdUnit.toNat % 256) (s.freeLane u)
        (sl.cmdFrame.getLsbD 15)).advance lk c 1))) ∧
    (issuable → s.freeLane u = none → classLanes u ≠ [] →
      exec (.issue lk k) s = .next (s.wrapUp (next fun x => { x with fC := false }))) ∧
    (offered → (fr.killed = true ∨ fr.completed = true) →
      exec (.issue lk k) s = .next (s.wrapUp (next (slot fun y =>
        { y with state := 3, result := BitVec.ofNat 32 fr.doneStatus })))) ∧
    (ready → (Unit.ofCommand (sl.cmdUnit.toNat / 256) = none ∨ sl.state = 1 ∨ sl.state = 2 ∨ fr.valid = false ∨ fr.ctx ≠ some c) →
      exec (.issue lk k) s = halted) ∧
    (offered → fr.killed = false → fr.completed = false → (fr.admitted = false ∨ fr.issued = true) →
      exec (.issue lk k) s = .next (s.wrapUp (s'.haltLk lk c .frameState))) ∧
    (waits (.waite k) 3 → exec (.waite lk k) s = .next (s.wrapUp (next taken))) ∧
    (waits (.polle k) 3 → exec (.polle lk k) s = .next (s.wrapUp (next taken))) ∧
    (∀ st ∈ [1, 2], waits (.waite k) st → exec (.waite lk k) s = .next (s.wrapUp (s.putLk lk (l.switch c (.waitSlot k))))) ∧
    (∀ st ∈ [1, 2], waits (.polle k) st → exec (.polle lk k) s = .next (s.wrapUp (next fun x => { x with fC := false }))) ∧
    (waits (.waite k) 0 → exec (.waite lk k) s = halted) ∧
    (waits (.polle k) 0 → exec (.polle lk k) s = halted) ∧
    (s.AtInstr lk l c w .yield → exec (.yield lk) s = .next (s.wrapUp (s.putLk lk
      ((l.updCtx c (fun x => { x with pc := x.pc + 1 })).switch c .ready)))) ∧
    (s.AtInstr lk l c w .endCtx →
      let gone := (l.heldBy c).filter (fun e => !e.2.issued && !e.2.completed && !e.2.killed)
      let ended := (s'.freeSlots lk (· == c)).updLk lk (fun _ => ((l.updCtx c (fun x =>
        { x with pc := x.pc + 1, stack := [], slots := x.slots.map Slot.free })).leave (· == c)).switch c .idle)
      exec (.lkEnd lk) s = .next (s.wrapUp (((gone.foldl (fun t e =>
        let t := t.endReq e.2.req .engineFault .lockkeeper lk
        ((t.recordEvent srcLkTrap (lkDomain lk) t.pick).1).drawn) ended).updLk lk Lk.releaseFrames).checkDrained lk)))

/-! ### Lockkeepers as units -/

def Obligations.LockkeeperManagement : Prop :=
  ∀ (s : State) (acc : Access) (lk : Fin 8) (d : W32) (c src : Nat) (l : Lk),
    let s' := s.store { id := .lkCtrl, i := lk } d
    (s.Carries acc (RegId.lkCtrl.target lk 0) → bitOf d 1 = true → bitOf d 2 = false → bitOf d 3 = false → (s.lk lk).state = .running →
      exec (.lkDrain acc lk d) s = .next (s.wrapUp
        (((s'.updLk lk (fun l => { l with state := .draining })).checkDrained lk).respond .okay 0))) ∧
    (s.Carries acc (RegId.lkCtrl.target lk 0) → bitOf d 1 = false → bitOf d 2 = true → bitOf d 3 = false →
      ((s.lk lk).state = .drained ∨ (s.lk lk).state = .halted) → s.domOn (lkDomain lk) = true →
      exec (.lkRestart acc lk d) s = .next (s.wrapUp ((s'.updLk lk (fun l => l.released.dispatch)).respond .okay 0))) ∧
    (s.Carries acc (RegId.lkCtrl.target lk 0) → bitOf d 1 = false → bitOf d 2 = false → bitOf d 3 = true →
      ((s.lk lk).state = .drained ∨ (s.lk lk).state = .halted) → src = s'.regF .lkCtrl 6 4 lk → src ≠ lk.val →
      ((s.lk src).state = .running ∨ (s.lk src).state = .drained) → s.domOn (lkDomain lk) = true →
      exec (.lkClone acc lk d) s = .next (s.wrapUp
        ((s'.updLk lk (fun l => { l with state := .loading, cloneFrom := some src })).respond .okay 0))) ∧
    ((s.lk lk).cloneFrom = some src → (s.lk lk).state = .loading → (s.lk lk).onWake ≠ some none →
      exec (.lkCloneDone lk) s = .next (s.wrapUp (s.updLk lk (fun l => l.cloned (s.lk src))))) ∧
    ((s.lk lk).dispatch = l → l.cur = some c → l.serves = true →
      exec (.heartbeatExpiry lk) s = .next (s.wrapUp ((s.putLk lk l).haltLk lk c .heartbeat))) ∧
    (let fixed (e : Nat × Bool) : Bool := !e.2 && decide (e.1 < 0x6000)
     exec (.lkScrub lk) s = .next (s.wrapUp
      (((s.lk lk).bad.filter fixed).foldl (fun s _ => s.event srcLkMemCorr (lkDomain lk) lk)
        (s.updLk lk (fun l => { l with bad := l.bad.filter (fun e => !fixed e) }))))) ∧
    ((s.lk lk).state = .draining →
      let fetched := s.giveUpFetch lk (plainResult .resourceBusy .lockkeeper lk)
      let idle := (fetched.freeSlots lk (fun _ => true)).updLk lk (fun l =>
        (({ l with ctxs := List.replicate 8 {}, cur := none } : Lk).leave (fun _ => true)).rest .drained)
      exec (.lkDrainLimitExpiry lk) s = .next (s.wrapUp
        (((idle.endFrames lk .resourceBusy (s.lk lk).unissued).updLk lk Lk.releaseFrames).moveReservations 0 lk)))

/-! ### Submission and completion rings -/

def Obligations.RingDoorbells : Prop :=
  ∀ (s : State) (acc : Access) (p : Fin 64) (n : Fin 16) (d : W32),
    let t := fld d 16 0
    (s.Carries acc (RegId.sqDb.target p n) → (s.sqState p n = 1 ∨ s.sqState p n = 4) → t < 2 * s.sqSize p n →
      ringSub (s.sqSize p n) t (s.sqTail p n) + s.sqFill p n ≤ s.sqSize p n →
      exec (.sqDb acc p n d) s = .next (s.wrapUp
        (((s.setReg .sqTail (BitVec.ofNat 32 t) p n).resumeFetch p n).respond .okay 0))) ∧
    (s.Carries acc (RegId.sqDb.target p n) → (s.sqState p n = 1 ∨ s.sqState p n = 4) →
      ¬(t < 2 * s.sqSize p n ∧ ringSub (s.sqSize p n) t (s.sqTail p n) + s.sqFill p n ≤ s.sqSize p n) →
      exec (.sqDb acc p n d) s = .next (s.wrapUp (((s.setB .sqStatus 5 true p n).ringEvent p n).respond .okay 0))) ∧
    (s.Carries acc (RegId.sqDb.target p n) → s.sqState p n ≠ 1 → s.sqState p n ≠ 4 →
      exec (.sqDb acc p n d) s = .next (s.wrapUp (s.respond .okay 0))) ∧
    (s.Carries acc (RegId.cqDb.target p n) → (s.cqState p n = 1 ∨ s.cqState p n = 2) → t < 2 * s.cqSize p n →
      ringSub (s.cqSize p n) t (s.cqHead p n) ≤ s.cqFill p n →
      exec (.cqDb acc p n d) s = .next (s.wrapUp ((s.setReg .cqHead (BitVec.ofNat 32 t) p n).respond .okay 0))) ∧
    (s.Carries acc (RegId.cqDb.target p n) → (s.cqState p n = 1 ∨ s.cqState p n = 2) →
      ¬(t < 2 * s.cqSize p n ∧ ringSub (s.cqSize p n) t (s.cqHead p n) ≤ s.cqFill p n) →
      exec (.cqDb acc p n d) s = .next (s.wrapUp (((s.setB .cqStatus 5 true p n).ringEvent p (16 + n)).respond .okay 0))) ∧
    (s.Carries acc (RegId.cqDb.target p n) → s.cqState p n ≠ 1 → s.cqState p n ≠ 2 →
      exec (.cqDb acc p n d) s = .next (s.wrapUp (s.respond .okay 0)))

def Obligations.RingControl : Prop :=
  ∀ (s : State) (acc : Access) (p : Fin 64) (n : Fin 16) (d : W32),
    (s.Carries acc (RegId.sqCtrl.target p n) → bitOf d 0 = true → bitOf d 1 = false →
      (s.sqState p n = 0 ∨ s.sqState p n = 3) → n.val < s.sqMax p → 4 ≤ s.regF .sqCfg 4 0 p n → s.regF .sqCfg 4 0 p n ≤ 16 →
      s.regF .sqBaseLo 5 0 p n = 0 → (s.sqInPlace p n = true ∨ s.cqState p (s.sqCq p n) = 1) → (∀ r ∈ s.resets, r.ptn ≠ p.val) →
      exec (.sqEnable acc p n d) s = .next (s.wrapUp
        (({ ((s.setReg .sqHead 0 p n).setReg .sqTail 0 p n).setSqState p n 1 with
            fetchNext := setKey 0 s.fetchNext (16 * p + n) 0, chainRun := setKey 0 s.chainRun (16 * p + n) 0 } : State).respond .okay 0))) ∧
    (s.Carries acc (RegId.sqCtrl.target p n) → bitOf d 0 = false → bitOf d 1 = true → (s.sqState p n = 1 ∨ s.sqState p n = 4) →
      exec (.sqStop acc p n d) s = .next (s.wrapUp ((s.stopRing p n).respond .okay 0))) ∧
    (s.Carries acc (RegId.sqCtrl.target p n) → bitOf d 0 = true → bitOf d 1 = true →
      exec (.sqStop acc p n d) s = .next (s.wrapUp (((s.setB .sqStatus 4 true p n).ringEvent p n).respond .okay 0))) ∧
    (s.Carries acc (RegId.cqCtrl.target p n) → bitOf d 0 = true → bitOf d 1 = false →
      s.cqState p n = 0 → n.val < s.cqMax p → 4 ≤ s.regF .cqCfg 4 0 p n → s.regF .cqCfg 4 0 p n ≤ 16 → s.regF .cqBaseLo 5 0 p n = 0 →
      exec (.cqEnable acc p n d) s = .next (s.wrapUp
        (({ ((s.setReg .cqHead 0 p n).setReg .cqTail 0 p n).setCqState p n 1 with
            coal := setKey {} s.coal (16 * p + n) {} } : State).respond .okay 0))) ∧
    (s.Carries acc (RegId.cqCtrl.target p n) → bitOf d 0 = false → bitOf d 1 = true → s.cqState p n ≠ 2 → s.cqNamed p n = false →
      s.cqWaits p n = false →
      exec (.cqDisable acc p n d) s = .next (s.wrapUp ((s.setCqState p n 0).respond .okay 0))) ∧
    (s.Carries acc (RegId.cqCtrl.target p n) → bitOf d 0 = false → bitOf d 1 = false → bitOf d 2 = true → s.cqState p n = 2 →
      (∀ r ∈ s.retries, ¬(r.ptn = p.val ∧ r.cq = n.val ∧ (r.running = true ∨ r.wanted = true))) →
      exec (.cqResume acc p n d) s = .next (s.wrapUp
        ((({ s with retries := s.retries.map (fun r => if r.ptn = p.val ∧ r.cq = n.val then { r with wanted := true } else r) } : State).retryWrites
          (s.retries.map (fun r => if r.ptn = p.val ∧ r.cq = n.val then { r with wanted := true } else r))).respond .okay 0)))

def Obligations.CompletionsAndInterrupts : Prop :=
  ∀ (s t u : State) (p : Fin 64) (n : Fin 16) (rid : Nat) (e : Entry) (r : Req) (res : Result) (m : IrqMsg),
    (s.cqState p n = 1 → s.cqFill p n < s.cqSize p n → s.cuOut = false → s.writable p n = some (u, e, r) →
      u.issueWrite (.entry p r.ring n (s.cqTail p n) (r.place = .holding)) p (s.cqBase p n + 16 * (s.cqTail p n % s.cqSize p n))
        (e.bytes (if s.cqTail p n < s.cqSize p n then 1 else 0)) = some t →
      exec (.completionEntryWrite p n) s = .next (s.wrapUp
        (((({ t with cu := t.cu.erase e } : State).setReg .cqTail (BitVec.ofNat 32 ((s.cqTail p n + 1) % (2 * s.cqSize p n))) p n).coalesce
          p n e.irq).entryWritten e.req))) ∧
    (s.findReq rid = some r → r.phase = .finished → r.result = some res → r.inPlaceStage = 2 → s.cuOut = false →
      s.issueWrite (.inPlaceStatus rid) r.ptn (s.slotAddr r + 0x3C) (toLe 4 ((entryOf s r res).word 0).toNat) = some t →
      exec (.inplaceStatusWrite rid) s = .next (s.wrapUp
        ((t.updReq rid (fun r => { r with inPlaceStage := 3 })).coalesce r.ptn (s.sqCq r.ptn r.ring) r.desc.irq))) ∧
    (s.regB .cqCfg 13 p n = true → (getKey {} s.coal (16 * p + n)).time ≠ 0 →
      exec (.coalesceTimer p n) s = .next (s.wrapUp
        (({ s with coal := setKey {} s.coal (16 * p + n) {} } : State).fireVec p (s.regF .cqCfg 12 8 p n)
          (({ s with coal := setKey {} s.coal (16 * p + n) {} } : State).cqAfter p n)))) ∧
    (s.irqs.find? (fun m => m.ptn = p.val) = some m → m.after = [] →
      exec (.irqMessageAccept p) s = .next (s.wrapUp { s with irqs := s.irqs.erase m })) ∧
    (s.held = false → exec (.requestResultPosted rid) s = .next (s.wrapUp (s.postResult rid))) ∧
    (s.findReq rid = some r → s.badLink r true = none → r.mayRelease = true →
      cellFaults r.bas.badOut (r.bas.released / 128) = [] →
      s.issueWrites (.output rid) r.ptn (r.desc.dstAddr.toNat + r.bas.released) (slice r.output r.bas.released 128) = some t →
      exec (.outputCellRelease rid) s = .next (s.wrapUp
        (if r.bas.creditedOut < r.outCells then
          (t.updReq rid (fun r => { r with bas := { r.bas with
            released := r.bas.released + (slice r.output r.bas.released 128).length, creditedOut := r.bas.creditedOut + 1,
            outBanks := r.bas.outBanks.drop 1 ++ r.bas.outBanks.take 1 } })).watermark (2 * r.bas.lane.getD 0 + 1) (r.occOut - 1) r.occOut
        else
          (t.updReq rid (fun r => { r with bas := { r.bas with
            released := r.bas.released + (slice r.output r.bas.released 128).length, outBanks := r.bas.outBanks.drop 1 } })).returnCells
              (r.bas.outBanks.take 1)))) ∧
    (s.sqState p n = 2 → s.sqAvail p n ≠ 0 → (p.val, n.val) ∉ s.flushEnded → (∀ x ∈ s.reads, x.purpose ≠ .flush p n) →
      (∀ x ∈ s.resets, x.ptn ≠ p.val) → (s.sqInPlace p n = true ∨ (s.cqState p (s.sqCq p n) = 1 ∧ 0 < s.cqRoom p (s.sqCq p n) ∧
        ∀ e ∈ s.cu, e.ptn = p.val → e.cq ≠ s.sqCq p n)) →
      s.issueRead (.flush p n) p (s.sqBase p n + 64 * (s.sqNext p n % s.sqSize p n)) 64 = some t →
      exec (.ringStopFlushFetch p n) s = .next (s.wrapUp t))

def Obligations.DmaResponses : Prop :=
  ∀ (s : State) (tag : Fin 256) (wtag : Fin 128) (data : Bytes) (x : ReadXfer) (w : WriteXfer),
    let done : State := { s with reads := s.reads.filter (fun y => y.tag ≠ x.tag) }.returnCells x.held
    let wrote : State := { s with writes := s.writes.filter (fun y => y.tag ≠ w.tag) }
    (s.reads.find? (fun x => x.tag = tag.val) = some x → x.dead = false → x.discard = false →
      x.len ≤ x.got + (x.useful data).length →
      exec (.dmaReadReturn tag data false false) s = .next (s.wrapUp (done.readData x (x.useful data) false))) ∧
    (s.reads.find? (fun x => x.tag = tag.val) = some x → x.dead = false → x.discard = false →
      x.got + (x.useful data).length < x.len →
      exec (.dmaReadReturn tag data false false) s = .next (s.wrapUp
        (({ s with reads := s.reads.map (fun y => if y.tag = tag.val then { y with got := x.got + (x.useful data).length } else y) } : State).readData
          x (x.useful data) false))) ∧
    (s.writes.find? (fun w => w.tag = wtag.val) = some w → w.dead = false →
      exec (.dmaWriteCompletion wtag false) s = .next (s.wrapUp ((wrote.irqWrote wtag none).writeDone w))) ∧
    (s.writes.find? (fun w => w.tag = wtag.val) = some w → w.dead = false →
      exec (.dmaWriteCompletion wtag true) s = .next (s.wrapUp
        (((wrote.irqWrote wtag w.purpose.retry).event srcDmaFabric (wrote.unitDomain 6 w.engine) w.engine).writeFault w))) ∧
    (s.reads.find? (fun x => x.tag = tag.val && !x.dead) = some x →
      exec (.dmaTimeout false tag) s = .next (s.wrapUp ((s.event srcDmaTimeout (s.unitDomain 6 x.engine) x.engine).readDead x))) ∧
    (s.writes.find? (fun w => w.tag = tag.val && !w.dead) = some w →
      exec (.dmaTimeout true tag) s = .next (s.wrapUp ((s.event srcDmaTimeout (s.unitDomain 6 w.engine) w.engine).writeDead w)))

/-! ### Resets and start-up -/

def Obligations.ResetPins : Prop :=
  ∀ s : State,
    let fall (t : State) : State := { t with pins := { t.pins with warmLow := true } }
    (s.pins.coldLow = true → s.pins.warmLow = false →
      exec .coldResetRelease s = .next (s.wrapUp ({ s with pins := { s.pins with coldLow := false } } : State).startUp)) ∧
    (s.pins.warmLow = true → s.pins.coldLow = false →
      exec .warmResetRelease s = .next (s.wrapUp ({ s with pins := { s.pins with warmLow := false } } : State).startUp)) ∧
    (s.pins.coldLow = false →
      exec .coldResetAssert s = .next (s.wrapUp
        (let t := ({ s with pins := { s.pins with fltErrN := true } } : State).resetTo true
         { t with pins := { t.pins with coldLow := true } }))) ∧
    (s.pins.warmLow = false → s.pins.blkRstReq = 0 →
      exec .warmResetAssert s = .next (s.wrapUp (fall ((s.recordLevel 1 6).resetTo false)))) ∧
    (s.pins.warmLow = false → s.pins.blkRstReq = 1 → exec .warmResetAssert s = .next (s.wrapUp (fall (s.resetTo false)))) ∧
    (s.pins.warmLow = false → s.pins.blkRstReq = 2 →
      exec .warmResetAssert s = .next (s.wrapUp (fall ((s.resetTo true).setB .fltEsc 24 true))))

def Obligations.StartUpCommands : Prop :=
  ∀ (s : State) (acc : Access) (d : W32) (w : W64) (c : Nat) (i : Option Nat),
    let b := s.boot.image ++ toLe 8 w.toNat
    let floor := s.floorWords (numsFrom 0x020 4) (min (s.reg .mgtImageSv).toNat 128 - s.svFloor)
    let rejected (cause : Nat) (sec : Option Nat) : State :=
      (((({ s with boot := { s.boot with streaming := false, image := [], badShadow := false, abandoned := false } } : State).lksReset.setReg .mgtCause
        (BitVec.ofNat 32 (sec.getD 0xFFFF * 2 ^ 16 + cause))).endStartup phRejected).event srcManifestRejected 0 0)
    (s.boot.streaming = true → (b.length < 256 ∨ b.length < loadLen b) →
      exec (.mfsWord w) s = .next (s.wrapUp { s with boot := { s.boot with image := b } })) ∧
    (s.boot.streaming = true → 256 ≤ b.length → loadLen b ≤ b.length →
      exec (.mfsWord w) s = .next (s.wrapUp
        { s.setF .mgtStatus 3 0 phVerify with boot := { s.boot with image := b, streaming := false } })) ∧
    (s.boot.streaming = true → exec .mfsTimeout s = .next (s.wrapUp (rejected 0x0F none))) ∧
    (s.phase = phVerify → s.boot.badShadow = true → exec .manifestVerifyDone s = .next (s.wrapUp (rejected 0x10 none))) ∧
    (s.phase = phVerify → s.boot.badShadow = false → s.imageFails s.boot.image false = some (c, i) →
      exec .manifestVerifyDone s = .next (s.wrapUp (rejected c i))) ∧
    (s.phase = phVerify → s.boot.badShadow = false → s.imageFails s.boot.image false = none →
      exec .manifestVerifyDone s = .next (s.wrapUp (s.commitImage s.boot.image))) ∧
    (s.Carries acc (RegId.mgtReload.target 0 0) → bitOf d 0 = true → s.phase = phRejected →
      exec (.mgtReload acc d) s = .next (s.wrapUp (s.startLoad.respond .okay 0))) ∧
    (s.Carries acc (RegId.mgtSvCommit.target 0 0) → bitOf d 0 = true → s.regB .mgtSvCommit 0 = false →
      floor ≠ [] → exec (.mgtSvCommit acc d) s = .next (s.wrapUp (((s.setB .mgtSvCommit 0 true).program .svFloor floor).respond .okay 0)))

def Obligations.StagingAndApply : Prop :=
  ∀ (s : State) (acc : Access) (d : W32) (lk : Fin 8) (c : Nat) (sec : Option Nat) (j : ApplyJob) (e : Bool) (b : Bytes) (x : Section),
    let stage := RegId.mgtStage.target 0 0
    let apply := RegId.mgtApply.target 0 0
    let named := (s.setF .mgtApplyStatus 13 8 (fld d 5 0)).setF .mgtApplyStatus 23 16 0
    let xs := imageSections s.boot.stage
    let verified : State := { s with boot := { s.boot with stageUnits := [] } }
    (s.Carries acc stage → bitOf d 0 = true → bitOf d 1 = false → 1 ≤ s.regF .mgtStageLen 17 0 → s.regF .mgtStageLen 17 0 ≤ 131072 →
      exec (.mgtStageGo acc d) s = .next (s.wrapUp (((s.dropStage.setReg .mgtStageStatus 0).setF .mgtStageStatus 3 0 1).respond .okay 0))) ∧
    (s.Carries acc stage → bitOf d 0 = false → bitOf d 1 = true →
      exec (.mgtStageDiscard acc d) s = .next (s.wrapUp ((s.dropStage.setReg .mgtStageStatus 0).respond .okay 0))) ∧
    (∀ w, s.regF .mgtStageStatus 3 0 = 2 → s.boot.stageUnits.length = 2 → s.boot.stageBad = [(w, true)] →
      exec .stageVerifyDone s = .next (s.wrapUp (verified.stageFail 0x10))) ∧
    (s.regF .mgtStageStatus 3 0 = 2 → s.boot.stageUnits.length = 2 → s.boot.stageBad = [] → verified.imageFails s.boot.stage true = some (c, sec) →
      exec .stageVerifyDone s = .next (s.wrapUp (verified.stageFail c))) ∧
    (s.regF .mgtStageStatus 3 0 = 2 → s.boot.stageUnits.length = 2 → s.boot.stageBad = [] → verified.imageFails s.boot.stage true = none →
      exec .stageVerifyDone s = .next (s.wrapUp
        ((verified.setF .mgtStageStatus 3 0 3).setF .mgtStageStatus 23 16 (le16 s.boot.stage 0x16)))) ∧
    (s.Carries acc apply → bitOf d 31 = true → s.regF .mgtApplyStatus 1 0 = 1 →
      exec (.mgtApply acc d) s = .next (s.wrapUp ((s.setF .mgtApplyStatus 23 16 1).respond .okay 0))) ∧
    (s.Carries acc apply → bitOf d 31 = true → s.regF .mgtApplyStatus 1 0 ≠ 1 → s.regF .mgtStageStatus 3 0 ≠ 3 →
      s.boot.stageBad = [] → exec (.mgtApply acc d) s = .next (s.wrapUp ((named.applyEnds 2 3).respond .okay 0))) ∧
    (s.Carries acc apply → bitOf d 31 = true → s.regF .mgtApplyStatus 1 0 ≠ 1 → s.regF .mgtStageStatus 3 0 = 3 → s.boot.stageBad = [] →
      xs.length ≤ fld d 5 0 → exec (.mgtApply acc d) s = .next (s.wrapUp ((named.applyEnds 3 3).respond .okay 0))) ∧
    (s.Carries acc apply → bitOf d 31 = true → s.regF .mgtApplyStatus 1 0 ≠ 1 → s.regF .mgtStageStatus 3 0 = 3 → s.boot.stageBad = [] →
      xs[fld d 5 0]? = some x → exec (.mgtApply acc d) s = .next (s.wrapUp ((named.applySection xs x).respond .okay 0))) ∧
    (s.boot.job = some j → j.kind ≤ 2 → j.left.head? = some lk.val → (s.lk lk).after = .load e b →
      (s.lk lk).state = .loading → (s.lk lk).cloneFrom = none → s.domOn (lkDomain lk) = true →
      exec (.lkLoad lk) s = .next (s.wrapUp
        ((((s.updLk lk (fun l => l.withSection e b)).updLk lk (fun l => l.released.dispatch)).applyPass j false).applyLk)))

/-! ### The register port -/

def Obligations.CarriedWrites : Prop :=
  ∀ (s : State) (acc : Access) (a : Nat) (d : W32) (x : RegRef) (y : Alias),
    portAddr a = true → s.Carries acc (targetOf a) →
    (aliasAt a = none → regAt a = some x →
      exec (.registerWrite acc a d) s = .next (s.wrapUp ((s.writeReg x d).respond .okay 0))) ∧
    (aliasAt a = some y → y.group = false →
      exec (.broadcastWrite acc a d) s = .next (s.wrapUp
        (((numsFrom 0 y.count).foldl (fun s n => s.writeReg { id := y.id, i := n } d) s).respond .okay 0))) ∧
    (aliasAt a = some y → y.group = true →
      exec (.groupAliasWrite acc a d) s = .next (s.wrapUp
        ((((numsFrom 0 y.count).filter (fun n => bitOf (s.reg (if n < 32 then .engGroupSelLo else .engGroupSelHi) y.code) (n % 32))).foldl
          (fun s n => s.writeReg { id := y.id, i := n } d) s).respond .okay 0)))

def Obligations.WritesByFieldType : Prop :=
  ∀ (s : State) (x : RegRef) (d : W32) (b : Nat), b < 32 →
    ((s.store x d).reg x.id x.i x.j).getLsbD b =
      (if x.id.row.w1c.testBit b && d.getLsbD b then false
       else if x.id.row.wr.testBit b && !x.id.row.wo.testBit b && !s.locked x.id then d.getLsbD b
       else (s.reg x.id x.i x.j).getLsbD b)

def Obligations.PortReads : Prop :=
  ∀ (s : State) (acc : Access) (a : Nat) (x : RegRef) (h : RegId) (n : Fin 8), s.pins.fabRun = true →
    (portAddr a = true → aliasAt a = none → regAt a = some x → s.judge acc false (targetOf a) = .okay → latchedHalf x.id = some h →
      exec (.latchLoRead acc a) s = .next (s.wrapUp
        { (if readsFree x.id then s.drawn else s) with
          port := { s.port with rsp := .okay, rdata := s.readReg x, earlier := [], latchHi := s.readReg { x with id := h } } })) ∧
    (portAddr a = true → aliasAt a = none → regAt a = some x → s.judge acc false (targetOf a) = .okay → isLatched x.id = true →
      exec (.latchLoRead acc a) s = .next (s.wrapUp { s with port := { s.port with rsp := .okay, rdata := s.port.latchHi, earlier := [] } })) ∧
    (s.judge acc false (RegId.rngData.target n 0) = .okay → s.regB .rngDataStatus 0 = true → n.val ∉ s.rng.read → s.rng.read.length < 7 →
      exec (.rngDataRead acc n) s = .next (s.wrapUp
        (({ s.setReg .rngData 0 n with rng := { s.rng with read := n :: s.rng.read } } : State).respond .okay (s.reg .rngData n)))) ∧
    (s.judge acc false (RegId.rngData.target n 0) = .okay → s.regB .rngDataStatus 0 = true → n.val ∉ s.rng.read → s.rng.read.length = 7 →
      exec (.rngDataRead acc n) s = .next (s.wrapUp
        ((({ s.setReg .rngData 0 n with rng := { s.rng with read := n :: s.rng.read } } : State).setB .rngDataStatus 0 false).respond .okay
          (s.reg .rngData n)))) ∧
    (s.judge acc false (RegId.rngData.target n 0) = .okay → (s.regB .rngDataStatus 0 = false ∨ n.val ∈ s.rng.read) →
      exec (.rngDataRead acc n) s = .next (s.wrapUp ((s.setB .rngDataStatus 1 true).respond .okay 0)))

/-- R544 and R552. That a refused request of R479 sets CTRL_ERR is the model's reading, log entry 125. -/
def Obligations.RefusedAccessesAreLogged : Prop :=
  ∀ (s : State) (acc : Access) (a : Nat) (d : W32) (code : Nat) (rsp : Rsp),
    s.pins.fabRun = true → portAddr a = true → (rsp = .refused ∧ code = 1 ∨ rsp = .unmapped ∧ code = 2) →
    let logged (s : State) (wr : Nat) : State :=
      if s.regB .mgtAccLogA 31 then s.setB .mgtAccLogA 30 true
      else (s.setReg .mgtAccLogA (BitVec.ofNat 32 (2 ^ 31 + code * 2 ^ 28 + wr * 2 ^ 27 + b2n acc.dbg * 2 ^ 26 + b2n acc.priv * 2 ^ 25 +
        acc.ptn.val))).setReg .mgtAccLogB (BitVec.ofNat 32 a)
    (s.judge acc false (targetOf a) = rsp →
      exec (.refusedOrUnmappedRead acc a) s = .next (s.wrapUp ((logged s 0).respond rsp 0))) ∧
    (s.judge acc true (targetOf a) = rsp → a ≠ 0x140C ∨ s.phase = phReady ∨ bitOf d 31 = false →
      exec (.registerWrite acc a d) s = .next (s.wrapUp ((logged s 1).respond rsp 0))) ∧
    (s.judge acc true (targetOf 0x140C) = .refused → s.phase ≠ phReady → bitOf d 31 = true → acc.ptn.val = 0 → acc.priv = true → acc.dbg = false →
      a = 0x140C → code = 1 →
      exec (.registerWrite acc a d) s = .next (s.wrapUp ((logged (s.setB .mgtRcvCtrl 30 true) 1).respond .refused 0)))

/-- R543, in phase READY and outside the safe state, for an access that is not from the debug port. -/
def Obligations.AccessRights : Prop :=
  ∀ (s : State) (acc : Access) (a p : Nat) (x : Option RegRef),
    s.phase = phReady → s.safe = false → acc.dbg = false → regAt a = x →
    let p0 := acc.ptn.val = 0 ∧ acc.priv = true
    let reads := s.judge acc false (targetOf a) ≠ .refused
    let writes := s.judge acc true (targetOf a) ≠ .refused
    let window := 0x100000 + 0x10000 * p ≤ a ∧ a < 0x110000 + 0x10000 * p ∧ p < 64
    let own (q : Prop) := s.enabled p = true ∧ acc.ptn.val = p ∧ q
    ((a < 0x100000 ∨ (0x500000 ≤ a ∧ a < 0x700000)) → (reads ↔ p0) ∧ (writes ↔ p0)) ∧
    (0x700000 ≤ a → a < 0x800000 →
      (reads ↔ p0 ∧ (s.lc = lcBlank ∨ s.lc = lcFactory)) ∧ (writes ↔ p0 ∧ (s.lc = lcBlank ∨ s.lc = lcFactory))) ∧
    (window → (reads ↔ own True)) ∧
    (window → (x.map (·.id) = some .sqDb ∨ x.map (·.id) = some .cqDb) → (writes ↔ own True)) ∧
    (window → (x.map (·.id) = some .keyStage ∨ x.map (·.id) = some .keyStageAttr ∨ x.map (·.id) = some .keyCommit) →
      (writes ↔ own (acc.priv = true ∧ s.keyWrite p = true))) ∧
    (window → x.map (·.id) ∉ [some .sqDb, some .cqDb, some .keyStage, some .keyStageAttr, some .keyCommit] →
      (writes ↔ own (acc.priv = true)))

/-- Writes of MGT_PTN_A, MGT_PTN_B and MGT_PTN_C (R457). -/
def Obligations.PartitionTableWrites : Prop :=
  ∀ (s : State) (acc : Access) (d : W32) (p : Fin 64) (r : RegId) (word code : Nat),
    (r = .mgtPtnA ∧ word = 0 ∨ r = .mgtPtnB ∧ word = 1 ∨ r = .mgtPtnC ∧ word = 2) →
    s.Carries acc (targetOf (r.addr p 0)) → s.locked r = false → (∀ j, s.boot.job = some j → j.kind ≠ 4) →
    let e := s.entryWith p word d
    (s.entryCode e = none →
      exec (.partitionTableWrite acc (r.addr p 0) d) s = .next (s.wrapUp ((s.applyEntry e).respond .okay 0))) ∧
    (s.entryCode e = some code →
      exec (.partitionTableWrite acc (r.addr p 0) d) s = .next (s.wrapUp
        ((s.setReg .mgtPtnCtrlErr (BitVec.ofNat 32 (p.val * 256 + code))).respond .okay 0)))

/-! ### The scheduler -/

/-- OPEN_TOW_TIMEOUT ends the fetches of the ring that wait for its tail, and changes nothing else. -/
def Obligations.GrantsAndArrivals : Prop :=
  (∀ (s u : State) (lk c : Fin 8) (p n ch f : Nat) (fe : Fetch) (m : Nat × Bytes × Bool) (i : Nat) (x : Ctx),
     let t := ({ s.drawn with sched := { s.sched with eligible := s.sched.eligible.filter s.ptnEligible } } : State).guardFloors (s.pick % 1000)
     let placed := s.placeFrame lk i f fe none 0 m
     (s.held = false → s.phase = phReady → s.accepts lk = true → (∀ d ∈ s.grantDomains lk, s.domOn d = true) →
       t.offer lk (s.pick % 1000) = some (u, p, n, ch) →
       exec (.lockkeeperGrant lk) s = .next (s.wrapUp
         ((u.updLk lk (fun l => { l with fetch := some { ptn := p, ring := n, charge := ch } })).readDescriptor lk p n))) ∧
     (s.held = false → (s.lk lk).fetch = some fe → fe.complete = true → (s.lk lk).serves = true → fe.got = [m] →
       (Desc.ofBytes m.2.1).chain = false → (enumFrom 0 (s.lk lk).ctxs).find? (fun e => e.2.state == .idle) = some (i, x) →
       (s.lk lk).freeRun 1 = some f → towFault (placed.reqsOf [s.nextReq]) = none →
       exec (.descriptorArrival lk) s = .next (s.wrapUp
         ((placed.updLk lk (fun l => { l with fetch := none })).updLk lk (fun l =>
           (l.updCtx i (fun _ => startCtx 0x0020 (BitVec.ofNat 16 (f * 0x40)) 1 .ready)).dispatch)))) ∧
     (s.held = false → ((s.lk lk).ctx c).state = .waitAdmit f → (s.findReq ((s.lk lk).frame f).req).bind s.admitWith = some u →
       exec (.towAdmit lk c) s = .next (s.wrapUp
         ((u.updLk lk Lk.releaseFrames).updLk lk (fun l => (l.updCtx c (fun x => { x with state := .ready })).dispatch))))) ∧
  (∀ (s : State) (p : Fin 64) (n : Fin 16), ∃ u : State,
     exec (.openTowTimeout p n) s = .next (s.wrapUp u) ∧ { u with lks := s.lks } = s ∧ u.lks.length = s.lks.length ∧
     ∀ k, u.lk k = (match (s.lk k).fetch with
       | some f => if k < 8 ∧ f.ptn = p.val ∧ f.ring = n.val ∧ f.waitsTail = true then
             { s.lk k with fetch := some { f with waitsTail := false, ended := true } }
           else s.lk k
       | none => s.lk k))

def Obligations.DispatchToUnits : Prop :=
  ∀ (s : State) (rid inst ci co : Nat) (r : Req) (banks free : List Nat) (next : Nat) (f : Fail),
    (s.findReq rid = some r → r.phase = .queued → r.ready = false → s.depsDone r = true → s.fenceOpen r = true →
      exec (.towMemberIssue rid) s = .next (s.wrapUp (s.updReq rid (fun r => { r with ready := true })))) ∧
    (s.firstWaiting = some r → ci = min r.bas.limitIn r.desc.cellsIn → co = min r.bas.limitOut r.desc.cellsOut →
      s.canGrant r.ptn (ci + co) = true → s.takeCells (ci + co) s.basin.free s.basin.next = some (banks, free, next) →
      exec .basinGrant s = .next (s.wrapUp
        ((({ s with basin := { s.basin with free := free, next := next } } : State).updReq r.id (fun r => { r with bas := { r.bas with
          granted := true, inBanks := banks.take ci, outBanks := banks.drop ci, credited := ci, creditedOut := co } })).pumpRead r.id))) ∧
    (s.findReq rid = some r → r.phase = .queued → r.ready = true → s.held = false → s.startFault r = none →
      s.inService r.unit inst = true → (r.want = 0xFF ∨ r.want = inst) → r.weirReached = true → r.sizeKnown = true → s.waitsKeep r = false →
      s.badLink r false = none → ¬(r.unit = .bne ∧ s.drawn.unitTaken .bne inst = true) → s.drawn.mayStart r inst (s.pick % 1000) = true →
      (∀ d ∈ s.drawn.startDomains r inst (s.pick % 1000), s.drawn.domOn d = true) → (s.drawn.needsRandom r = true → s.rngState = rngReady) →
      exec (.engineStart rid inst) s = .next (s.wrapUp (s.drawn.begin r inst (s.pick % 1000)))) ∧
    (s.findReq rid = some r → r.phase = .queued → r.ready = true → s.held = false → s.startFault r = some f →
      exec (.engineStart rid inst) s = .next (s.wrapUp
        ((s.updReq rid (fun r => { r with phase := .running, inst := if r.want = 0xFF then 0 else r.want })).failOp rid f)))

/-- That a commit also replaces a set that an apply left waiting is the model's choice, log entry 117. -/
def Obligations.FramesAndSettings : Prop :=
  ∀ (s : State) (acc : Access) (d : W32) (p : Nat),
    let q := s.shadowSet
    let start (u : State) : State :=
      let t := u.flagShort
      { t with sched := { t.sched with capacityNow := t.floorCapacity t.sched.running, eligible := (numsFrom 0 64).filter t.ptnEligible } }
    let counted : State := { s.countViolations with
      sched := { s.countViolations.sched with fetched := [], urgentUsed := [], urgentEnded := [], urgentSpent := false, rsvFlag := [] } }
    let framed := counted.setF .qosStatus 31 16 (counted.regF .qosStatus 31 16 + 1)
    (s.phase = phReady → counted.sched.captured = none → exec .frameBoundary s = .next (s.wrapUp (start framed))) ∧
    (s.Carries acc (RegId.qosCtrl.target 0 0) → bitOf d 0 = true → bitOf d 1 = false → s.qosFails q = 0 →
      exec (.qosCommit acc d) s = .next (s.wrapUp
        ((({ (s.setF .qosStatus 11 8 0).setB .qosStatus 0 false with
            sched := { s.sched with captured := some { q with capacity := ((s.setF .qosStatus 11 8 0).setB .qosStatus 0 false).floorCapacity q } } } : State).setB .qosStatus 1 true).respond .okay 0))) ∧
    (s.Carries acc (RegId.qosCtrl.target 0 0) → bitOf d 0 = true → bitOf d 1 = false → s.qosFails q ≠ 0 →
      exec (.qosCommit acc d) s = .next (s.wrapUp (((s.setF .qosStatus 11 8 (s.qosFails q)).setB .qosStatus 0 true).respond .okay 0))) ∧
    (s.Carries acc (RegId.qosCtrl.target 0 0) → bitOf d 0 = false → bitOf d 1 = true →
      exec (.qosDiscard acc d) s = .next (s.wrapUp ((s.loadShadows s.sched.running).respond .okay 0))) ∧
    (s.Carries acc (RegId.qosCtrl.target 0 0) → bitOf d 0 = true → bitOf d 1 = true →
      exec (.qosCommit acc d) s = .next (s.wrapUp ((s.setB .qosStatus 2 true).respond .okay 0)) ∧
      exec (.qosDiscard acc d) s = .next (s.wrapUp ((s.setB .qosStatus 2 true).respond .okay 0))) ∧
    (s.Carries acc (RegId.qosViolCtrl.target 0 0) → bitOf d 31 = true → bitOf d 30 = false → p = fld d 5 0 →
      exec (.qosViolClear acc d) s = .next (s.wrapUp
        (((((s.store { id := .qosViolCtrl } d).setReg .qosViolFloor 0 p).setReg .qosViolRsv 0 p).setReg .qosViolLat 0 p).respond .okay 0)))

/-- Whether a fixed-time signature overruns its bound is a free value, log entry 132. -/
def Obligations.SuspensionAndPauses : Prop :=
  ∀ (s : State) (rid i core : Nat) (r c c' : Req) (cores : List Nat) (b : Berth),
    let v := s.drawn
    let time := s.pick % 1000
    (v.urgentStuck time = some c' → v.suspendChoice c' time = some c → v.findReq rid = some r → r.berth = some i →
      c.bytesLeft ≤ r.bytesLeft → v.suspendable r = true → v.coreUsable c' r.inst time = true → b = v.berth i →
      exec (.cipherSuspend rid) s = .next (s.wrapUp
        (let t := v.setBerth i { b with state := .suspended, susp := v.suspWords r b }
         (t.updReq rid (fun r => { r with phase := .suspended })).setF .symSusp 15 0 (t.regF .symSusp 15 0 r.inst + 1) r.inst))) ∧
    (s.findReq rid = some r → r.phase = .suspended → r.berth = some i → v.resumeCores r time = cores →
      cores[v.pick % max 1 cores.length]? = some core → (∀ d ∈ v.drawn.startDomains r core time, v.drawn.domOn d = true) →
      exec (.cipherResume rid) s = .next (s.wrapUp ((v.drawn.restoreBerth i r.desc.init).updReq rid (fun r =>
        { r with phase := .running, inst := core })))) ∧
    (s.findReq rid = some r → r.unit = .ply → r.phase = .running → s.isolated r.ptn = true →
      (r.desc.op = some .mldsaSign ∨ r.desc.op = some .mldsaSignMu) → s.unitIntervals r.ptn 3 r.inst ≠ [] →
      (∀ e ∈ s.unitIntervals r.ptn 3 r.inst, e.2 < 1000) →
      exec (.intervalEndPause rid) s = .next (s.wrapUp
        (if s.overruns r then v.updReq rid (fun r => { r with phase := .paused }) else v))) ∧
    (s.findReq rid = some r → r.phase = .paused → s.unitIntervals r.ptn 3 r.inst ≠ [] →
      exec (.pausedSignResume rid) s = .next (s.wrapUp (s.updReq rid (fun r => { r with phase := .running })))) ∧
    (s.findReq rid = some r → r.unit = .ply → r.phase = .running → (s.ply r.inst).run.map (·.req) = some rid →
      exec (.declaredTimeEnd rid) s = .next (s.wrapUp
        ((((s.setB .plyErr 2 true r.inst).event srcPlyEngine (s.unitDomain 3 r.inst) r.inst).plyDone r).failOp rid ⟨.engineFault, none⟩))) ∧
    (s.findReq rid = some r → r.phase = .queued → s.held = false → s.needsRandom r = true → s.rngState ≠ rngReady →
      exec (.rngWaitLimitExpiry rid) s = .next (s.wrapUp
        (s.endReq rid (if s.rngState = rngHalted then .entropyHalted else .entropyNotReady) r.unit)))

/-! ### Cipher cores and berths -/

/-- What left early stands in front of the result: the model's choice, log entry 130. -/
def Obligations.CipherOperations : Prop :=
  (∀ (s : State) (rid i : Nat) (r : Req) (src : Bytes),
     let rows : List ((Nat → Instr) × Op) := [(.encrypt, .encrypt), (.decrypt, .decrypt), (.aeadSeal, .aeadSeal), (.aeadOpen, .aeadOpen),
       (.macGenerate, .macGenerate), (.macVerify, .macVerify)]
     let d := r.desc
     let b := s.berth i
     let iv12 := if d.ivgen then s.berthIv r b (r.stateIndex.getD b.invoc) else []
     let g : Segment := {
       key := b.key.take (symKeyLen b.alg), cb := if d.init then [] else b.cb, acc := if d.init then [] else b.acc
       accTop := if d.init then 0 else b.accTop, auxk := b.auxk, hsub := b.hsub
       iv := if d.ivgen then iv12 ++ zeros 4 else r.aux.take d.ivLen
       aad := (r.aux.drop d.ivLen).take d.aadLen, data := src.take (src.length - d.srcTag)
       blocks := if d.init then 0 else b.msgBlocks, aadBytes := if d.init then d.aadLen else b.aadBytes }
     let res := segmentResult d g src iv12 r
     let t := ((if d.ivgen ∧ b.policy ≠ 2 then s.drawn else s).cacheKey (s.physical 1 r.inst)
       { berth := true, index := i, gen := b.gen, owner := r.ptn }).addBlocks r.inst (symBlocks d.mode g.data.length)
     ∀ row ∈ rows, s.Runs rid r row.2 → r.berth = some i → s.srcOf r = .ok src → r.poison = false → segmentFault d src g false = none →
       exec (row.1 rid) s = .next (s.wrapUp
         (((t.keepBefore r.id i).setBerth i (b.afterSegment d g)).produce r.id
           { res with out := r.bas.early ++ res.out.drop r.bas.early.length }))) ∧
  (∀ (s t : State) (rid slot : Nat) (r : Req) (m : KeyMat) (src : Bytes),
     let rows : List ((Nat → Instr) × Op × Nat) := [(.encrypt, .encrypt, 1), (.decrypt, .decrypt, 2), (.aeadSeal, .aeadSeal, 1),
       (.aeadOpen, .aeadOpen, 2), (.macGenerate, .macGenerate, 5), (.macVerify, .macVerify, 5)]
     let d := r.desc
     let n := symKeyLen d.algN
     let g : Segment := {
       key := m.bytes, cb := [], acc := [], accTop := 0, auxk := [], hsub := [], iv := r.aux.take d.ivLen
       aad := (r.aux.drop d.ivLen).take d.aadLen, data := src.take (src.length - d.srcTag), blocks := 0, aadBytes := d.aadLen }
     let res := segmentResult d g src [] r
     let ended (u : State) := (u.addBlocks r.inst (symBlocks d.mode g.data.length)).produce r.id
       { res with out := r.bas.early ++ res.out.drop r.bas.early.length }
     ∀ row ∈ rows, s.Runs rid r row.2.1 → r.unit = .sym → r.berth = none →
       s.keyed r { usages := [row.2.2], lens := [n], holdLen := some n } = some (t, m, src) →
       segmentFault d src g (decide (handleType d.keyH = 3)) = none → counterFault {} d 0 g.iv g.data.length = none →
       (m.slot = none → exec (row.1 rid) s = .next (s.wrapUp (ended t))) ∧
       (m.slot = some slot → exec (row.1 rid) s = .next (s.wrapUp
         (ended (t.cacheKey (t.physical 1 r.inst) { berth := false, index := slot, gen := (t.key slot).gen, owner := r.ptn })))))

def Obligations.BerthOperations : Prop :=
  ∀ (s t : State) (rid i : Nat) (fresh : Bool) (r : Req) (m : KeyMat) (src : Bytes) (p : SetupParams),
    let d := r.desc
    let n := symKeyLen d.algN
    let sub := fit 48 (Config.std .symSub [[d.alg], m.bytes])
    let body := slice src 0x20 256
    let derived (u : State) : State := if d.mode = 3 ∨ d.mode = 6 ∨ d.mode = 7 then u.cacheSlot r m else u
    r.poison = false →
    (s.Runs rid r .berthSetup → setupParams d.mode r.aux = some p →
      s.keyed r { usages := setupUsages d.mode p.dir, lens := [n], holdLen := some n } = some (t, m, src) →
      t.poisoned r = false → t.berthTarget r = .ok (i, fresh) →
      exec (.berthSetup rid) s = .next (s.wrapUp ((((derived (if fresh then t.drawn else t)).keepBefore rid i).fillBerth i {
        state := .idle, owner := r.ptn, rootReal := !t.pins.dbgEn, dir := p.dir, policy := p.policy, alg := d.algN
        msgLimit := p.limit, invoc := p.invoc, fixed := p.fixed, key := fit 64 m.bytes
        hsub := if d.mode = 3 ∨ d.mode = 6 ∨ d.mode = 7 then sub.take 16 else zeros 16
        cb := zeros 16, acc := zeros 16, auxk := if d.mode = 6 then sub.drop 16 else zeros 32 }).succeed rid [] (berthHandle i)))) ∧
    (s.Runs rid r .berthSealOut → r.berth = some i → (s.berth i).alg < 0x91 →
      exec (.berthSealOut rid) s = .next (s.wrapUp
        (({ s.drawn.keepBefore rid i with seals := setKey 0 s.seals r.ptn (getKey 0 s.seals r.ptn + 1) } : State).succeed rid
          (s.berthBlob r (s.berth i) (getKey 0 s.seals r.ptn + 1) (s.value r 12))))) ∧
    (s.Runs rid r .berthSealIn → s.srcOf r = .ok src → le32 src 0 = 1 → byteAt src 5 ≤ 1 → allZero (slice src 6 2) = true →
      allZero (slice src 0x1C 4) = true → byteAt src 4 = r.ptn →
      fit 16 (Config.std .gcmTag [s.sealKey r, slice src 0x10 12, src.take 0x20, body]) = slice src 0x120 16 →
      s.allocBerth r.ptn = some i →
      exec (.berthSealIn rid) s = .next (s.wrapUp (((s.drawn.drawn.keepBefore rid i).fillBerth i
        { Berth.ofImage (fit 256 (Config.std .gcmPlain [s.sealKey r, slice src 0x10 12, src.take 0x20, body])) with
          owner := r.ptn, exhaust := 1 + s.drawn.pick % 5 }).succeed rid [] (berthHandle i)))) ∧
    (s.Runs rid r .berthSealIn → s.srcOf r = .ok src → le32 src 0 = 1 → byteAt src 5 ≤ 1 → allZero (slice src 6 2) = true →
      allZero (slice src 0x1C 4) = true → byteAt src 4 ≠ r.ptn →
      exec (.berthSealIn rid) s = .next (s.wrapUp (s.failOp rid ⟨.berthInvalid, none⟩))) ∧
    (s.Runs rid r .berthRelease → r.berth = some i →
      exec (.berthRelease rid) s = .next (s.wrapUp (((s.keepBefore rid i).freeBerth i).succeed rid [])))

def Obligations.BerthAndQueueManagement : Prop :=
  ∀ (s : State) (acc : Access) (d : W32) (p : Nat) (q : Fin 2048) (r : Req),
    let t := s.store { id := .brtCtrl } d
    (s.Carries acc (RegId.brtCtrl.target 0 0) → bitOf d 31 = true → t.regF .brtCtrl 29 24 = p → t.regF .brtCtrl 1 0 = 0 →
      exec (.berthInvalidatePtn acc d) s = .next (s.wrapUp
        ((((s.berths.filter (fun e => e.2.owner = p)).map (·.1)).foldl (fun s i => s.loseBerth i .berthInvalid) t).respond .okay 0))) ∧
    (s.Carries acc (RegId.brtCtrl.target 0 0) → bitOf d 31 = true → t.regF .brtCtrl 29 24 = p → t.regF .brtCtrl 1 0 = 1 →
      exec (.berthReleaseInvalid acc d) s = .next (s.wrapUp
        ((((s.berths.filter (fun e => e.2.owner = p ∧ e.2.state = .invalid)).map (·.1)).foldl State.freeBerth t).respond .okay 0))) ∧
    (s.Carries acc (RegId.bsnQctrl.target q 0) → bitOf d 0 = true → q ≠ 0x7E0 → q ≠ 0x7E1 → s.laneReq (q / 2) = some r → r.phase = .queued →
      exec (.bsnFlush acc q d) s = .next (s.wrapUp ((s.finishReq r.id (plainResult .flushed .completion 0)).respond .okay 0))) ∧
    (s.Carries acc (RegId.bsnQctrl.target q 0) → bitOf d 0 = true → q ≠ 0x7E0 → q ≠ 0x7E1 → s.laneReq (q / 2) = some r →
      (r.phase = .running ∨ r.phase = .suspended ∨ r.phase = .paused) →
      exec (.bsnFlush acc q d) s = .next (s.wrapUp
        (((s.abortEngine r).finishReq r.id { plainResult .aborted r.unit r.inst with outLen := r.bas.released }).respond .okay 0))) ∧
    (s.Carries acc (RegId.bsnQctrl.target q 0) → bitOf d 0 = true → q ≠ 0x7E0 → q ≠ 0x7E1 → s.laneReq (q / 2) = some r → r.phase = .produced →
      exec (.bsnFlush acc q d) s = .next (s.wrapUp
        ((s.finishReq r.id { plainResult .aborted r.unit r.inst with outLen := r.bas.released }).respond .okay 0))) ∧
    (s.Carries acc (RegId.bsnQctrl.target q 0) → bitOf d 0 = true → q ≠ 0x7E0 → q ≠ 0x7E1 → s.laneReq (q / 2) = some r → r.phase = .posted →
      exec (.bsnFlush acc q d) s = .next (s.wrapUp
        ((if 0 < r.outLeft ∧ r.scrub = .none then s.finishReq r.id { plainResult .aborted r.unit r.inst with outLen := r.bas.released }
          else s).respond .okay 0))) ∧
    (s.Carries acc (RegId.bsnQctrl.target 0x7E0 0) → bitOf d 0 = true →
      exec (.bsnFlush acc 0x7E0 d) s = .next (s.wrapUp ((s.dropStage.setReg .mgtStageStatus 0).respond .okay 0))) ∧
    (s.Carries acc (RegId.bsnQctrl.target 0x7E1 0) → bitOf d 0 = true →
      exec (.bsnFlush acc 0x7E1 d) s = .next (s.wrapUp (s.dropTable.respond .okay 0))) ∧
    (s.Carries acc (RegId.bsnQctrl.target q 0) → bitOf d 0 = true → q ≠ 0x7E0 → q ≠ 0x7E1 → s.laneReq (q / 2) = none →
      exec (.bsnFlush acc q d) s = .next (s.wrapUp (s.respond .okay 0))) ∧
    (s.regB .bsnErr 23 = false → exec .poolAuditDone s = .next (s.wrapUp s)) ∧
    (s.regB .bsnErr 23 = true → s.basin.stray = [] → exec .poolAuditDone s = .next (s.wrapUp (s.setB .bsnErr 23 false))) ∧
    (s.regB .bsnErr 23 = true → s.basin.stray ≠ [] →
      exec .poolAuditDone s = .next (s.wrapUp
        ((({ s.returnCells s.basin.stray with basin := { (s.returnCells s.basin.stray).basin with stray := [] } } : State).setB .bsnErr 23 false).event
          srcBsnAudit 0xFF s.basin.stray.length)))

/-! ### Hash cores -/

def Obligations.DigestsAndMacs : Prop :=
  ∀ (s t : State) (rid : Nat) (r : Req) (m : KeyMat) (src nm cust : Bytes),
    let d := r.desc
    let n := d.macLen
    let k := src.length - n
    let gens : List ((Nat → Instr) × Op) := [(.hmacGenerate, .hmacGenerate), (.kmacGenerate, .kmacGenerate)]
    let checks : List ((Nat → Instr) × Op) := [(.hmacVerify, .hmacVerify), (.kmacVerify, .kmacVerify)]
    (s.Runs rid r .hash → s.srcOf r = .ok src →
      exec (.hash rid) s = .next (s.wrapUp ((s.hashCalls r).succeed rid (hashFn d.algN (fld d.param 8 0) src)))) ∧
    (s.Runs rid r .xof → s.srcOf r = .ok src → d.algN < 0x1A →
      exec (.xof rid) s = .next (s.wrapUp ((s.hashCalls r).succeed rid (xofFn d.algN d.hashOut [] [] src)))) ∧
    (s.Runs rid r .xof → s.srcOf r = .ok src → 0x1A ≤ d.algN → cshakeStrings r.aux = some (nm, cust) →
      exec (.xof rid) s = .next (s.wrapUp ((s.hashCalls r).succeed rid (xofFn d.algN d.hashOut nm cust src)))) ∧
    (∀ row ∈ gens, s.Runs rid r row.2 → s.keyed r (macNeed d) = some (t, m, src) →
      exec (row.1 rid) s = .next (s.wrapUp ((t.hashCalls r).succeed rid (macTag d m.bytes src r.aux)))) ∧
    (∀ row ∈ checks, s.Runs rid r row.2 → s.keyed r (macNeed d) = some (t, m, src) → n ≤ src.length →
      exec (row.1 rid) s = .next (s.wrapUp
        (if macTag d m.bytes (src.take k) r.aux = src.drop k then (t.hashCalls r).succeed rid []
         else (t.hashCalls r).failOp rid ⟨.verifyFailed, none⟩)))

def Obligations.KeyDerivationFunctions : Prop :=
  ∀ (s t : State) (rid : Nat) (r : Req) (m : KeyMat) (src : Bytes) (h : W32),
    let d := r.desc
    let rows : List ((Nat → Instr) × Op) := [(.hkdf, .hkdf), (.hkdfExtract, .hkdfExtract), (.hkdfExpand, .hkdfExpand), (.kdf108, .kdf108),
      (.kdf56cOnestep, .kdf56cOneStep), (.kdf56cTwostep, .kdf56cTwoStep)]
    let out (o : Op) := kdfFn o d m.bytes r.aux
    let counted := if r.unit = .sym then (t.cacheSlot r m).addBlocks r.inst (ceilDiv d.hashOut 16) else t.hashCalls r
    ∀ row ∈ rows, s.Runs rid r row.2 → s.keyed r { usages := [usDerive] } = some (t, m, src) → kdfKeyShort row.2 d m.bytes = false →
      kdfAuxFault row.2 d r.aux = none →
      (d.holdOut = true → exec (row.1 rid) s = .next (s.wrapUp (counted.succeed r.id (out row.2)))) ∧
      (d.holdOut = false → counted.resultFault r 0 [1, 2, 3, 4, 5, 6] (out row.2).length = none → counted.resolve r d.resultH = some h →
        exec (row.1 rid) s = .next (s.wrapUp ((counted.putTarget r (out row.2)).succeed r.id [] h)))

def Obligations.SlhDsaOperations : Prop :=
  ∀ (s t : State) (rid : Nat) (r : Req) (m : KeyMat) (src : Bytes) (h : W32),
    let d := r.desc
    let n := slhN d.algN
    let seeds := s.value r (3 * n)
    let pub := seeds.drop (2 * n) ++ fit n (Config.std .slhPublic [d.head, seeds])
    let made := s.drawn.hashCalls r
    (s.Runs rid r .slhdsaKeygen → made.resultFault r 0 [usSign] (seeds.take (2 * n) ++ pub).length = none →
      made.resolve r d.resultH = some h →
      exec (.slhdsaKeygen rid) s = .next (s.wrapUp ((made.putTarget r (seeds.take (2 * n) ++ pub)).succeed r.id pub h))) ∧
    (s.Runs rid r .slhdsaSign → s.keyed r { usages := [usSign], lens := [4 * n], holdLen := some (4 * n), pair := decide (16 < n) } = some (t, m, src) →
      signedLenOk d src.length 0 = true → d.hedged = true →
      exec (.slhdsaSign rid) s = .next (s.wrapUp ((t.drawn.hashCalls r).succeed rid
        (fit (slhSig d.algN) (Config.std .slhSign [d.head, m.bytes, r.aux, src, t.value r n]))))) ∧
    (s.Runs rid r .slhdsaSign → s.keyed r { usages := [usSign], lens := [4 * n], holdLen := some (4 * n), pair := decide (16 < n) } = some (t, m, src) →
      signedLenOk d src.length 0 = true → d.hedged = false →
      exec (.slhdsaSign rid) s = .next (s.wrapUp ((t.hashCalls r).succeed rid
        (fit (slhSig d.algN) (Config.std .slhSign [d.head, m.bytes, r.aux, src, slice m.bytes (2 * n) n]))))) ∧
    (s.Runs rid r .slhdsaVerify → s.srcOf r = .ok src →
      exec (.slhdsaVerify rid) s = .next (s.wrapUp
        (if Config.holds .slhVerify [d.head, r.aux.take (2 * n), r.aux.drop (2 * n), src.take (slhSig d.algN), src.drop (slhSig d.algN)] then
          (s.hashCalls r).succeed rid []
         else (s.hashCalls r).failOp rid ⟨.verifyFailed, none⟩)))

/-! ### Stateful signatures and their log -/

/-- Types and layouts of the standards are PRESUMED, log entry 85; the waiting of one signing request for another
is log entry 103. That a signature takes two commands, and what its blob's body begins with, are the model's choices, log entries 112
and 111. -/
def Obligations.StatefulSignatures : Prop :=
  (∀ (s t : State) (rid i : Nat) (r : Req) (m : KeyMat) (src : Bytes),
     let d := r.desc
     let x := t.hbsRec i
     let body := t.hbsBody r r.aux
     let params := hbsParams d.alg body
     let id := hbsKeyId (hbsPublicKey d.alg m.bytes params)
     let linked := t.linkRec m i
     let verifies : List ((Nat → Instr) × Op) := [(.hssVerify, .hssVerify), (.xmssVerify, .xmssVerify)]
     let signs : List ((Nat → Instr) × Op) := [(.hssSign, .hssSign), (.xmssSign, .xmssSign)]
     (∀ row ∈ signs, s.Runs rid r row.2 → s.keyed r (hbsNeed d.algN) = some (t, m, src) → r.stateIndex = none →
       t.hbsBlobFault r (hbsKind d.algN) r.aux = none → id = slice r.aux 8 16 →
       hbsSigLen d.algN params + r.aux.length ≤ d.dstLen.toNat → t.recOf id = some i → le64 r.aux 0x18 ≤ x.next →
       exec (row.1 rid) s = .next (s.wrapUp
         (if x.state = 2 ∨ x.next = x.limit then
           (linked.updRec i (fun x => { x with state := 2 })).failOp r.id ⟨.stateExhausted, none⟩
          else if x.high ≤ x.next then
           let v := linked.windowCheck i
           { v with hbs := { v.hbs with waiters := v.hbs.waiters.filter (·.1 ≠ r.id) ++ [(r.id, x.keyId)] } }
          else ((linked.putRec i { x with next := x.next + 1 }).updReq r.id (fun r => { r with stateIndex := some x.next })).windowCheck i))) ∧
     (∀ row ∈ signs, ∀ q : Nat, s.Runs rid r row.2 → s.keyed r (hbsNeed d.algN) = some (t, m, src) → r.stateIndex = some q →
       exec (row.1 rid) s = .next (s.wrapUp ((t.hashCalls r).succeed r.id
         (fit (hbsSigLen d.algN params) (Config.std .hbsSign [[d.alg], m.bytes, params, body, toLe 8 q, src]) ++
           (t.hashCalls r).hbsBlob r (hbsKind d.algN) (slice r.aux 8 16) (q + 1)
             (fit body.length (hbsState d.alg m.bytes params (q + 1))))))) ∧
     (∀ row ∈ signs, s.Runs rid r row.2 → s.keyed r (hbsNeed d.algN) = some (t, m, src) → r.stateIndex = none →
       t.hbsBlobFault r (hbsKind d.algN) r.aux = none → id = slice r.aux 8 16 →
       hbsSigLen d.algN params + r.aux.length ≤ d.dstLen.toNat → t.recOf id = some i → x.next < le64 r.aux 0x18 →
       exec (row.1 rid) s = .next (s.wrapUp (t.failOp rid ⟨.paramInvalid, some 0x0203⟩))) ∧
     (∀ row ∈ verifies, s.Runs rid r row.2 → s.srcOf r = .ok src → hbsPubListed d.algN r.aux = false →
       exec (row.1 rid) s = .next (s.wrapUp (s.failOp rid ⟨.paramInvalid, none⟩))) ∧
     (∀ row ∈ verifies, s.Runs rid r row.2 → s.srcOf r = .ok src → hbsPubListed d.algN r.aux = true →
       r.aux.length = hbsPubLen d.algN r.aux → hbsSigFlaw d.algN r.aux (src.take d.param.toNat) = some .mismatch →
       exec (row.1 rid) s = .next (s.wrapUp (s.failOp rid ⟨.verifyFailed, none⟩))) ∧
     (∀ row ∈ verifies, s.Runs rid r row.2 → s.srcOf r = .ok src → hbsPubListed d.algN r.aux = true →
       r.aux.length = hbsPubLen d.algN r.aux → hbsSigFlaw d.algN r.aux (src.take d.param.toNat) = none →
       exec (row.1 rid) s = .next (s.wrapUp
         (if Config.holds .hbsVerify [[d.alg], r.aux, src.take d.param.toNat, src.drop d.param.toNat] then (s.hashCalls r).succeed rid []
          else (s.hashCalls r).failOp rid ⟨.verifyFailed, none⟩)))) ∧
  (∀ (s : State) (rid i : Nat) (r : Req) (h : W32),
     let d := r.desc
     let priv := s.hbsPrivate r
     let pub := hbsPublicKey d.alg priv r.aux
     let id := hbsKeyId pub
     let lim := hbsLimit d.alg r.aux
     let t := s.drawn.hashCalls r
     let out := pub ++ t.hbsBlob r (hbsKind d.algN) id 0 (hbsState d.alg priv r.aux 0)
     let slot := handleIndex h
     let u := t.putRec i { state := 1, keyId := id, owner := r.ptn, kind := hbsKind d.algN, limit := lim, pending := true,
                            alg := d.alg, params := r.aux }
     ∀ row ∈ ([(.hssKeygen, .hssKeygen), (.xmssKeygen, .xmssKeygen)] : List ((Nat → Instr) × Op)),
       s.Runs rid r row.2 → r.result = none → r.poison = false → hbsKeygenFault d r.aux = none → s.resultFault r 2 [usSign] (hbsKeyLen d.algN r.aux) = none →
       s.recFor = some i → s.keep.carried ≠ 2048 → out.length ≤ d.dstLen.toNat → u.resolve r d.resultH = some h →
       exec (row.1 rid) s = .next (s.wrapUp
         (((u.putKey slot { u.key slot with state := .valid, len := priv.length, recNo := i } priv ((u.key slot).pair == 1)).updReq rid (fun r =>
           { r with result := some {
               status := .ok, out := out, outLen := out.length, resultH := slotHandle slot, unit := r.unit, inst := r.inst } })).appendLog
           (.keygen id rid) (hbsKind d.algN) id (min s.hbsWindow lim)))) ∧
  (∀ (s : State) (log : List W64) (n high : Nat) (x : HbsRec) (i : Nat) (a : Append) (rest : List Append) (id : Bytes) (c : Compact),
     let known := s.relearnLog (log.take n)
     let done := ({ known with hbs := { known.hbs with scan := none } } : State).setB .hbsStatus 14 false
     let popped : State := { s with hbs := { s.hbs with appends := rest } }
     let acked := (popped.countRecord a.gen).setF .hbsStatus 31 16 (satAdd 0xFFFF ((popped.countRecord a.gen).regF .hbsStatus 31 16) 1)
     let lost := (popped.setB .hbsStatus 15 true).event srcMfsAppend 0 0
     let fails (t : State) (ws : List (Nat × Bytes)) : State := ws.foldl (fun s w => match s.findReq w.1 with
         | some r => if r.phase = .running then s.failOp w.1 ⟨.resourceBusy, none⟩ else s
         | none => s) t
     (s.hbs.scan = some x → highestOf (known.logMarks (log.take n)) x.keyId = none → exec (.logScanDone log n) s = .next (s.wrapUp
       { done with hbs := { done.hbs with unknown := done.hbs.unknown ++ [x.keyId] } })) ∧
     (s.hbs.scan = some x → highestOf (known.logMarks (log.take n)) x.keyId = some high → done.recFor = some i → exec (.logScanDone log n) s = .next (s.wrapUp
       (done.putRec i { x with next := high, high := high }))) ∧
     (s.hbs.appends = a :: rest → a.purpose = .window id →
       exec .mfsAppendAck s = .next (s.wrapUp ((acked.windowAcked id a.high).startCompact))) ∧
     (s.hbs.appends = a :: rest → a.purpose = .commit →
       exec .mfsAppendAck s = .next (s.wrapUp (acked.compacted.startCompact))) ∧
     (∀ cmd ∈ [Instr.mfsAppendErr, .mfsAppendTimeout], s.hbs.appends = a :: rest → a.purpose = .window id → lost.recOf id = some i →
       exec cmd s = .next (s.wrapUp (fails
         (({ lost with hbs := { lost.hbs with waiters := lost.hbs.waiters.filter (·.2 ≠ id) } } : State).updRec i (fun x => { x with pending := false }))
         (lost.hbs.waiters.filter (·.2 = id))))) ∧
     (s.hbs.compact = some c → c.scanning = true → c.cells ≠ [] → lookupKey 0x7E1 s.basin.badLinks = none → c.bad = [] →
       let marks := s.logMarks log
       let all := newIds marks c.carried
       let new := all.take 1024
       let t : State := { s with hbs := { s.hbs with compact := some { c with
         scanning := false, carried := c.carried ++ new, waiting := new.length, last := decide (all.length ≤ 1024) } } }
       exec (.compactionScanDone log) s = .next (s.wrapUp (if new = [] then t.commitLog else new.foldl (fun s id => s.carry marks id) t))))

/-! ### Polynomial engines -/

def Obligations.LatticeOperations : Prop :=
  (∀ (s t : State) (rid : Nat) (r : Req) (m : KeyMat) (src : Bytes) (h : W32),
     let d := r.desc
     let own := d.param.getLsbD 0
     let given (u : State) (usage : Nat) (secret : Bytes) : Prop :=
       u.resultFault r 0 [usage] secret.length = none ∧ u.resolve r d.resultH = some h
     let seed := if own then fit 64 r.aux else s.value r 64
     let set := s.plySetBytes r .mlkemEncaps
     let msg := if own then fit 32 r.aux else s.value r 32
     let ss := fit 32 (Config.std .kemShared [set, src, msg])
     let key := fit 32 (Config.std .kemDecaps [t.plySetBytes r .mlkemDecaps, m.bytes, src])
     let made := (if own then s else s.drawn).plyDone r
     (s.Runs rid r .mlkemKeygen → s.recipeFlaws r .mlkemKeygen = [] → s.orderOk r .mlkemKeygen (s.targetOrder r) = true → given made usDecap seed →
       exec (.mlkemKeygen rid) s = .next (s.wrapUp ((made.putTarget r seed).succeed r.id
         (fit (s.plyPk r .mlkemKeygen) (Config.std .kemPublic [s.plySetBytes r .mlkemKeygen, seed])) h))) ∧
     (s.Runs rid r .mlkemEncaps → s.recipeFlaws r .mlkemEncaps = [] → s.srcOf r = .ok src → s.orderOk r .mlkemEncaps r.defaultOrder = true →
       kemRangeOk d.algN set src = true → given made usDerive ss →
       exec (.mlkemEncaps rid) s = .next (s.wrapUp ((made.putTarget r ss).succeed r.id
         (fit (s.plyCt r .mlkemEncaps) (Config.std .kemCipher [set, src, msg])) h))) ∧
     (s.Runs rid r .mlkemEncaps → s.recipeFlaws r .mlkemEncaps = [] → s.srcOf r = .ok src → s.orderOk r .mlkemEncaps r.defaultOrder = true →
       kemRangeOk d.algN set src = false →
       exec (.mlkemEncaps rid) s = .next (s.wrapUp ((s.plyDone r).failOp rid ⟨.inputRange, none⟩))) ∧
     (s.Runs rid r .mlkemDecaps → s.recipeFlaws r .mlkemDecaps = [] → s.keyed r { usages := [usDecap], lens := [64], holdLen := some 64 } = some (t, m, src) →
       t.orderOk r .mlkemDecaps (r.keyOrder m) = true → src.length = t.plyCt r .mlkemDecaps → given (t.plyDone r) usDerive key →
       exec (.mlkemDecaps rid) s = .next (s.wrapUp (((t.plyDone r).putTarget r key).succeed r.id [] h)))) ∧
  (∀ (s t : State) (rid i : Nat) (r : Req) (m : KeyMat) (src : Bytes) (h : W32),
     let d := r.desc
     let xi := if d.internal then fit 32 r.aux else s.value r 32
     let made := (if d.internal then s else s.drawn).plyDone r
     let signs : List ((Nat → Instr) × Op) := [(.mldsaSign, .mldsaSign), (.mldsaSignMu, .mldsaSignMu)]
     let verifies : List ((Nat → Instr) × Op) := [(.mldsaVerify, .mldsaVerify), (.mldsaVerifyMu, .mldsaVerifyMu)]
     let signed (u : State) (o : Op) (seed : Bytes) : State :=
       let inp := [u.plySetBytes r o, d.head, seed, r.aux, src, if d.hedged then u.value r 32 else zeros 32]
       (if d.hedged then u.drawn else u).dsaFinish r o (fit (u.plyCt r o) (Config.std .dsaSign inp)) (1 + Config.size .dsaIters inp) 0
     (s.Runs rid r .mldsaKeygen → s.recipeFlaws r .mldsaKeygen = [] → s.orderOk r .mldsaKeygen (s.targetOrder r) = true → made.resultFault r 0 [usSign] xi.length = none →
       made.resolve r d.resultH = some h →
       exec (.mldsaKeygen rid) s = .next (s.wrapUp ((made.putTarget r xi).succeed r.id
         (fit (s.plyPk r .mldsaKeygen) (Config.std .dsaPublic [s.plySetBytes r .mldsaKeygen, xi])) h))) ∧
     (∀ row ∈ signs, s.Runs rid r row.2 → s.recipeFlaws r row.2 = [] → r.berth = none →
       s.keyed r { usages := [usSign], lens := [32], holdLen := some 32 } = some (t, m, src) → t.orderOk r row.2 (r.keyOrder m) = true →
       dsaMsgOk row.2 d src.length = true → d.cache = false →
       exec (row.1 rid) s = .next (s.wrapUp (signed t row.2 m.bytes))) ∧
     (∀ row ∈ signs, s.Runs rid r row.2 → s.recipeFlaws r row.2 = [] → r.berth = some i → s.linkedFault r i = none → s.srcOf r = .ok src →
       s.orderOk r row.2 (s.berth i).linkOrder = true →
       exec (row.1 rid) s = .next (s.wrapUp (signed (s.useLink r i (s.plyAreas r row.2)) row.2 ((s.berth i).key.take 32)))) ∧
     (∀ row ∈ verifies, s.Runs rid r row.2 → s.recipeFlaws r row.2 = [] → s.srcOf r = .ok src →
       let k := s.plyPk r row.2
       let n := s.plyCt r row.2
       exec (row.1 rid) s = .next (s.wrapUp
         (if Config.holds .dsaVerify [s.plySetBytes r row.2, d.head, r.aux.take k, r.aux.drop k, src.take n, src.drop n] then
           (s.plyDone r).succeed rid []
          else (s.plyDone r).failOp rid ⟨.verifyFailed, none⟩))))

/-- A polynomial comes from a slot or a stream and goes to one; what a micro-command changes is the run, the slots and their shares. The
values of shares are the model's choice, log entry 133. -/
def Obligations.RecipeArithmetic : Prop :=
  ∀ (s : State) (ply : Fin 16) (e : RecipeEnv) (m : Micro),
    let x := (e.load m.a s.free).1
    let a := (e.load m.a s.free).2
    let b (y : RecipeEnv) : List Nat := y.poly m.b
    let q := max x.run.q 1
    let goes (y : RecipeEnv) : State :=
      let z := y.follow m
      let t := s.updPly ply (fun p => { p with run := some { z.run with pc := z.run.pc + 1 }, slots := z.slots, shares := z.shares })
      if m.drawsMask then t.drawn else t
    let put (c : List Nat) : State := goes (x.store m.d c)
    let coefs (f : Std) : List Nat :=
      coefsOf x.run.q x.n (fit (4 * x.n) (Config.std f [x.params m, x.consts, coefBytes a, coefBytes (b x)]))
    let same := (numsFrom 0 (m.x + 1)).all (fun k =>
      getKey (List.replicate 256 0) e.slots (m.a + k) = getKey (List.replicate 256 0) e.slots (m.b + k))
    (s.AtMicro ply e m 0x01 → exec (.setq ply) s = .next (s.wrapUp
      (goes { e with run := { e.run with q := Config.size .nttFwd [e.consts, toLe 1 (m.x % 4)] } }))) ∧
    (s.AtMicro ply e m 0x02 → exec (.ntt ply) s = .next (s.wrapUp (put (coefs .nttFwd)))) ∧
    (s.AtMicro ply e m 0x03 → exec (.intt ply) s = .next (s.wrapUp (put (coefs .nttInv)))) ∧
    (s.AtMicro ply e m 0x04 → m.x ≠ 1 →
      exec (.pmul ply) s = .next (s.wrapUp (put (List.zipWith (fun u v => u * v % q) a (b x))))) ∧
    (s.AtMicro ply e m 0x05 → m.x ≠ 1 →
      exec (.pmac ply) s = .next (s.wrapUp (put (List.zipWith (fun u v => (u + v) % q) (x.poly m.d)
        (List.zipWith (fun u v => u * v % q) a (b x)))))) ∧
    (s.AtMicro ply e m 0x06 →
      exec (.padd ply) s = .next (s.wrapUp (put (List.zipWith (fun u v => (u + v) % q) a (b x))))) ∧
    (s.AtMicro ply e m 0x07 →
      exec (.psub ply) s = .next (s.wrapUp (put (List.zipWith (fun u v => (u + (x.run.q - v % q)) % q) a (b x))))) ∧
    (s.AtMicro ply e m 0x0F → exec (.cmpr ply) s = .next (s.wrapUp (put (coefs .compress)))) ∧
    (s.AtMicro ply e m 0x12 → exec (.round ply) s = .next (s.wrapUp (put (coefs .compress)))) ∧
    (s.AtMicro ply e m 0x13 → exec (.hint ply) s = .next (s.wrapUp (put (coefs .hint)))) ∧
    (s.AtMicro ply e m 0x14 → exec (.norm ply) s = .next (s.wrapUp (goes { x with run := { x.run with
      reject := x.run.reject || a.any (fun c => decide (x.const m.x ≤ centred x.run.q c)) } }))) ∧
    (s.AtMicro ply e m 0x16 → exec (.ceq ply) s = .next (s.wrapUp (goes { e with run := { e.run with flag := same } }))) ∧
    (s.AtMicro ply e m 0x17 → exec (.csel ply) s = .next (s.wrapUp (put (if x.run.flag then a else b x)))) ∧
    (s.AtMicro ply e m 0x18 → m.a < 80 → exec (.share ply) s = .next (s.wrapUp (s.updPly ply (fun p => { p with
      run := some { e.run with pc := e.run.pc + 1 }, slots := e.slots,
      shares := (numsFrom m.a (e.n / 256)).foldl (fun sh i => if i < 80 then setKey {} sh i (e.shareSlot m.x s.free i) else sh) e.shares })).drawn)) ∧
    (s.AtMicro ply e m 0x19 → m.d < 80 → m.a < 80 → m.x ≠ 1 →
      exec (.move ply) s = .next (s.wrapUp (goes (e.put m.d (coefsOf (2 ^ 32) e.n (coefBytes (e.poly m.a)))))))

/-- What the key stream carries, and the values of shares, are the model's choices, log entries 131 and 133. -/
def Obligations.RecipeStreamsAndControl : Prop :=
  ∀ (s : State) (ply : Fin 16) (e : RecipeEnv) (m : Micro) (k : Nat),
    let goes (y : RecipeEnv) : State :=
      let z := y.follow m
      let t := s.updPly ply (fun p => { p with run := some { z.run with pc := z.run.pc + 1 }, slots := z.slots, shares := z.shares })
      if m.drawsMask then t.drawn else t
    let run (y : RecipeRun) : State := s.updPly ply (fun p => { p with run := some { y with pc := y.pc + 1 }, slots := e.slots, shares := e.shares })
    let inp := [e.params m, e.consts, toLe 1 e.run.kFn, e.run.kIn, toLe 4 e.run.kOut]
    let filled := e.store m.d (coefsOf e.run.q e.n (fit (4 * e.n) (Config.std .sample inp)))
    let bytes := coefBytes (e.poly m.a)
    let len := ceilDiv (m.x * e.n) 8
    (s.AtMicro ply e m 0x08 → exec (.kinit ply) s = .next (s.wrapUp (run { e.run with kFn := m.x % 4, kIn := [], kOut := 0 }))) ∧
    (s.AtMicro ply e m 0x09 → m.a < 80 → exec (.kabs ply) s = .next (s.wrapUp
      (run { e.run with kIn := e.run.kIn ++ (if m.b = 0 then bytes else bytes.take (16 * m.b)) }))) ∧
    (s.AtMicro ply e m 0x09 → 80 ≤ m.a → exec (.kabs ply) s = .next (s.wrapUp
      (let y := e.read m.a (if m.b = 0 then e.left m.a else 16 * m.b) s.free
       goes { y.1 with run := { y.1.run with kIn := y.1.run.kIn ++ y.2 } }))) ∧
    (∀ row ∈ ([(.suni, 0x0A), (.scbd, 0x0B), (.seta, 0x0C), (.smsk, 0x0D), (.sball, 0x0E)] : List ((Fin 16 → Instr) × Nat)),
      s.AtMicro ply e m row.2 → exec (row.1 ply) s = .next (s.wrapUp
        (goes { filled with run := { filled.run with kOut := e.run.kOut + Config.size .sample inp } }))) ∧
    (s.AtMicro ply e m 0x10 → m.a < 80 → m.d = 0x7F → exec (.pack ply) s = .next (s.wrapUp
      (run { e.run with out := e.run.out ++ packBits m.x (e.poly m.a) }))) ∧
    (s.AtMicro ply e m 0x10 → m.a < 80 → m.d < 80 → exec (.pack ply) s = .next (s.wrapUp
      (goes (e.put m.d (coefsOf (2 ^ 32) e.n (fit (4 * e.n) (packBits m.x (e.poly m.a)))))))) ∧
    (s.AtMicro ply e m 0x11 → 80 ≤ m.a → exec (.unpk ply) s = .next (s.wrapUp
      (goes ((e.read m.a len s.free).1.store m.d (unpackBits m.x (e.read m.a len s.free).1.n (e.read m.a len s.free).2))))) ∧
    (s.AtMicro ply e m 0x11 → m.a < 80 → exec (.unpk ply) s = .next (s.wrapUp
      (goes (e.store m.d (unpackBits m.x e.n (bytes.take len)))))) ∧
    (s.AtMicro ply e m 0x15 → e.run.reject = false → exec (.iter ply) s = .next (s.wrapUp (run e.run))) ∧
    (s.AtMicro ply e m 0x15 → e.run.reject = true → e.run.iters + 1 < rsIterMax e.run.set →
      exec (.iter ply) s = .next (s.wrapUp (s.updPly ply (fun p => { p with
        run := some { e.run with reject := false, iters := e.run.iters + 1, pc := rsEntry e.run.set 5 } })))) ∧
    (s.AtMicro ply e m 0x15 → e.run.reject = true → rsIterMax e.run.set ≤ e.run.iters + 1 →
      exec (.iter ply) s = .next (s.wrapUp (((s.setReg .plyIter (s.reg .plyIter ply + BitVec.ofNat 32 (e.run.iters + 1)) ply).plyDone e.req).failOp
        e.req.id ⟨.engineFault, none⟩))) ∧
    (s.AtMicro ply e m 0x00 → (e.req.testRoot = true → s.pins.dbgEn = true) → s.orderOk e.req e.op e.order = true → (e.op = .mldsaVerify ∨ e.op = .mldsaVerifyMu) →
      exec (.recipeEnd ply) s = .next (s.wrapUp
        (if e.run.flag = true ∧ e.run.reject = false then (s.plyDone e.req).succeed e.req.id []
         else (s.plyDone e.req).failOp e.req.id ⟨.verifyFailed, none⟩))) ∧
    ((s.ply ply).restoring = true →
      (numsFrom 0 16).find? (fun k => !s.unitOut 3 k && !(s.ply k).woken && decide ((s.ply k).rcp.tag = (s.ply ply).rcp.tag)) = some k →
      (s.ply ply).woken = true → exec (.recipeCopy ply) s = .next (s.wrapUp (s.updPly ply (fun p =>
        { p with rcp := (s.ply k).rcp, bad := [], restoring := false, woken := false })))) ∧
    ((s.ply ply).restoring = false → (∀ x ∈ (s.ply ply).bad, x.2 = false) →
      exec (.recipeScrub ply) s = .next (s.wrapUp ((s.ply ply).bad.foldl (fun s _ => s.event srcPlyMemCorr (s.unitDomain 3 ply) ply)
        (s.updPly ply (fun p => { p with bad := [] })))))

/-! ### Code engines -/

/-- The places inside keys and ciphertexts are PRESUMED, log entry 109. -/
def Obligations.HqcOperations : Prop :=
  ∀ (s t : State) (rid : Nat) (r : Req) (m : KeyMat) (src : Bytes) (h : W32),
    let d := r.desc
    let own := d.param.getLsbD 0
    let given (u : State) (usage : Nat) (secret : Bytes) : Prop :=
      u.resultFault r 0 [usage] secret.length = none ∧ u.resolve r d.resultH = some h
    let seed := if own then fit 32 r.aux else s.value r 32
    let n := (hqcLens d.algN).2.2 + 16
    let msg := if own then fit n r.aux else s.value r n
    let ss := fit 32 (Config.std .hqcShared [[d.alg], src, msg])
    let key := fit 32 (Config.std .hqcDecaps [[d.alg], m.bytes, src])
    let made := (if own then s else s.drawn).codDone r
    (s.Runs rid r .hqcKeygen → given made usDecap seed →
      exec (.hqcKeygen rid) s = .next (s.wrapUp ((made.putTarget r seed).succeed r.id
        (fit (hqcLens d.algN).1 (Config.std .hqcPublic [[d.alg], seed])) h))) ∧
    (s.Runs rid r .hqcEncaps → s.srcOf r = .ok src → hqcVectorsOk d.algN true src = true → given made usDerive ss →
      exec (.hqcEncaps rid) s = .next (s.wrapUp ((made.putTarget r ss).succeed r.id
        (fit (hqcLens d.algN).2.1 (Config.std .hqcCipher [[d.alg], src, msg])) h))) ∧
    (s.Runs rid r .hqcDecaps → s.keyed r { usages := [usDecap], lens := [32], holdLen := some 32 } = some (t, m, src) →
      src.length = (hqcLens d.algN).2.1 → hqcVectorsOk d.algN false src = true → given (t.codDone r) usDerive key →
      exec (.hqcDecaps rid) s = .next (s.wrapUp (((t.codDone r).putTarget r key).succeed r.id [] h)))

/-- The padding of rows is PRESUMED, log entry 109. -/
def Obligations.McElieceOperations : Prop :=
  (∀ (s t : State) (rid n : Nat) (r : Req) (m : KeyMat) (src : Bytes) (h : W32),
     let d := r.desc
     let set := mceSet d.algN
     let given (u : State) (kind usage len : Nat) : Prop := u.resultFault r kind [usage] len = none ∧ u.resolve r d.resultH = some h
     let len := src.length - 28
     let body := slice src 12 len
     let sk := fit len (Config.std .gcmPlain [m.bytes, src.take 12, r.aux, body])
     let id := sha3 (fit set.pk (Config.std .mcePublic [[d.alg], sk]))
     let c := t.codDone r
     let made := c.ckcPut c.ckcFresh
       { owner := r.ptn, alg := d.algN, isPrivate := true, pkid := id, rootReal := c.realTags, granules := set.privGran, data := sk,
         loading := some rid, target := handleIndex h }
     let seed := s.value r 32
     let ss := fit 32 (Config.std .mceShared [[d.alg], src, seed])
     let e := t.ckcEntry n
     let key := fit 32 (Config.std .mceDecaps [[d.alg], e.data, src])
     (s.Runs rid r .mceImport → s.keyed r { usages := [usWrap], lens := [32] } = some (t, m, src) → t.poisoned r = false →
       given c 1 usDecap 40 → isMce d.algN = true →
       fit 16 (Config.std .gcmTag [m.bytes, src.take 12, r.aux, body]) = slice src (12 + len) 16 →
       r.aux.take 4 = ascii "MCSK" → byteAt r.aux 4 = d.algN → allZero (slice r.aux 5 11) = true → Config.holds .mceKeyOk [[d.alg], sk] = true →
       id = slice r.aux 16 32 → c.ckcRoom r.ptn set.privGran = true →
       exec (.mceImport rid) s = .next (s.wrapUp (made.succeed rid id h))) ∧
     (s.Runs rid r .mceEncaps → d.cached = false → s.srcOf r = .ok src → mcePaddingOk d.algN true src = true →
       Config.holds .fixw [[d.alg], seed] = false → given (s.drawn.codDone r) 0 usDerive ss.length →
       exec (.mceEncaps rid) s = .next (s.wrapUp
         (((s.drawn.codDone r).putTarget r ss).succeed r.id (fit set.ct (Config.std .mceCipher [[d.alg], src, seed])) h))) ∧
     (s.Runs rid r .mceEncaps → d.cached = true → r.entry = some n → s.ckcServes n r.ptn (fit 32 r.aux) d.algN = true →
       src = (s.ckcEntry n).data → mcePaddingOk d.algN true src = true →
       let seed := (s.noteCkcRead rid n).value r 32
       let ss := fit 32 (Config.std .mceShared [[d.alg], src, seed])
       let u := (s.noteCkcRead rid n).drawn.codDone r
       Config.holds .fixw [[d.alg], seed] = false → given u 0 usDerive ss.length →
       exec (.mceEncaps rid) s = .next (s.wrapUp
         ((u.putTarget r ss).succeed r.id (fit set.ct (Config.std .mceCipher [[d.alg], src, seed])) h))) ∧
     (s.Runs rid r .mceDecaps → s.keyed r { usages := [usDecap], kind := 1 } = some (t, m, src) → byteAt m.bytes 32 = d.algN →
       n = le16 m.bytes 34 → e.granules ≠ 0 → e.gen = le32 m.bytes 36 → mcePaddingOk d.algN false src = true →
       given ((t.noteCkcRead rid n).codDone r) 0 usDerive key.length →
       exec (.mceDecaps rid) s = .next (s.wrapUp ((((t.noteCkcRead rid n).codDone r).putTarget r key).succeed r.id [] h)))) ∧
  (∀ (s : State) (rid n : Nat) (r : Req) (src : Bytes),
     let d := r.desc
     let t := s.codDone r
     let g := (mceSet d.algN).pubGran
     let u := s.ckcRelease n
     (s.Runs rid r .ckcLoad → s.srcOf r = .ok src → mcePaddingOk d.algN true src = true →
       t.ckcPublic r.ptn (sha3 src) d.algN = some n →
       exec (.ckcLoad rid) s = .next (s.wrapUp (t.succeed rid (sha3 src)))) ∧
     (s.Runs rid r .ckcLoad → s.srcOf r = .ok src → mcePaddingOk d.algN true src = true →
       t.ckcPublic r.ptn (sha3 src) d.algN = none → t.ckcRoom r.ptn g = true → r.poison = false →
       exec (.ckcLoad rid) s = .next (s.wrapUp ((t.ckcPut t.ckcFresh
         { owner := r.ptn, alg := d.algN, pkid := sha3 src, granules := g, data := src, loading := some rid }).succeed rid (sha3 src)))) ∧
     (s.Runs rid r .ckcEvict → r.stateIndex = none → s.ckcPublic r.ptn (fit 32 r.aux) d.algN = some n → (u.ckcEntry n).doomed = false →
       exec (.ckcEvict rid) s = .next (s.wrapUp ((u.codDone r).succeed rid []))) ∧
     (s.Runs rid r .ckcEvict → r.stateIndex = none → s.ckcPublic r.ptn (fit 32 r.aux) d.algN = some n → (u.ckcEntry n).doomed = true →
       exec (.ckcEvict rid) s = .next (s.wrapUp (u.updReq rid (fun r => { r with stateIndex := some n }))))) ∧
  (∀ (s : State) (n id : Nat) (st : Status),
     let e := s.ckcEntry n
     let seen : State := { s with ckc := { s.ckc with entries := setKey {} s.ckc.entries n { e with loading := none } } }
     let gone : State := { s with ckc := { s.ckc with entries := dropKey n s.ckc.entries } }
     e.loading = some id → s.loadStatus id = some st →
       (st ≠ .ok → s.finishLoad n = gone) ∧
       (st = .ok → e.isPrivate = true → s.targetFault e.owner e.target 1 [usDecap] 40 = none →
         s.finishLoad n = seen.putResult e.target (codeRef e.pkid e.alg n e.gen)) ∧
       (st = .ok → e.isPrivate = false → s.ckcPublic e.owner e.pkid e.alg = none → s.finishLoad n = seen))

/-! ### Big-number engines -/

/-- How a base of PRIME_TEST is taken from random bytes is the model's choice, log entry 64. -/
def Obligations.ModularArithmetic : Prop :=
  ∀ (s : State) (rid v : Nat) (r : Req) (src : Bytes),
    let counted (u : State) : State :=
      if (u.findReq rid).map (·.phase) = some .produced then u.setReg .bneOps (u.reg .bneOps r.inst + 1) r.inst else u
    let k := r.desc.modBytes
    let m := leNat (slice src 0 k)
    let a := leNat (slice src k k)
    let b := leNat (slice src (2 * k) k)
    s.srcOf r = .ok src → r.desc.modBits ≤ 8192 →
    (s.Runs rid r .modmul → modulusOk r.desc.modBits m = true → a < m → b < m →
      exec (.modmul rid) s = .next (s.wrapUp (counted (s.succeed rid (toLe k (a * b % m)))))) ∧
    (s.Runs rid r .modexp → modulusOk r.desc.modBits m = true → a < m →
      exec (.modexp rid) s = .next (s.wrapUp (counted (s.succeed rid (toLe k (a ^ b % m)))))) ∧
    (s.Runs rid r .modinv → modulusOk r.desc.modBits m = true → 0 < a → a < m → 1 < m → v < m → a * v % m = 1 →
      exec (.modinv rid) s = .next (s.wrapUp (counted (s.succeed rid (toLe k v))))) ∧
    (s.Runs rid r .modinv → modulusOk r.desc.modBits m = true → 0 < a → a < m → Nat.gcd a m ≠ 1 →
      exec (.modinv rid) s = .next (s.wrapUp (counted (s.edge r k .inputRange (some 0x0712))))) ∧
    (∀ row ∈ ([(.modmul, .modmul), (.modexp, .modexp), (.modinv, .modinv)] : List ((Nat → Instr) × Op)), s.Runs rid r row.2 →
      modulusOk r.desc.modBits m = false → exec (row.1 rid) s = .next (s.wrapUp (counted (s.failOp rid ⟨.paramInvalid, none⟩)))) ∧
    (s.Runs rid r .primeTest → exec (.primeTest rid) s = .next (s.wrapUp (counted (s.drawn.succeed rid
      [if leNat src % 2 = 1 ∧ 3 ≤ leNat src ∧ (leNat src = 3 ∨ ∀ i < r.desc.rounds, millerRabin (leNat src) (s.primeBase r (leNat src) i) = true)
       then 0x01 else 0x00]))))

/-- The encodings are PRESUMED, log entry 107; what a key generation draws is log entry 97. -/
def Obligations.RsaOperations : Prop :=
  (∀ (s : State) (rid : Nat) (r : Req) (src : Bytes),
     let counted (u : State) : State :=
       if (u.findReq rid).map (·.phase) = some .produced then u.setReg .bneOps (u.reg .bneOps r.inst + 1) r.inst else u
     let k := r.desc.modBytes
     let n := beNat (r.aux.take k)
     let e := beNat (slice r.aux k 32)
     let sig := beNat (src.take k)
     let em := oaepEncode r.desc.algN k src (r.aux.drop (k + 32)) (s.value r (hashLen r.desc.algN 0))
     s.srcOf r = .ok src → modulusOk r.desc.modBits n = true → e % 2 = 1 → 3 ≤ e →
     (s.Runs rid r .rsaPublic → 0 < beNat src → beNat src < n →
       exec (.rsaPublic rid) s = .next (s.wrapUp (counted (s.succeed rid (toBe k (beNat src ^ e % n)))))) ∧
     (s.Runs rid r .rsaPublic → beNat src = 0 → exec (.rsaPublic rid) s = .next (s.wrapUp (counted (s.edge r k .inputRange (some 0x0710))))) ∧
     (s.Runs rid r .rsaPublic → n ≤ beNat src → beNat src ≠ 0 →
       exec (.rsaPublic rid) s = .next (s.wrapUp (counted (s.edge r k .inputRange (some 0x0711))))) ∧
     (s.Runs rid r .rsaPssVerify →
       exec (.rsaPssVerify rid) s = .next (s.wrapUp (counted
         (if 0 < sig ∧ sig < n ∧ pssOk r.desc.algN k r.desc.saltLen (pssDigestOf r.desc (src.drop k)) (toBe k (sig ^ e % n)) = true then
            s.succeed rid []
          else s.failOp rid ⟨.verifyFailed, none⟩)))) ∧
     (s.Runs rid r .rsaOaepEncrypt →
       exec (.rsaOaepEncrypt rid) s = .next (s.wrapUp (counted (s.drawn.succeed rid (toBe k (beNat em ^ e % n))))))) ∧
  (∀ (s t : State) (rid : Nat) (r : Req) (m : KeyMat) (src : Bytes),
     let counted (u : State) : State :=
       if (u.findReq rid).map (·.phase) = some .produced then u.setReg .bneOps (u.reg .bneOps r.inst + 1) r.inst else u
     let d := r.desc
     let k := rsaKeyOf m.bytes
     let n := k.bits / 8
     let y := beNat src
     let checked (y : Nat) : Prop := k.apply y ^ k.e % k.n = y
     let em := beNat (pssEncode d.algN n (pssDigestOf d src) (t.value r d.saltLen))
     let seed := t.value r 64
     let prime (i : Nat) : Nat := beNat (fit (d.modBits / 16) (Config.std .rsaPrime [toLe 2 d.modBits, r.aux, seed, toLe 1 i]))
     let plain := rsaPlain d.modBits (beNat r.aux) (prime 0) (prime 1)
     let usage := if fld d.param 17 16 = 0 then usSign else usDecrypt
     (s.Runs rid r .rsaPrivateCrt → s.keyed r { usages := [usSign, usDecrypt], unlocked := true } [1] = some (t, m, src) → k.ok m.bytes = true →
       src.length = n → n ≤ d.dstLen.toNat → 0 < y → y < k.n → checked y →
       exec (.rsaPrivateCrt rid) s = .next (s.wrapUp (counted (t.drawn.succeed rid (toBe n (k.apply y)))))) ∧
     (s.Runs rid r .rsaPrivateCrt → s.keyed r { usages := [usSign, usDecrypt], unlocked := true } [1] = some (t, m, src) → k.ok m.bytes = true →
       src.length = n → n ≤ d.dstLen.toNat → 0 < y → y < k.n → ¬checked y →
       exec (.rsaPrivateCrt rid) s = .next (s.wrapUp (counted ((((t.drawn.setB .bneErr 2 true r.inst).event srcBneEngine
         (t.unitDomain 5 r.inst) r.inst)).failOp r.id ⟨.engineFault, none⟩)))) ∧
     (s.Runs rid r .rsaPssSign → s.keyed r { usages := [usSign] } [1] = some (t, m, src) → k.ok m.bytes = true →
       (d.pssDigest = true → src.length = hashLen d.algN 0) → n ≤ d.dstLen.toNat → checked em →
       exec (.rsaPssSign rid) s = .next (s.wrapUp (counted (t.drawn.succeed rid (toBe n (k.apply em)))))) ∧
     (s.Runs rid r .rsaOaepDecrypt → s.keyed r { usages := [usDecrypt] } [1] = some (t, m, src) → k.ok m.bytes = true →
       src.length = n → 0 < y → y < k.n → checked y →
       exec (.rsaOaepDecrypt rid) s = .next (s.wrapUp (counted (match oaepDecode d.algN n (toBe n (k.apply y)) r.aux with
         | none => t.drawn.failOp rid ⟨.verifyFailed, none⟩
         | some msg => if d.dstLen.toNat < msg.length then t.drawn.failOp rid ⟨.badLength, none⟩ else t.drawn.succeed rid msg)))) ∧
     (s.Runs rid r .rsaKeygen → s.keyed r { usages := [usWrap], lens := [32] } = some (t, m, src) → beNat r.aux % 2 = 1 →
       2 ^ 16 < beNat r.aux → exec (.rsaKeygen rid) s = .next (s.wrapUp (counted
         (if Config.holds .rsaPrime [toLe 2 d.modBits, r.aux, seed] = true ∧ (rsaKeyOf plain).ok plain = true then
            t.drawn.drawn.succeed rid (plain.take d.modBytes ++
              t.drawn.makeBlob r.ptn 1 d.modBits { usage := usage } plain (t.drawn.value r 12 64) m.bytes)
          else ((t.drawn.setB .bneErr 3 true r.inst).event srcBneEngine (t.unitDomain 5 r.inst) r.inst).failOp rid ⟨.engineFault, none⟩)))))

/-- The constants and formulas of the standards are PRESUMED, log entry 107. -/
def Obligations.EllipticCurveOperations : Prop :=
  (∀ (s t : State) (rid : Nat) (r : Req) (m : KeyMat) (src : Bytes),
     let counted (u : State) : State :=
       if (u.findReq rid).map (·.phase) = some .produced then u.setReg .bneOps (u.reg .bneOps r.inst + 1) r.inst else u
     let d := r.desc
     let l := s.curveLen d.algN
     let c := s.curveOf d.algN
     let digest := ecDigestOf d src
     let sig := c.ecdsa (t.ecNonce r c m.bytes digest) (beNat m.bytes) digest
     (s.Runs rid r .ecdsaSign → s.curveAllows d.algN 0 = true → s.keyed r (s.curveKey r usSign) = some (t, m, src) →
       ecMsgOk d src.length 0 = true → 0 < beNat m.bytes → beNat m.bytes < c.n →
       exec (.ecdsaSign rid) s = .next (s.wrapUp (counted
         (if sig.1 = 0 ∨ sig.2 = 0 then t.drawn.failOp rid ⟨.engineFault, none⟩ else t.drawn.succeed rid (toBe l sig.1 ++ toBe l sig.2))))) ∧
     (s.Runs rid r .ecdsaVerify → s.srcOf r = .ok src → s.curveAllows d.algN 0 = true → c.pointFault l r.aux = none →
       exec (.ecdsaVerify rid) s = .next (s.wrapUp (counted
         (if c.ecdsaOk l r.aux (beNat (src.take l)) (beNat (slice src l l)) (ecDigestOf d (src.drop (2 * l))) = true then s.succeed rid []
          else s.failOp rid ⟨.verifyFailed, none⟩)))) ∧
     (s.Runs rid r .eddsaSign → edTooLong r = false → s.keyed r (s.curveKey r usSign) = some (t, m, src) →
       edMsgOk d src.length 0 = true →
       exec (.eddsaSign rid) s = .next (s.wrapUp (counted (t.drawn.succeed rid (edSign d m.bytes r.aux src))))) ∧
     (s.Runs rid r .eddsaVerify → s.srcOf r = .ok src → edTooLong r = false → (edCurve d.algN).keyFault (r.aux.take l) = none →
       exec (.eddsaVerify rid) s = .next (s.wrapUp (counted
         (if edVerify d (r.aux.take l) (r.aux.drop l) (src.take (2 * l)) (src.drop (2 * l)) = true then s.succeed rid []
          else s.failOp rid ⟨.verifyFailed, none⟩))))) ∧
  (∀ (s t : State) (rid : Nat) (r : Req) (m : KeyMat) (src : Bytes) (h : W32),
     let counted (u : State) : State :=
       if (u.findReq rid).map (·.phase) = some .produced then u.setReg .bneOps (u.reg .bneOps r.inst + 1) r.inst else u
     let d := r.desc
     let l := s.curveLen d.algN
     let c := s.curveOf d.algN
     let u := montU d.algN src
     let v := xdhFn d.algN m.bytes u
     let given (key : Bytes) : Prop := t.drawn.resultFault r 0 [usDerive] key.length = none ∧ t.drawn.resolve r d.resultH = some h
     let priv := s.newScalar r
     (s.Runs rid r .ecdh → s.curveAllows d.algN 1 = true → s.keyed r (s.curveKey r usDerive) = some (t, m, src) →
       src.length = 1 + 2 * l → 0 < beNat m.bytes → beNat m.bytes < c.n → c.pointFault l src = none →
       (∀ x y, c.times (c.h * beNat m.bytes) (some (pointAt l src)) = some (x, y) →
         (d.holdOut = true → exec (.ecdh rid) s = .next (s.wrapUp (counted (t.drawn.succeed r.id (toBe l x))))) ∧
         (d.holdOut = false → given (toBe l x) →
           exec (.ecdh rid) s = .next (s.wrapUp (counted ((t.drawn.putTarget r (toBe l x)).succeed r.id [] h))))) ∧
       (c.times (c.h * beNat m.bytes) (some (pointAt l src)) = none →
         exec (.ecdh rid) s = .next (s.wrapUp (counted (t.drawn.edge r (if d.holdOut then l else 0) .resultIdentity none))))) ∧
     (s.Runs rid r .xdh → s.keyed r (s.curveKey r usDerive) = some (t, m, src) → src.length = l → 0 < u →
       u < montP d.algN → allZero v = false →
       (d.holdOut = true → exec (.xdh rid) s = .next (s.wrapUp (counted (t.drawn.succeed r.id v)))) ∧
       (d.holdOut = false → given v → exec (.xdh rid) s = .next (s.wrapUp (counted ((t.drawn.putTarget r v).succeed r.id [] h))))) ∧
     (s.Runs rid r .ecKeygen → (s.keygenUsage r = usSign → s.curveAllows d.algN 0 = true) →
       (s.keygenUsage r = usDerive → s.curveAllows d.algN 1 = true) →
       s.drawn.resultFault r 0 [usSign, usDerive] priv.length = none → s.drawn.resolve r d.resultH = some h →
       exec (.ecKeygen rid) s = .next (s.wrapUp (counted ((s.drawn.putTarget r priv).succeed r.id
         (s.ecPublic d.algN priv) h)))))

def Obligations.OperandMemoriesAndCurves : Prop :=
  ∀ (s : State) (acc : Access) (d : W32) (n : Fin 8) (c : Fin 16) (i k : Nat),
    let t := s.store { id := .crvCtrl } d
    let entry := getKey [] s.curves.entries c
    let checks := numsFrom 1 (if s.curves.loaded.contains c then 9 else 8)
    let checked : State := { s with curves := { s.curves with checking := none } }
    let users (i : Nat) : List Nat := (s.reqs.filter (fun r => r.usesCurve i)).map (·.id)
    (s.Carries acc (RegId.bneCfg.target n 0) →
      exec (.slotWordsWrite acc n d) s = .next (s.wrapUp
        (((s.store { id := .bneCfg, i := n } d).updOperands n (fun o => { o with waiting := true })).respond .okay 0))) ∧
    ((s.operandsAt n).waiting = true → (s.operandsAt n).groups = [] →
      exec (.slotWordsApply n) s = .next (s.wrapUp
        (s.updOperands n (fun _ => { slotWords := clampN 4 130 (s.regF .bneCfg 7 0 n) })))) ∧
    (s.Carries acc (RegId.crvCtrl.target 0 0) → bitOf d 31 = true → bitOf d 30 = false → s.applying 8 = false → s.curves.fetch = none →
      t.regF .crvLoadAddrLo 5 0 = 0 → i = t.regF .crvCtrl 3 0 →
      exec (.crvLoad acc d) s = .next (s.wrapUp
        (({ t.setB .crvCtrl 31 true with curves := { s.curves with fetch := some (i, []) } } : State).respond .okay 0))) ∧
    (s.Carries acc (RegId.crvCtrl.target 0 0) → bitOf d 31 = false → bitOf d 30 = true → s.applying 8 = false → i = t.regF .crvCtrl 3 0 →
      exec (.crvClear acc d) s = .next (s.wrapUp
        (({ t with curves := { s.curves with jobs := s.curves.jobs ++ [{ index := i, change := .clear, users := users i }] } } : State).respond
          .okay 0))) ∧
    (s.Carries acc (RegId.crvCtrl.target 0 0) → (bitOf d 31 = true ∨ bitOf d 30 = true) → s.applying 8 = true →
      (bitOf d 31 = true → exec (.crvLoad acc d) s = .next (s.wrapUp ((t.setB .mgtStatus 15 true).respond .okay 0))) ∧
      (bitOf d 30 = true → exec (.crvClear acc d) s = .next (s.wrapUp ((t.setB .mgtStatus 15 true).respond .okay 0)))) ∧
    (s.curves.checking.map (·.1) = some c.val → (∀ k ∈ checks, curveCheck entry c k = true) →
      exec (.curveCheckDone c) s = .next (s.wrapUp ((checked.setF .crvStatus 2 0 3 c).setF .crvStatus 11 8 0 c))) ∧
    (s.curves.checking.map (·.1) = some c.val → checks.find? (fun k => !curveCheck entry c k) = some k →
      exec (.curveCheckDone c) s = .next (s.wrapUp ((checked.setF .crvStatus 2 0 4 c).setF .crvStatus 11 8 k c)))

/-! ### The key store -/

/-- That an export of a KEEP_BOUND slot waits for the keep secret is the model's choice, log entry 57. -/
def Obligations.KeyStoreRequests : Prop :=
  ∀ (s t : State) (rid i : Nat) (r : Req) (m : KeyMat) (src body root : Bytes) (k : KeySlot) (pair : Bool) (used : Nat),
    let d := r.desc
    let h := s.onHalf rid i
    let read := (s.slotsOf i).foldl (fun s j => s.noteKeyRead rid j)
    let attr := KeySlot.ofWord r.ptn d.param
    let out := s.derived r root (bitOf d.param 29) d.dstLen.toNat
    s.noKeys = false →
    (s.Runs rid r .keyGenerate → d.holdOut = true →
      exec (.keyGenerate rid) s = .next (s.wrapUp (s.drawn.succeed rid (s.value r (fld d.param 7 0))))) ∧
    (s.Runs rid r .keyGenerate → d.holdOut = false → s.keyPlace r 0 (fld d.param 7 0) = .ok (i, pair) → r.poison = false →
      exec (.keyGenerate rid) s = .next (s.wrapUp
        ((if bitOf d.param 31 then h.putKey i { attr with state := .reserved } [] pair
          else h.drawn.putKey i attr (h.value r (fld d.param 7 0)) pair).succeed rid [] (slotHandle i)))) ∧
    (s.Runs rid r .keyImportWrapped → s.ensureKey r { usages := [usWrap], lens := [32] } = (t, .ok m) → t.srcOf r = .ok src →
      t.openBlob r.ptn m.bytes src true [0] = .ok k body used → k.kind ≠ 1 → t.keyPlace r k.kind body.length = .ok (i, pair) →
      t.poisoned r = false →
      exec (.keyImportWrapped rid) s = .next (s.wrapUp
        ((t.putKey i { k with state := .valid, owner := r.ptn, recNo := 0x7F } body pair).succeed rid [] (slotHandle i)))) ∧
    (s.Runs rid r .keyExportWrapped → r.exported = none → r.key = none → s.namedSlot r d.keyH = some i → s.keyFault r.ptn i = none →
      (s.key i).lockAllows d = true → (s.key i).exportW = true → (s.key i).kind ≠ 1 → 48 + (s.key i).len ≤ d.dstLen.toNat →
      ((read s).updReq rid (fun r => { r with slots := r.slots ++ s.slotsOf i, exported := some (s.key i, s.payloadOf i) })).takeSlotKey r
        (handleIndex d.param) { usages := [usWrap], lens := [32] } = (t, .ok m) →
      exec (.keyExportWrapped rid) s = .next (s.wrapUp
        (if (s.key i).keepBound = true ∧ t.keep.secret.isNone = true then t.waitKeep rid
         else t.drawn.succeed rid (t.makeBlob r.ptn 0 0 (s.key i) (s.payloadOf i) (t.value r 12) m.bytes)))) ∧
    (s.Runs rid r .keyExportWrapped → r.exported = some (k, body) → r.key = some m → 48 + k.len ≤ d.dstLen.toNat →
      s.keep.secret.isSome = true →
      exec (.keyExportWrapped rid) s = .next (s.wrapUp
        (s.drawn.succeed rid (s.makeBlob r.ptn 0 0 k body (s.value r 12) m.bytes)))) ∧
    (s.Runs rid r .keyDestroy → r.stateIndex = none → s.namedSlot r d.keyH = some i → h.ownerFault r.ptn i = none →
      (h.slotsOf i).any h.slotBad = false → ((read h).key i).state ≠ .bad → (read h).poisoned r = false →
      exec (.keyDestroy rid) s = .next (s.wrapUp
        (let u := (read h).doomSlot i (.destroy rid)
         if (u.key i).doomed then u.updReq rid (fun r => { r with stateIndex := some i }) else u.succeed rid []))) ∧
    (s.Runs rid r .keyDerive → s.deriveRoot d = some root → d.holdOut = true →
      (bitOf d.param 29 = true → s.keep.secret.isSome = true) →
      exec (.keyDerive rid) s = .next (s.wrapUp (s.succeed rid out))) ∧
    (s.Runs rid r .keyDerive → s.deriveRoot d = some root → d.holdOut = false → s.namedSlot r d.resultH = some i →
      s.targetFault r.ptn i 0 [1, 2, 3, 4, 5, 6] (s.key i).len = none → 16 ≤ (s.key i).len → (s.key i).len ≤ 64 →
      ((s.key i).keepBound = true → s.keep.secret.isSome = true) →
      exec (.keyDerive rid) s = .next (s.wrapUp
        ((h.putTarget r (h.derived r root (s.key i).keepBound (s.key i).len)).succeed rid [] (slotHandle i)))) ∧
    (s.Runs rid r .keyAttrRead → s.namedSlot r d.keyH = some i → s.ownerFault r.ptn i = none →
      exec (.keyAttrRead rid) s = .next (s.wrapUp
        (h.succeed rid (toLe 8 (s.key i).attr ++ toLe 4 (s.key i).gen.toNat ++ zeros 4))))

/-- The registers of the key store, and what ends in its own time. The fields of KEY_SLOT_CTRL are read
as the write leaves them. -/
def Obligations.KeyStoreRegisters : Prop :=
  ∀ (s : State) (acc : Access) (p : Fin 64) (i : Nat) (slot : Fin 8192) (d : W32) (pair : Bool) (st : Status),
    let ctrl := RegId.keySlotCtrl.target 0 0
    let t := s.store { id := .keySlotCtrl } d
    let n := t.regF .keySlotCtrl 12 0
    let q := t.regF .keySlotCtrl 27 22
    let half := t.regF .keySlotCtrl 13 13
    let w := s.reg .keyStageAttr p
    let c := s.reg .keyCommit p
    let len := fld w 7 0
    let attr := KeySlot.ofWord p w
    (s.Carries acc (RegId.keyCommit.target p 0) → bitOf d 31 = true → s.regB .keyStageStatus 31 p = false →
      exec (.keyCommit acc p d) s = .next (s.wrapUp
        (((s.setReg .keyCommit d p).setB .keyStageStatus 31 true p).respond .okay 0))) ∧
    (s.regB .keyStageStatus 31 p = true → s.noKeys = false → attrWordOk w = true → bitOf w 31 = false → 1 ≤ len → len ≤ 128 →
      s.commitPlace p (bitOf c 30) (fld c 12 0) len = .ok (i, pair) →
      exec (.keyCommitDone p) s = .next (s.wrapUp
        ((if len ≤ 64 then s.putKey i attr ((s.staged p).take len) pair
          else if bitOf c 30 then s.putKey i { attr with state := .reserved } (s.staged p ++ zeros 64) true
          else s.putKey i attr (fit 64 (s.key i).payload ++ (s.staged p).take (len - 64)) true).commitEnds p .ok i))) ∧
    (s.regB .keyStageStatus 31 p = true → s.noKeys = false → attrWordOk w = true → bitOf w 31 = false → 1 ≤ len → len ≤ 128 →
      s.commitPlace p (bitOf c 30) (fld c 12 0) len = .error st →
      exec (.keyCommitDone p) s = .next (s.wrapUp (s.commitEnds p st 0))) ∧
    (s.Carries acc ctrl → bitOf d 31 = true → t.regF .keySlotCtrl 29 28 = 0 → (t.key n).state ≠ .empty → (t.key n).pair ≠ 2 →
      (t.key n).doomed = false →
      exec (.keySlotClear acc d) s = .next (s.wrapUp ((t.doomSlot n .clear).respond .okay 0))) ∧
    (s.Carries acc ctrl → bitOf d 31 = true → t.regF .keySlotCtrl 29 28 = 1 →
      ((t.key n).state = .valid ∨ (t.key n).state = .reserved) → (t.key n).kind = 0 → (t.key n).pair ≠ 2 → (t.key n).doomed = false →
      t.halfOut (halfOf n) = false → t.enabled q = true → t.slotsOwned q + (t.slotsOf n).length ≤ t.keyQuota q →
      exec (.keySlotReassign acc d) s = .next (s.wrapUp
        (((t.slotsOf n).foldl (fun s j => (s.clearRoundKeys false j).putSlot j { s.key j with owner := q }) t).respond .okay 0))) ∧
    (s.Carries acc ctrl → bitOf d 31 = true → t.regF .keySlotCtrl 29 28 = 2 →
      exec (.keyPtnInvalidate acc d) s = .next (s.wrapUp
        ((((t.keys.filter (fun e => decide (e.2.owner = q) && e.2.state != .empty && e.2.state != .invalid && e.2.pair != 2 &&
          !e.2.doomed)).map (·.1)).foldl (fun s i => s.doomSlot i .invalidate) t).respond .okay 0))) ∧
    (s.Carries acc ctrl → bitOf d 31 = true → t.regF .keySlotCtrl 29 28 = 3 → t.halfOut half = true →
      exec (.restoreHalf acc d) s = .next (s.wrapUp
        (((((t.keys.map (·.1)).filter (fun i => halfOf i = half)).foldl State.clearSlot t).setB .keyStatus (30 + half) false).respond
          .okay 0))) ∧
    (s.Carries acc (RegId.keyPtnGen.target p 0) →
      exec (.keyPtnGenWrite acc p d) s = .next (s.wrapUp
        ((if s.ptnGen p < fld d 15 0 then { s with keep := { s.keep with ptnGen := setKey 0 s.keep.ptnGen p (fld d 15 0) } }
          else s.setB .keySlotCtrl 30 true).respond .okay 0))) ∧
    ((s.key slot).doomed = true → s.doomFree slot = false → exec (.slotDestroyComplete slot) s = .next (s.wrapUp s)) ∧
    (((s.key slot).doomed = false ∨ s.doomFree slot = true) →
      exec (.slotDestroyComplete slot) s = .next (s.wrapUp
        (let u := if (s.key slot).doomed = false then s
          else if (s.key slot).doom = .invalidate then s.invalidateSlot slot
          else s.clearSlot slot
         match u.reqs.find? (fun r => r.phase == .running && r.desc.opIs .keyDestroy && r.stateIndex == some slot.val) with
         | some r => u.succeed r.id []
         | none => u))) ∧
    (s.keep.secret = none → s.rngState = rngReady →
      exec .keepSecretDraw s = .next (s.wrapUp
        { (s.draw 8 0 32).1 with keep := { (s.draw 8 0 32).1.keep with secret := some (s.draw 8 0 32).2 } }))

/-- A COPY whose source has not come whole moves on by its command: the model's choice, log entry 130. -/
def Obligations.ReportsAndSimpleOperations : Prop :=
  ∀ (s t : State) (rid : Nat) (r : Req) (f : Frame) (src b : Bytes),
    let d := r.desc
    let told (x : Bytes) : State := (s.updReq rid (fun r => { r with unit := .lockkeeper, inst := r.lk })).succeed rid x
    let res : Result := { status := r.verdict.getD .ok, unit := .lockkeeper, inst := r.lk }
    let early := r.bas.early ++ (r.laneSrc.take (r.laneSrc.length / 128 * 128)).drop r.bas.early.length
    let inFrame := (s.lks.getD r.lk {}).frames.find? (fun f =>
      f.valid && !f.killed && !f.completed && !f.issued && decide (f.req = rid))
    let seeded := ((s.takePool.1.seeded 5 (drbgReseed (s.drbgAt 5).st s.takePool.2 [])).applyRngParams)
    (s.Runs rid r .ptnInfo → exec (.ptnInfo rid) s = .next (s.wrapUp (told (s.ptnInfoBytes r.ptn)))) ∧
    (s.Runs rid r .keyList → exec (.keyList rid) s = .next (s.wrapUp
      (told (s.keyListBytes r.ptn (fld d.param 12 0) (d.dstLen.toNat / 8))))) ∧
    (s.Runs rid r .qosRead → exec (.qosRead rid) s = .next (s.wrapUp (told (s.qosBytes r.ptn)))) ∧
    (s.findReq rid = some r → inFrame = some f → d.op = some .nop → s.held = false → s.frmDone r.lk f res = some t →
      exec (.nop rid) s = .next (s.wrapUp t)) ∧
    (s.findReq rid = some r → inFrame = some f → d.op = some .fence → s.held = false → s.frmDone r.lk f res = some t →
      exec (.fence rid) s = .next (s.wrapUp t)) ∧
    (s.Runs rid r .copy → (d.holdIn = true → d.holdOut = false → (s.holdOf r (d.srcAddr.toNat % 8)).secret = false) →
      s.srcOf r = .ok src → exec (.copy rid) s = .next (s.wrapUp (s.succeed rid src))) ∧
    (s.findReq rid = some r → r.streams .copy = true →
      exec (.copy rid) s = .next (s.wrapUp
        ((s.updReq r.id (fun r => { r with bas := { r.bas with early := early } })).watermark (2 * r.bas.lane.getD 0 + 1) r.occOut
          ({ r with bas := { r.bas with early := early } } : Req).occOut))) ∧
    (s.Runs rid r .copy → d.holdIn = true → d.holdOut = false → (s.holdOf r (d.srcAddr.toNat % 8)).secret = true →
      exec (.copy rid) s = .next (s.wrapUp (s.failOp rid ⟨.keyPolicy, none⟩))) ∧
    (s.Runs rid r .getRandom → s.rngState = rngReady → d.param.getLsbD 0 = false →
      s.generate 5 (fit 48 r.aux) d.dstLen.toNat = (t, b) → t.rngState = rngReady →
      exec (.getRandom rid) s = .next (s.wrapUp (t.succeed rid b))) ∧
    (s.Runs rid r .getRandom → s.rngState = rngReady → d.param.getLsbD 0 = true → 2 ≤ s.rng.pool.length → s.rng.rootWaits = false →
      seeded.generate 5 (fit 48 r.aux) d.dstLen.toNat = (t, b) → t.rngState = rngReady →
      exec (.getRandom rid) s = .next (s.wrapUp (t.succeed rid b)))

/-! ### The life cycle -/

/-- Writes of LC_CTRL and LC_TOKEN while a command runs (R554), and the commands of LC_CTRL, as the write leaves it (R444 to R452,
R555). -/
def Obligations.LifeCycleCommands : Prop :=
  ∀ (s t : State) (acc : Access) (n : Fin 8) (d : W32) (res f : Nat) (root b : Bytes),
    let u := s.store { id := .lcCtrl } d
    let cmd := u.regF .lcCtrl 3 0
    let target := u.regF .lcCtrl 10 8
    let index := u.regF .lcCtrl 15 12
    let owner := index == 1
    let lag := [0, 1, 2].filter (fun i => copyLags (codeword u.lc) (u.otpWord i))
    let busy := u.setB .lcStatus 31 true
    let open_ := u.regB .lcStatus 20 = false
    let resp := kmac256 (kmac256 root u.deviceId 256 "P3 ATTEST") (u.token ++ toLe 1 u.lc ++ u.deviceId) 256 "P3 RETURN ATTEST"
    let done (c : Instr) (t : State) : Prop := exec c s = .next (s.wrapUp (t.respond .okay 0))
    s.Carries acc (RegId.lcCtrl.target 0 0) →
    (s.regB .lcStatus 31 = true → ∀ c ∈ [Instr.transition acc d, .repair acc d, .debugUnlock acc d, .rootCreate acc d, .progDigest acc d,
      .attest acc d, .registerWrite acc 0x20004 d], done c s) ∧
    (s.regB .lcStatus 31 = true → s.Carries acc (RegId.lcToken.target n 0) → done (.registerWrite acc (0x20020 + 4 * n.val) d) s) ∧
    (bitOf d 31 = true → s.regB .lcStatus 31 = false →
    (cmd = 1 → u.transitionFails target = some res → done (.transition acc d) (u.lcRefused res)) ∧
    (cmd = 1 → u.transitionFails target = none → target ≠ lcReturn → target ≠ lcDecom →
      done (.transition acc d) (busy.programCopies target)) ∧
    (cmd = 1 → u.transitionFails target = none → (target = lcReturn ∨ target = lcDecom) → u.tamper.zeroize = none →
      done (.transition acc d) (busy.zeroizeBegin { transition := true })) ∧
    (cmd = 2 → u.lc < 6 → lag ≠ [] → done (.repair acc d) (busy.program .repair (lag.map (fun i => (i, codeword u.lc))))) ∧
    (cmd = 2 → (6 ≤ u.lc ∨ lag = []) → done (.repair acc d) (u.lcRefused 4)) ∧
    (cmd = 3 → open_ → allZero (u.otpBytes 0x060 8) = false → u.tokenMatches (some 0x060) 7 = true →
      done (.debugUnlock acc d) ((u.setB .lcStatus 19 true).lcEnds 0)) ∧
    (cmd = 3 → open_ → allZero (u.otpBytes 0x060 8) = false → u.tokenMatches (some 0x060) 7 = false →
      done (.debugUnlock acc d) (u.lcRefused 2)) ∧
    (cmd = 4 → index < 2 → u.lc = (if owner then lcProvisioned else lcFactory) → u.rngState = rngReady → u.rootField owner = none →
      [if owner then 2 else 0, (if owner then 2 else 0) + 1].find? (fun f => allZero (u.otpBytes (0x100 + 8 * f) 8)) = some f →
      u.draw 8 0 32 = (t, b) →
      done (.rootCreate acc d) ((t.setB .lcStatus 31 true).program .rootCreate
        (otpWords (0x100 + 8 * f) (fit 32 b) ++ [(0x120 + f, 0xFFFFFFFF)]))) ∧
    (cmd = 5 → index < 7 → (u.lc = lcFactory ∨ (u.lc = lcProvisioned ∧ index ≠ 0 ∧ index ≠ 2)) →
      allZero (u.otpBytes (digestField index) 8) = true →
      done (.progDigest acc d) (busy.program .progDigest (otpWords (digestField index) u.token))) ∧
    (cmd = 6 → u.pins.dbgEn = false → u.rootFor .attest = some root →
      done (.attest acc d) (((numsFrom 0 8).foldl (fun s n =>
        s.setReg .lcAttestResp (BitVec.ofNat 32 (le32 resp (4 * n))) n) u).lcEnds 0)) ∧
    (cmd = 6 → (u.pins.dbgEn = true ∨ u.rootFor .attest = none) → done (.attest acc d) (u.lcRefused 4)))

/-- OTP_ACK ends a program, then its read-back (R55 to R57). A program that ends with otp_err leaves a free subset of the bits asked for.
A word that reads back otherwise than programmed fails the command. -/
def Obligations.OtpPrograms : Prop :=
  ∀ (s : State) (v w : W32) (err : Bool) (a : Nat) (j : OtpJob) (rest : List OtpJob) (ws : List (Nat × W32)),
    let now := j.old ||| (w &&& v)
    let read : State :=
      let t : State := { s with otp := setKey 0 s.otp a now }
      if a < 3 then t.setReg .lcCopy now a else t
    s.otpJobs = j :: rest → j.words = (a, w) :: ws →
    (j.reading = false →
      exec (.otpAck v false) s = .next (s.wrapUp { s with
        otp := setKey 0 s.otp a (s.otpWord a ||| w), otpJobs := { j with reading := true, failed := false, old := s.otpWord a } :: rest })) ∧
    (j.reading = false →
      exec (.otpAck v true) s = .next (s.wrapUp { s.drawn with
        otp := setKey 0 s.otp a (s.otpWord a ||| (w &&& BitVec.ofNat 32 s.pick))
        otpJobs := { j with reading := true, failed := true, old := s.otpWord a } :: rest })) ∧
    (j.reading = true → j.failed = false → v = j.old ||| w → ws = [] →
      exec (.otpAck v err) s = .next (s.wrapUp (read.nextProgram.otpEnds j.purpose true))) ∧
    (j.reading = true → j.failed = false → v = j.old ||| w → ws ≠ [] →
      exec (.otpAck v err) s = .next (s.wrapUp
        (({ read with otpJobs := { j with words := ws, reading := false, failed := false } :: rest } : State).lifeAdd 1 1))) ∧
    (j.reading = true → (j.failed = true ∨ v ≠ j.old ||| w) →
      exec (.otpAck v err) s = .next (s.wrapUp ((read.nextProgram.event srcOtpProg 0 a).otpEnds j.purpose false)))

/-! ### Recovery and the fault collector -/

def Obligations.RecoveryRequests : Prop :=
  ∀ (s : State) (acc : Access) (p : Fin 64) (n : Nat) (d : W32) (x : FnReset),
    let t := s.store { id := .mgtPtnReset } d
    let q := t.regF .mgtPtnReset 5 0
    let u := s.store { id := .mgtRcvCtrl } d
    let rcv := RegId.mgtRcvCtrl.target 0 0
    let first := (numsFrom 0 16).find? (fun n => s.flushState p n ≠ 0)
    (s.Carries acc (RegId.ptnCtrl.target p 0) → bitOf d 0 = true → (∀ r ∈ s.resets, r.ptn ≠ p.val) → s.tamper.zeroize = none →
      exec (.ptnReset acc p d) s = .next (s.wrapUp
        ((({ s with resets := s.resets ++ [{ ptn := p, keep := bitOf d 1 }] } : State).resetBegin p (bitOf d 1)).respond .okay 0))) ∧
    (s.Carries acc (RegId.ptnCtrl.target p 0) → bitOf d 0 = true → (∃ r ∈ s.resets, r.ptn = p.val) →
      exec (.ptnReset acc p d) s = .next (s.wrapUp ((s.setB .ptnStatus 14 true p).respond .okay 0))) ∧
    (s.Carries acc (RegId.mgtPtnReset.target 0 0) → bitOf d 31 = true → t.enabled q = true →
      exec (.mgtPtnReset acc d) s = .next (s.wrapUp ((t.resetStart q (t.regB .mgtPtnReset 30)).respond .okay 0))) ∧
    (s.Carries acc (RegId.mgtPtnReset.target 0 0) → bitOf d 31 = true → t.enabled q = false →
      exec (.mgtPtnReset acc d) s = .next (s.wrapUp ((t.ptnErr q 4).respond .okay 0))) ∧
    (s.resets.find? (fun r => r.ptn = p.val) = some x → x.begun = true → s.tamper.zeroize = none → first = some n →
      s.flushState p n = 1 → exec (.functionResetFlush p) s = .next (s.wrapUp (s.flushFetch p n))) ∧
    (s.resets.find? (fun r => r.ptn = p.val) = some x → x.begun = true → s.tamper.zeroize = none → first = some n →
      s.flushState p n = 3 →
      exec (.functionResetFlush p) s = .next (s.wrapUp
        (({ s with flushEnded := s.flushEnded ++ [(p.val, n)] } : State).checkStopped p n))) ∧
    (s.resets.find? (fun r => r.ptn = p.val) = some x → x.begun = true → s.tamper.zeroize = none → first = none →
      (∀ n < 16, s.ringSettled p n = true) → exec (.functionResetFlush p) s = .next (s.wrapUp (s.resetEnds p))) ∧
    (s.Carries acc rcv → bitOf d 31 = true → u.phase = phReady → u.regF .mgtRcvCtrl 1 0 = 1 →
      exec (.blockResetRequest acc d) s = .next (s.wrapUp ((u.enterLevel 1 1).respond .okay 0))) ∧
    (s.Carries acc rcv → bitOf d 31 = true → u.phase = phReady → u.regF .mgtRcvCtrl 1 0 = 2 → u.safe = false →
      exec (.domainPowerCycleRequest acc d) s = .next (s.wrapUp ((u.enterLevel 2 1).respond .okay 0))) ∧
    (s.Carries acc rcv → bitOf d 31 = true → u.phase = phReady → u.regF .mgtRcvCtrl 1 0 = 2 → u.safe = true →
      exec (.domainPowerCycleRequest acc d) s = .next (s.wrapUp ((u.setB .mgtRcvCtrl 30 true).respond .okay 0)))

/-- R512 to R514, R516 and R517. -/
def Obligations.FaultCollectorCommands : Prop :=
  ∀ (s : State) (acc : Access) (src : Fin 64) (d : W32),
    let high (s : State) : State :=
      let s := s.setB .fltEsc 25 false
      { s with pins := { s.pins with fltErrN := true }, flt := { s.flt with pinWanted := false } }
    let quiet (s : State) : Prop := s.criticalSet = false ∧ s.safe = false
    let strikes := min 3 (s.regF .fltEsc 28 27 + 1)
    let struck (s : State) : State := if strikes = 3 then (s.setF .fltEsc 28 27 strikes).setB .fltEsc 29 true else s.setF .fltEsc 28 27 strikes
    let held : State := { s with flt := { s.flt with pinHold := false } }
    let u := s.store { id := .fltInject } d
    let named := u.regF .fltInject 29 24
    (exec (.promotionWindowExpiry src) s = .next (s.wrapUp (s.setF .fltSrcCount 15 8 0 src))) ∧
    (s.Carries acc (RegId.fltPin.target 0 0) → bitOf d 0 = true → ¬quiet s →
      exec (.fltPin acc d) s = .next (s.wrapUp ((s.setB .fltEsc 23 true).respond .okay 0))) ∧
    (s.Carries acc (RegId.fltPin.target 0 0) → bitOf d 0 = true → quiet s → s.pins.fltErrN = false → s.flt.pinHold = false →
      exec (.fltPin acc d) s = .next (s.wrapUp ((high s).respond .okay 0))) ∧
    (s.Carries acc (RegId.fltPin.target 0 0) → bitOf d 0 = true → quiet s → s.pins.fltErrN = false → s.flt.pinHold = true →
      exec (.fltPin acc d) s = .next (s.wrapUp (({ s with flt := { s.flt with pinWanted := true } } : State).respond .okay 0))) ∧
    (s.flt.pinHold = true →
      exec .pinHoldExpiry s = .next (s.wrapUp (if s.flt.pinWanted = true ∧ quiet held then high held else held))) ∧
    (s.Carries acc (RegId.fltAck.target 0 0) → bitOf d 0 = true →
      exec (.fltAck acc d) s = .next (s.wrapUp
        (let t := (((s.setB .fltEsc 31 false).setB .fltEsc 30 false).setF .fltEsc 28 27 0).setB .fltEsc 29 false
         ({ t with flt := { t.flt with t1Waits := false, t2Waits := false, t1Over := false } } : State).respond .okay 0))) ∧
    (s.regB .fltEsc 31 = true → s.tamper.zeroize = none →
      exec .t1Expiry s = .next (s.wrapUp
        (let t := s.setB .fltEsc 31 false
         ({ t with flt := { t.flt with t2Waits := true, deadline := true, t1Over := false } } : State).enterLevel 1 2))) ∧
    (s.regB .fltEsc 31 = true → s.tamper.zeroize.isSome = true →
      exec .t1Expiry s = .next (s.wrapUp { s with flt := { s.flt with t1Over := true } })) ∧
    (s.regB .fltEsc 30 = true →
      exec .t2Expiry s = .next (s.wrapUp (((s.setB .fltEsc 30 false).strike).enterLevel 2 3))) ∧
    (s.flt.deadline = true →
      exec .endPhaseDeadline s = .next (s.wrapUp
        ((struck { s with flt := { s.flt with deadline := false } }).enterLevel 2 3))) ∧
    (s.Carries acc (RegId.fltInject.target 0 0) → bitOf d 31 = true → s.lc ≠ lcFactory →
      exec (.fltInject acc d) s = .next (s.wrapUp ((s.setB .fltEsc 22 true).respond .okay 0))) ∧
    (s.Carries acc (RegId.fltInject.target 0 0) → bitOf d 31 = true → s.lc = lcFactory → named ≤ 0x2E →
      exec (.fltInject acc d) s = .next (s.wrapUp
        ((u.recordEvent named (u.regF .fltInject 22 16) (u.regF .fltInject 15 0) true).1.respond .okay 0))) ∧
    (s.Carries acc (RegId.fltInject.target 0 0) → bitOf d 31 = true → s.lc = lcFactory → 0x2F ≤ named → named ≤ 0x3E →
      exec (.fltInject acc d) s = .next (s.wrapUp (u.respond .okay 0))) ∧
    (s.Carries acc (RegId.fltInject.target 0 0) → bitOf d 31 = true → s.lc = lcFactory → named = 0x3F →
      exec (.fltInject acc d) s = .next (s.wrapUp
        (let t := (u.recordEvent named (u.regF .fltInject 22 16) (u.regF .fltInject 15 0) true).1
         ({ t with toContain := u.toContain } : State).enterSafe.respond .okay 0))) ∧
    (exec .collectorSelf s = .next (s.wrapUp ((s.event srcCollectorSelf 2 0).enterSafe)))

/-! ### The tamper monitors -/

/-- R483 to R485, R487, R488, R502 and R503, and the edges of R47, R48 and R52. `m` is the monitor of the source once the detection is
in it, `n` once its confirmation by the other detector is waited for. -/
def Obligations.TamperDetections : Prop :=
  ∀ (s : State) (acc : Access) (src : Fin 12) (det other : Fin 2) (line : Fin 4) (lv : Bool) (l0 l1 l2 l3 : Nat) (k : Nat) (ks : List Nat)
    (x : KeepSample) (e : CellEdge),
    let m := (s.setB .tmpSrcStatus 3 true src).updTmpSrc src (fun x => { x with holding := false })
    let n := if twoDetectors src ∧ s.detFailed src (1 - det.val) = false then m.updTmpSrc src (fun x => { x with waits := x.waits ++ [det.val] }) else m
    let lined : State := { s with tamper := { s.tamper with lines := modAt (fun _ => lv) line s.tamper.lines } }
    let live : Prop := src.val ≠ 11 ∧ s.tmpDisabled src = false ∧ s.pins.keepOnCell = false ∧ s.pins.coldLow = false ∧
      s.pins.warmLow = false ∧ (det.val = 0 ∨ twoDetectors src = true) ∧ s.detFailed src det = false
    let c := (s.tmpSrc src).count + 1
    let mark := RegId.tmpFlagClear.target 0 0
    let masked : State := { s with tamper := { s.tamper with mask := 2 ^ src.val } }
    (live → (∀ w ∈ (m.tmpSrc src).waits, w = det.val) → (n.tmpSrc src).count + 1 < n.tmpN src →
      exec (.tamperDetection src det) s = .next (s.wrapUp (n.updTmpSrc src (fun x => { x with count := x.count + 1 })))) ∧
    (live → (∀ w ∈ (m.tmpSrc src).waits, w = det.val) → n.tmpN src ≤ (n.tmpSrc src).count + 1 →
      exec (.tamperDetection src det) s = .next (s.wrapUp
        ((n.updTmpSrc src (fun x => { x with count := 0 })).alarm src (n.tmpActions src)))) ∧
    (live → other.val ∈ (m.tmpSrc src).waits → other ≠ det →
      exec (.tamperDetection src det) s = .next (s.wrapUp (m.updTmpSrc src (fun x => { x with waits := [] })))) ∧
    (¬live → exec (.tamperDetection src det) s = .next (s.wrapUp s)) ∧
    (exec (.tamperWindowExpiry src) s = .next (s.wrapUp (s.updTmpSrc src (fun x => { x with count := 0 })))) ∧
    ((s.tmpSrc src).waits = k :: ks → s.tmpDisabled src = false →
      exec (.disagreeWindowExpiry src) s = .next (s.wrapUp
        ((s.updTmpSrc src (fun x => { x with waits := ks })).event srcTmpDisagree 3 src))) ∧
    ((s.tmpSrc src).holding = true →
      exec (.fenceHoldExpiry src) s = .next (s.wrapUp (s.updTmpSrc src (fun x => { x with inForce := 0, holding := false })))) ∧
    (exec (.tamperCauseEnd src) s = .next (s.wrapUp
      ((s.setB .tmpSrcStatus 3 false src).updTmpSrc src (fun x => { x with holding := x.inForce != 0 })))) ∧
    (exec (.levelDebounce line lv) s = .next (s.wrapUp (if lv then lined.detect (5 + line) 0 else lined))) ∧
    (exec (.pulseCheck l0 l1 l2 l3) s = .next (s.wrapUp
      (let a := if l0 < 1500 ∨ 25000 < l0 then s.detect 5 1 else s
       let b := if l1 < 1500 ∨ 25000 < l1 then a.detect 6 1 else a
       let c := if l2 < 1500 ∨ 25000 < l2 then b.detect 7 1 else b
       if l3 < 1500 ∨ 25000 < l3 then c.detect 8 1 else c))) ∧
    (s.pins.keepOnCell = false → exec (.keepSample x) s = .next (s.wrapUp s)) ∧
    (s.pins.keepOnCell = true → src.val ∈ cellSources → s.tmpDisabled src = false → c < s.tmpN src →
      keepDetections x = [(src.val, det.val)] → s.detFailed src 0 = false → s.detFailed src 1 = false →
      exec (.keepSample x) s = .next (s.wrapUp
        (({ s with tamper := { s.tamper with disagree := s.tamper.disagree ++ [src.val] } } : State).updTmpSrc src
          (fun x => { x with count := x.count + 1 })))) ∧
    (s.pins.keepOnCell = true → src.val ∈ cellSources → s.tmpDisabled src = false → s.tmpN src ≤ c →
      keepDetections x = [(src.val, 0), (src.val, 1)] → s.detFailed src 0 = false → s.detFailed src 1 = false →
      exec (.keepSample x) s = .next (s.wrapUp
        ((s.updTmpSrc src (fun x => { x with count := 0 })).cellAlarm src (s.tmpActions src)))) ∧
    ((∀ y ∈ x.found, y.1.val < 5 ∨ 9 ≤ y.1.val) → x.lines = [(lv, l0), (false, 10000), (false, 10000), (false, 10000)] →
      (((5, 0) ∈ keepDetections x) ↔ lv = true) ∧ (((5, 1) ∈ keepDetections x) ↔ (l0 < 1500 ∨ 25000 < l0))) ∧
    (exec (.keepOnCellEdge e) s = .next (s.wrapUp
      { s with
        pins := { s.pins with keepOnCell := e.level }
        life := if e.flat = true ∧ e.level = false then { s.life with record := none } else s.life })) ∧
    (s.Carries acc mark → s.tmpFlag src = true → s.regF .tmpSrcStatus 15 8 src < 16 → s.tmpCause src = false →
      exec (.tmpFlagClear acc (BitVec.ofNat 32 (2 ^ src.val))) s = .next (s.wrapUp ((masked.clearFlag src).respond .okay 0))) ∧
    (s.Carries acc mark → s.tmpFlag src = true → (16 ≤ s.regF .tmpSrcStatus 15 8 src ∨ s.tmpCause src = true) →
      exec (.tmpFlagClear acc (BitVec.ofNat 32 (2 ^ src.val))) s = .next (s.wrapUp
        ((masked.setB .tmpStatus 28 true).respond .okay 0)))

/-- R491, R492, R496 to R498 and R500. TMP_UNLOCK_CTRL and TMP_OTP_CTRL are read as the write leaves them. -/
def Obligations.TamperActionsAndUnlock : Prop :=
  ∀ (s t : State) (acc : Access) (d : W32) (z : Zeroize) (b : Bytes) (k : Nat),
    let cleared : State :=
      let t := s.abortAll .tamperAbort
      { t with tamper := { t.tamper with zeroize := none } }
    let ctrl := RegId.tmpUnlockCtrl.target 0 0
    let u := s.store { id := .tmpUnlockCtrl } d
    let purpose := u.regF .tmpUnlockCtrl 1 0
    let locked := u.regB .tmpStatus 31
    let ready : Prop := u.regB .tmpUnlockCtrl 31 = false ∧ (purpose = 1 ∨ purpose = 2)
    let verified : State :=
      let t := (numsFrom 0 8).foldl (fun s n => s.setReg .tmpUnlockChal 0 n) (s.unlockRefused 0)
      { t with tamper := { t.tamper with record := [] } }
    let whole : Prop := s.regB .tmpUnlockCtrl 31 = true ∧ s.tamper.record.length = s.regF .tmpUnlockLen 13 0
    let otp := RegId.tmpOtpCtrl.target 0 0
    let o := s.store { id := .tmpOtpCtrl } d
    let field := o.regF .tmpOtpCtrl 7 4
    let cmd (n : Nat) : Prop := s.Carries acc otp ∧ bitOf d 31 = true ∧ s.regB .tmpOtpCtrl 31 = false ∧ o.regF .tmpOtpCtrl 3 0 = n
    let may : Prop := o.lc = lcFactory ∨ o.lc = lcProvisioned
    let start (f : OtpFor) (ws : List (Nat × W32)) : State := ((o.setB .tmpOtpCtrl 31 true).program f ws).respond .okay 0
    (s.tamper.zeroize = some z → z.lock = false → z.transition = false → cleared.tamper.acting ≠ some 5 → s.flt.t1Over = false →
      exec .zeroizeClearDone s = .next (s.wrapUp cleared)) ∧
    (s.tamper.zeroize = some z → z.lock = false → z.transition = false → cleared.tamper.acting = some 5 → s.flt.t1Over = false →
      exec .zeroizeClearDone s = .next (s.wrapUp
        (({ cleared with tamper := { cleared.tamper with
            acting := if cleared.tamper.throttling then some 2 else none, throttling := false } } : State).proceed 10).throttleDone)) ∧
    (s.tamper.zeroize = some z → z.lock = false → z.transition = false → cleared.tamper.acting ≠ some 5 → s.flt.t1Over = true →
      cleared.regB .fltEsc 31 = true →
      exec .zeroizeClearDone s = .next (s.wrapUp cleared.t1Enters)) ∧
    (s.tamper.zeroize = some z → z.lock = true → z.transition = false → s.flt.t1Over = false →
      exec .zeroizeClearDone s = .next (s.wrapUp cleared.lockEnds)) ∧
    (s.tamper.acting = some k → k ≠ 7 →
      exec .actionBoundExpiry s = .next (s.wrapUp
        (({ s with tamper := { s.tamper with acting := none, todo := s.tamper.todo ||| 0x80 } } : State).proceed 10))) ∧
    (s.tamper.acting = some 7 → exec .actionBoundExpiry s = .next (s.wrapUp s.enterSafe)) ∧
    (s.Carries acc ctrl → bitOf d 30 = true → bitOf d 31 = false → u.rngState = rngReady → u.generate 5 [] 32 = (t, b) →
      exec (.unlockChallengeNew acc d) s = .next (s.wrapUp
        (((numsFrom 0 8).foldl (fun s n => s.setReg .tmpUnlockChal (BitVec.ofNat 32 (le32 b (4 * n))) n) t).respond .okay 0))) ∧
    (s.Carries acc ctrl → bitOf d 30 = true → bitOf d 31 = false → u.rngState ≠ rngReady →
      exec (.unlockChallengeNew acc d) s = .next (s.wrapUp ((u.setB .tmpUnlockCtrl 29 true).respond .okay 0))) ∧
    (s.Carries acc ctrl → bitOf d 30 = false → bitOf d 31 = true → ready → u.regF .tmpUnlockCtrl 26 24 ≠ 5 →
      (purpose = 1 ↔ locked = true) → (allZero (u.otpBytes 0x070 8) = false ∨ allZero (u.otpBytes 0x078 8) = false) →
      8 ≤ u.regF .tmpUnlockLen 13 0 → u.regF .tmpUnlockLen 13 0 ≤ 8192 →
      exec (.unlockSubmit acc d) s = .next (s.wrapUp
        (({ u.setB .tmpUnlockCtrl 31 true with tamper := { u.tamper with record := [] } } : State).respond .okay 0))) ∧
    (s.Carries acc ctrl → bitOf d 30 = false → bitOf d 31 = true → ready → u.regF .tmpUnlockCtrl 26 24 = 5 →
      exec (.unlockSubmit acc d) s = .next (s.wrapUp
        (((((u.setF .tmpUnlockCtrl 23 16 3).setB .tmpUnlockCtrl 31 false)).setB .tmpUnlockCtrl 29 true).respond .okay 0))) ∧
    (whole → s.recordVerifies (s.regF .tmpUnlockCtrl 1 0) = false →
      exec .unlockVerifyDone s = .next (s.wrapUp (s.unlockFail 1))) ∧
    (whole → s.recordVerifies 1 = true → s.regF .tmpUnlockCtrl 1 0 = 1 →
      exec .unlockVerifyDone s = .next (s.wrapUp (((verified.setB .tmpStatus 31 false).clearFlags 0xFFF).enterLevel 1 6))) ∧
    (whole → s.recordVerifies 2 = true → s.regF .tmpUnlockCtrl 1 0 = 2 →
      exec .unlockVerifyDone s = .next (s.wrapUp (verified.clearFlags s.tamper.mask))) ∧
    (cmd 1 → may → field ≤ 1 → allZero (o.otpBytes (0x070 + 8 * field) 8) = true →
      exec (.tmpProgDigest acc d) s = .next (s.wrapUp (start .tamperDigest (otpWords (0x070 + 8 * field) o.challenge)))) ∧
    (cmd 2 → may → field ≤ 10 → bitOf (o.otpWord 0x080) field = false →
      exec (.tmpSourceDisable acc d) s = .next (s.wrapUp (start .sourceDisable [(0x080, BitVec.ofNat 32 (2 ^ field))]))) ∧
    (cmd 3 → may → o.otpWord 0x081 = 0 →
      exec (.keepLostSet acc d) s = .next (s.wrapUp
        (start .keepLost [(0x081, BitVec.ofNat 32 (2 ^ 31 + o.regF .tmpOtpCtrl 15 8))]))) ∧
    (cmd 3 → ¬may → exec (.keepLostSet acc d) s = .next (s.wrapUp ((o.tmpOtpEnds 1).respond .okay 0)))

/-! ### The random number generator -/

/-- That ROOT goes on while its reseed waits for blocks, and which samples end a recalibration, are the model's choices, log entries 110
and 136. -/
def Obligations.RandomNumbers : Prop :=
  ∀ (s t : State) (acc : Access) (i : Fin 3) (bit good : Bool) (d : W32) (k : Nat) (e : Bytes),
    let o := s.openWindow i
    let n := o.noise i
    let run := if n.run ≠ 0 ∧ n.bit = bit then n.run + 1 else 1
    let w := bit :: n.window
    let apt := (w.filter (· == w.getLastD bit)).length
    let v := o.updNoise i (fun n => { n with window := w, run := run, bit := bit })
    let p := v.setF .rngSrcPeak 15 0 (max (v.regF .rngSrcPeak 15 0 i) (min run 0xFFFF)) i
    let u := p.setF .rngSrcPeak 31 16 (max (p.regF .rngSrcPeak 31 16 i) apt) i
    let rc := s.store { id := .rngCtrl } d
    let wiped (s : State) : State := s.updNoise i (fun n => { n with window := [], run := 0, acc := [], blocks := [], retest := none })
    let failed (k : Nat) : State := if s.srcState i ≤ 2 then u.srcFail i k else
      u.updNoise i (fun n => { n with window := [], run := 0, retest := some false })
    (1 ≤ s.srcState i → s.srcState i ≤ 4 →
      exec (.rngSample i bit) s = .next (s.wrapUp
        (if n.params.rctC ≤ run then failed 1
         else if n.params.aptC ≤ apt then failed 2
         else if w.length < 1024 then u
         else if autoFails n.params.acC w.reverse then failed 3
         else u.windowPassed i))) ∧
    ((s.srcState i = 0 ∨ s.srcState i = 5) → exec (.rngSample i bit) s = .next (s.wrapUp s)) ∧
    (s.rngState = rngReady → 2 ≤ s.rng.pool.length →
      exec (.drbgReseed 0) s = .next (s.wrapUp
        (((({ s with rng := { s.rng with pool := s.rng.pool.drop 2 } } : State).seeded 0
          (drbgReseed (s.drbgAt 0).st ((s.rng.pool.take 2).flatten.take 48) [])).applyRngParams)))) ∧
    (s.rngState = rngReady → s.rng.pool.length < 2 →
      exec (.drbgReseed 0) s = .next (s.wrapUp { s with rng := { s.rng with rootWaits := true } })) ∧
    (s.rngState = rngReady → 1 ≤ k → k < 6 → s.callRoot 48 = (t, e) → t.rngState = rngReady →
      exec (.drbgReseed k) s = .next (s.wrapUp ((t.seeded k (drbgReseed (t.drbgAt k).st e [])).applyRngParams))) ∧
    ((s.rngState = rngStarting ∨ s.rngState = rngResetting) → 2 ≤ s.healthy.length → 2 ≤ s.rng.pool.length →
      (s.takePool.1.seeded 0 (drbgSeed s.takePool.2 (s.person 0))).seedChildren [1, 2, 3, 4, 5] = t → t.rngState ≠ rngHalted →
      exec .rngReady s = .next (s.wrapUp ((numsFrom 0 96).foldl State.fillDomain
        (((t.setF .rngStatus 2 0 rngReady).setF .rngStatus 15 12 0).setB .mgtStatus 13 true)))) ∧
    (s.Carries acc (RegId.rngSrcCtrl.target i 0) → bitOf d 0 = true → s.rngState ≠ rngStarting → s.rngState ≠ rngResetting →
      (1 ≤ s.srcState i ∧ s.srcState i ≤ 4) → ¬(s.srcState i = 2 ∧ s.healthy.length = 2) →
      exec (.rngRecal acc i d) s = .next (s.wrapUp ((((wiped s).setSrcState i 4).rngCheck).respond .okay 0))) ∧
    (s.Carries acc (RegId.rngSrcCtrl.target i 0) → bitOf d 0 = true → s.srcState i = 2 → s.healthy.length = 2 →
      exec (.rngRecal acc i d) s = .next (s.wrapUp ((s.setB .rngCtrl 1 true).respond .okay 0))) ∧
    (s.srcState i = 4 → good = true → (s.noise i).retest = some true →
      exec (.rngRecalDone i good) s = .next (s.wrapUp
        (State.combine 16 ((s.setSrcState i 2).updNoise i
          (fun n => { n with window := [], run := 0, retest := none, retried := true }))).rootClaim)) ∧
    (s.srcState i = 4 → good = true → (s.noise i).retest = some false →
      exec (.rngRecalDone i good) s = .next (s.wrapUp (s.srcFail i 4))) ∧
    (s.srcState i = 4 → good = true → (s.noise i).retest = none → exec (.rngRecalDone i good) s = .next (s.wrapUp s)) ∧
    (s.srcState i = 4 → good = false → exec (.rngRecalDone i good) s = .next (s.wrapUp (s.srcFail i 5))) ∧
    (s.Carries acc (RegId.rngCtrl.target 0 0) → bitOf d 0 = true → (rc.rngState = rngReady ∨ rc.rngState = rngHalted) →
      exec (.rngReset acc d) s = .next (s.wrapUp
        (((rc.setF .rngHalts 31 16 (satAdd 0xFFFF (rc.regF .rngHalts 31 16) 1)).rngRestart).respond .okay 0))) ∧
    (s.Carries acc (RegId.rngCtrl.target 0 0) → bitOf d 0 = true → rc.rngState ≠ rngReady → rc.rngState ≠ rngHalted →
      exec (.rngReset acc d) s = .next (s.wrapUp ((rc.setB .rngCtrl 1 true).respond .okay 0))) ∧
    (s.rngState = rngReady → s.regB .rngDataStatus 0 = false → s.generate 5 [] 32 = (t, e) → t.rngState = rngReady →
      exec .rngDataRefill s = .next (s.wrapUp
        (let r := (numsFrom 0 8).foldl (fun s n => s.setReg .rngData (BitVec.ofNat 32 (le32 e (4 * n))) n) t
         { r.setB .rngDataStatus 0 true with rng := { r.rng with read := [] } })))

/-! ### Power, units in service and lifetime records -/

/-- That a ninth access leaves nothing is the model's choice, log entry 116. -/
def Obligations.PowerAndClocks : Prop :=
  ∀ (s : State) (acc : Access) (a : Nat) (w : W32) (dom : Fin 96) (d op cls inst v : Nat) (ns : List Nat),
    let offered (x : Offered) : State :=
      { s with port := { s.port with waiting := s.port.waiting ++ [x] }, pins := { s.pins with fabReq := true } }
    let running : State := { s with pins := { s.pins with fabRun := true }, port := { s.port with waiting := [] } }
    let serve (u : State) (x : Offered) : State :=
      if x.write then u.writeNow x.acc (targetOf x.addr) x.data else u.readNow x.acc (targetOf x.addr)
    let acked : State := { s with power := { s.power with
      asked := s.power.asked.filter (fun e => e.1 ≠ dom.val), late := s.power.late.filter (· ≠ dom.val),
      fromOff := if op = 2 then s.power.fromOff.filter (· ≠ dom.val) else s.power.fromOff } }
    let t := acked.setDom dom op
    let after := if op = 2 then (t.domWoken dom (s.power.fromOff.contains dom)).fillDomain dom
      else if op = 0 then (t.domLost dom).dropBuffers dom else t
    let late : State := { s with power := { s.power with late := s.power.late ++ [dom.val] } }
    let enabled : State := { s with
      pins := { s.pins with dbgEn := true }, reqs := s.reqs.map (fun r => { r with testRoot := true }), staging := [] }
    let berthless := ((s.berths.filter (fun e => e.2.rootReal)).map (·.1)).foldl State.invalidateBerth enabled
    let cacheless : State := { berthless with ckc := { berthless.ckc with
      entries := berthless.ckc.entries.filter (fun e => !(e.2.isPrivate && e.2.rootReal)) } }
    (s.power.asked.find? (fun e => e.1 = dom.val) = some (d, op) →
      exec (.pmAck dom) s = .next (s.wrapUp (State.pumpPm 4 after.bootReady))) ∧
    (s.power.asked.any (fun e => e.1 = dom.val) = true → s.power.late.contains dom.val = false →
      exec (.pmHandshakeTimeout dom) s = .next (s.wrapUp
        (((if dom.val = 16 then late.mark 10 0 else late.containDom dom).event srcPmHandshake dom dom).bootReady))) ∧
    (s.pins.fabRun = false → portAddr a = true → 8 ≤ s.port.waiting.length →
      exec (.registerWrite acc a w) s = .next (s.wrapUp s) ∧ exec (.latchLoRead acc a) s = .next (s.wrapUp s)) ∧
    (s.pins.fabRun = false → portAddr a = true → s.port.waiting.length < 8 →
      exec (.registerWrite acc a w) s = .next (s.wrapUp (offered { acc := acc, write := true, addr := a, data := w })) ∧
      exec (.latchLoRead acc a) s = .next (s.wrapUp (offered { acc := acc, write := false, addr := a }))) ∧
    (s.pins.engReq = true → exec (.clockAck true) s = .next (s.wrapUp { s with pins := { s.pins with engRun := true } })) ∧
    (s.pins.fabReq = true → s.port.waiting = [] →
      exec (.clockAck false) s = .next (s.wrapUp { s with pins := { s.pins with fabRun := true } })) ∧
    (∀ x : Offered, s.pins.fabReq = true → s.port.waiting = [x] →
      exec (.clockAck false) s = .next (s.wrapUp
        (let t := serve running x
         { t with port := { t.port with earlier := [] } }))) ∧
    (∀ x y : Offered, s.pins.fabReq = true → s.port.waiting = [x, y] →
      exec (.clockAck false) s = .next (s.wrapUp
        (let t := serve running x
         let u := serve t y
         { u with port := { u.port with earlier := [(t.port.rsp, t.port.rdata)] } }))) ∧
    (exec (.pmCapChange v) s = .next (s.wrapUp
      (({ s with pins := { s.pins with pmCap := min (v % 256) 140 } } : State).capLowered))) ∧
    (exec (.engClkAnnounce v) s = .next (s.wrapUp { s with pins := { s.pins with engMhz := v % 2048 } })) ∧
    (s.pins.dbgEn = false → s.tamper.zeroize = none → (∀ p < 64, s.regB .keyStageStatus 31 p = false) →
      (∀ r ∈ enabled.reqs, r.atWork = true → enabled.tookReal r = false) →
      exec .dbgEnRise s = .next (s.wrapUp
        (((cacheless.keys.filter (fun e => e.2.rootReal && decide (e.2.state ≠ .invalid))).map (·.1)).foldl
          (fun s i => if (s.key i).state = .invalid then s else s.invalidateSlot i) cacheless))) ∧
    (s.pins.dbgEn = true → exec .dbgEnRise s = .next (s.wrapUp s)) ∧
    (exec .dbgEnFall s = .next (s.wrapUp { s with pins := { s.pins with dbgEn := false } })) ∧
    (∀ (rid : Nat) (r : Req), r.testRoot = true → s.pins.dbgEn = false →
      ((s.withDbg true).Runs rid r .keyDerive →
        exec (.keyDerive rid) s = .next (s.wrapUp (((s.withDbg true).keyDerive rid).withDbg false))) ∧
      ((s.withDbg true).Runs rid r .berthSealOut →
        exec (.berthSealOut rid) s = .next (s.wrapUp (((s.withDbg true).berthSealOut rid).withDbg false)))) ∧
    (domUnits dom = some (cls, ns) → cls ≤ 5 → s.domOn dom = true → s.mayRest cls ns dom = true →
      exec (.retAfterExpiry dom) s = .next (s.wrapUp (s.askDom dom 1))) ∧
    (domUnits dom = some (cls, ns) → cls ≤ 5 → s.domState dom = 1 → s.regF .pwrIdle 23 12 cls ≠ 0 → s.mayRest cls ns dom = true →
      (∀ n ∈ ns, s.keepsPower dom cls n = false) → s.power.asked.any (fun e => e.1 = dom.val) = false →
      exec (.offAfterExpiry dom) s = .next (s.wrapUp (s.askDom dom 0))) ∧
    (s.needsEng = false →
      exec (.clkIdleExpiry true) s = .next (s.wrapUp { s with pins := { s.pins with engReq := false, engRun := false } })) ∧
    (s.needsEng = true → exec (.clkIdleExpiry true) s = .next (s.wrapUp s)) ∧
    (s.fabIdle = true →
      exec (.clkIdleExpiry false) s = .next (s.wrapUp
        (((numsFrom 12 13).filter s.domOn).foldl (fun s d => s.askDom d 1)
          { s with pins := { s.pins with fabReq := false, fabRun := false } }))) ∧
    (exec (.ballastHoldExpiry cls inst) s = .next (s.wrapUp { s with power := { s.power with
      ballast := s.power.ballast.filter (fun u => u ≠ (cls, s.physical cls inst)) } })) ∧
    (exec .powerCapBoundExpiry s = .next (s.wrapUp (if s.power.capWait then s.event srcPowerCap 0xFF 0 else s)))

/-- PWR_UNIT_CTRL is read as the write leaves it (R534); the calendar and the counters (R536, R537, R539). -/
def Obligations.UnitsAndLifetime : Prop :=
  ∀ (s : State) (acc : Access) (d : W32) (x : UnitDrain),
    let ctrl := RegId.pwrUnitCtrl.target 0 0
    let u := s.store { id := .pwrUnitCtrl } d
    let c := u.regF .pwrUnitCtrl 27 24
    let n := u.regF .pwrUnitCtrl 5 0
    let m := u.regF .pwrUnitCtrl 13 8
    let go (op : Nat) : Prop := s.Carries acc ctrl ∧ bitOf d 31 = true ∧ u.power.drain = none ∧ u.regF .pwrUnitCtrl 29 28 = op
    let ends (s : State) (res : Nat) : State := (s.setB .pwrUnitCtrl 31 false).setF .pwrUnitStatus 7 0 res
    let refused : State := ((u.setB .pwrUnitCtrl 30 true).setF .pwrUnitStatus 7 0 1).respond .okay 0
    let good := decide (5 < c) || Config.holds .healthOk [toLe 8 u.free, toLe 2 c, toLe 2 n]
    let zeroed := u.drawn.returnZero c n
    let served := if c = 7 then zeroed.setB .bsnErr (24 + n) false else zeroed
    let ended := (s.drainUsers x.cls x.inst).foldl (fun s r => (s.abortEngine r).finishReq r.id
      { plainResult .engineFault r.unit r.inst with outLen := r.bas.acked }) s
    let second (i : Nat) (s : State) : State :=
      let n := getKey 0 s.life.secs i + 1
      let t : State := { s with life := { s.life with secs := setKey 0 s.life.secs i (if n < 3600 then n else 0) } }
      if n < 3600 then t else t.lifeAdd i 1
    let on := (enumFrom 0 lifeEngines).filter (fun e => s.domState (classDomain e.2.1 e.2.2) == 2)
    (go 0 → unitNamed c n = true → u.unitMarked c n = false → u.unitOut c n = false →
      exec (.unitDrain acc d) s = .next (s.wrapUp (({ u.setB .pwrUnitCtrl 31 true with
        power := { u.power with drain := some { cls := c, inst := n } } } : State).respond .okay 0))) ∧
    (go 0 → (unitNamed c n = false ∨ u.unitMarked c n = true ∨ u.unitOut c n = true) →
      exec (.unitDrain acc d) s = .next (s.wrapUp refused)) ∧
    (go 1 → unitNamed c n = true → u.unitMarked c n = true → good = true →
      exec (.unitReturn acc d) s = .next (s.wrapUp ((ends { served with
        outMarks := served.outMarks.filter (fun m => m ≠ (c, served.physical c n)) } 0).respond .okay 0))) ∧
    (go 1 → unitNamed c n = true → u.unitMarked c n = true → good = false →
      exec (.unitReturn acc d) s = .next (s.wrapUp ((ends zeroed 3).respond .okay 0))) ∧
    (go 1 → (unitNamed c n = false ∨ u.unitMarked c n = false) → exec (.unitReturn acc d) s = .next (s.wrapUp refused)) ∧
    (go 2 → unitNamed c n = true → unitNamed c m = true → u.unitMarked c n = true → u.unitMarked c m = true →
      exec (.unitRemap acc d) s = .next (s.wrapUp
        ((ends ((u.setReg .pwrMap (u.reg .pwrMap c m) c n).setReg .pwrMap (u.reg .pwrMap c n) c m) 0).respond .okay 0))) ∧
    (s.power.drain = some x → 7 ≤ x.cls → x.cls ≤ 9 →
      exec .unitDrainLimitExpiry s = .next (s.wrapUp ((ended.drainDone x.cls x.inst).setF .pwrUnitStatus 7 0 2))) ∧
    (s.power.drain = some x → x.cls = 6 →
      exec .unitDrainLimitExpiry s = .next (s.wrapUp (((ended.dmaLost x.inst).drainDone 6 x.inst).setF .pwrUnitStatus 7 0 2))) ∧
    (s.power.drain = some x → x.cls ≤ 5 →
      exec .unitDrainLimitExpiry s = .next (s.wrapUp
        (((s.failUnit (engineUnit x.cls) x.inst).drainDone x.cls x.inst).setF .pwrUnitStatus 7 0 2))) ∧
    (s.Carries acc (RegId.lifCalCtrl.target 0 0) → bitOf d 0 = true → s.locked .lifCalCtrl = false →
      exec (.lifCalSet acc d) s = .next (s.wrapUp
        ((((s.setReg .lifCalLo (s.reg .lifCalSetLo)).setReg .lifCalHi (BitVec.ofNat 32 (s.regF .lifCalSetHi 15 0))).setB
          .lifStatus 30 true).respond .okay 0))) ∧
    (exec .lifetimeCommit s = .next (s.wrapUp
      (on.foldl (fun t e => second (0x200 + 4 * e.1 + s.pick / 4 ^ e.1 % 4) t) (second 0 s.drawn)).lifeCommit))

/-! ### Commands, steps and reset -/

/-- On an empty queue the block idles, which is the model's choice (log entry 1). -/
def Obligations.StepTakesTheFrontCommand : Prop :=
  ∀ (s : State) (c : Instr) (rest : List Instr),
    (s.pending = c :: rest → step s = exec c { s with pending := rest }) ∧ (s.pending = [] → step s = .next s)

/-- Every command has an outcome in every state: no command stops the block, none touches the queue, and none leaves a unit named for
containment (R509). -/
def Obligations.EveryCommandCompletes : Prop :=
  ∀ (c : Instr) (s : State), ∃ t : State, exec c s = .next t ∧ t.pending = s.pending ∧ t.toContain = []

/-- What ends every command changes nothing but in a state from which something follows. -/
def Obligations.SettledStateStands : Prop :=
  ∀ s0 s : State, s0.Settled s → s0.wrapUp s = s

/-- Containment is complete before the next command, whatever the state before (R508, R509). -/
def Obligations.StepsLeaveNothingToContain : Prop :=
  ∀ s t : State, s.toContain = [] → step s = .next t → t.toContain = []

/-- The reset values of the register map that are not zero, and one that is of each group (R546); the state of the model beside the
registers. -/
def Obligations.ResetValues : Prop :=
  let s := State.reset
  (s.pending = [] ∧ s.toContain = [] ∧ s.reqs = [] ∧ s.keys = [] ∧ s.berths = [] ∧ s.pins.fltErrN = true ∧ s.pins.blkRstReq = 0) ∧
  (s.reg .mgtStatus = 1 ∧ s.reg .mgtCause = 0xFFFF0000 ∧ s.reg .mgtPtnA 0 = 0x80000000 ∧ s.reg .keyStatus = 0x2000 ∧
    s.reg .lcStatus = 7 ∧ s.reg .tmpCfg = 0x0032000A ∧ s.reg .fltT1 = 0x3E8 ∧ s.reg .fltT2 = 0x14 ∧ s.reg .fltEsc = 0 ∧
    s.reg .pwrStatus = 0x003C0000 ∧ s.reg .pwrCfg = 0x000A00C8 ∧ s.reg .pwrGov = 0xA ∧ s.reg .pwrDrainLimit = 0xEA60 ∧
    s.reg .rngStatus = 0 ∧ s.reg .rngCfg = 0x00100064 ∧ s.reg .lkIsaVer = 0x100 ∧ s.reg .lkWdog = 0x64 ∧ s.reg .lkDrainLimit = 0xA ∧
    s.reg .bsnStatus = 0x80000000 ∧ s.reg .brtStatus = 0x4000 ∧ s.reg .hbsCfg = 0x400 ∧ s.reg .plyCfg = 0x110 ∧
    s.reg .ckcStatus = 0x02000000 ∧ s.reg .crvCtrl = 0) ∧
  (∀ p : Fin 64, (p.val ≠ 0 → s.reg .mgtPtnA p = 0) ∧ s.reg .qosPtnCfg p = 0x10004010 ∧ s.reg .qosPtnLim p = 0x00100000 ∧
    s.reg .ckcPtn p = 0x02000000 ∧ s.reg .fltSrcCfg p = if p.val = 0x3F then 0x80000000 else 0x40000000) ∧
  (∀ p : Fin 64, ∀ r : Fin 16, s.reg .qosRingCfg p r = 0x0810 ∧ s.sqState p r = 0 ∧ s.cqState p r = 0) ∧
  (∀ n : Fin 48, s.reg .pwrMap 1 n = BitVec.ofNat 32 n) ∧
  (∀ k : Fin 11, s.reg .tmpSrcCfg k = 0x030103E8) ∧
  [0, 1, 2, 3, 4].map (s.reg .tmpSrcParam ·) = [0x4224, 5, 0x78D3, 4, 10] ∧
  [0, 1, 2, 3, 4, 5].map (s.reg .pwrIdle ·) = [0x0100000A, 0x0006400A, 0x0006400A, 0x003E800A, 0x0006400A, 0x0006400A]

/-! ### The instruction words of the Lockkeepers -/

/-- Every well-formed instruction decodes from its words, with every operand; and what decodes is well formed and has the word that it
was read from, but for the bits that R195 and R196 leave free: the count bits of a shift by X, and the byte of the modes LONG and ABS of
classes 0x1, 0x2 and 0x4 to 0xB. -/
def Obligations.LkDecodeOfEncode : Prop :=
  (∀ (i : LkInstr) (ext : W16), i.wellFormed = true →
    lkDecode ((lkEncode i).headD 0) ((lkEncode i).getD 1 ext) = some i ∧ (lkEncode i).length = i.words) ∧
  (∀ (w ext : W16) (i : LkInstr), lkDecode w ext = some i →
    i.wellFormed = true ∧ (lkEncode i = [w, ext].take i.words ∨ (wf w 15 12 = 0xC ∧ w.getLsbD 8 = true ∧ lkEncode i = [w &&& 0xFFE0]) ∨
      (1 ≤ wf w 15 12 ∧ wf w 15 12 ≤ 0xB ∧ wf w 15 12 ≠ 3 ∧ wf w 11 9 ∈ [1, 4, 5, 6] ∧ lkEncode i = [w &&& 0xFF00, ext])))

/-- Words written out from R195 to R197, and reserved words of R199. -/
def Obligations.LkWordsDecode : Prop :=
  [(0x1112, 0), (0x1200, 0xBEEF), (0x2B00, 0x1000), (0x3112, 0), (0x3F00, 0x0200), (0x4605, 0), (0xBE07, 0), (0x0104, 0), (0x027F, 0),
    (0x0609, 0), (0xC403, 0), (0xC900, 0), (0xD0FE, 0), (0xE100, 0x0040), (0xE403, 0), (0x1201, 0xBEEF)].map (fun p => lkDecode p.1 p.2) =
  ([.ldA (.short 0x12 true), .ldA (.long 0xBEEF false), .stA (.absX 0x1000 true), .ldX (.page 0x12), .stY (.abs 0x0200),
    .addA (.ctrl 0x05 false), .cmpA (.ptrY 0x07 false), .movYX, .cmpX 0x7F, .trap 9, .asr (.imm 3), .ror .fromX, .beq 0xFE, .jsr 0x0040,
    .issue 3, .ldA (.long 0xBEEF false)] : List LkInstr).map some ∧
  [0x0005, 0x0106, 0x0700, 0x2000, 0x3001, 0x3800, 0xC020, 0xCA00, 0xD900, 0xE001, 0xE404, 0xE700, 0xF000, 0xFFFF].map
    (fun w => lkDecode w 0) = List.replicate 14 none
end

