-- ==== Sys2Proof/Laws/Tables.lean ====
section
/-!
SUPPORT. Laws of the tables that hold the machine's arrays: reading after writing, and the canonical form.
-/
namespace Sys2Proof.Machine

theorem lookupKey_insertKey_same {α : Type} (k : Nat) (v : α) (m : SMap α) : lookupKey k (insertKey k v m) = some v := by
  induction m with
  | nil => simp [insertKey, lookupKey]
  | cons e m ih =>
    obtain ⟨i, w⟩ := e
    simp only [insertKey]
    split
    · simp [lookupKey]
    · split
      · simp [lookupKey]
      · simp [lookupKey, *]

theorem lookupKey_insertKey_other {α : Type} {j k : Nat} (h : j ≠ k) (v : α) (m : SMap α) :
    lookupKey j (insertKey k v m) = lookupKey j m := by
  induction m with
  | nil => simp [insertKey, lookupKey, Ne.symm h]
  | cons e m ih =>
    obtain ⟨i, w⟩ := e
    simp only [insertKey]
    split
    · simp [lookupKey, Ne.symm h]
    · split
      · subst_vars; simp [lookupKey, Ne.symm h]
      · simp [lookupKey, ih]

theorem lookupKey_none_of_rising {α : Type} {lo k : Nat} {m : SMap α} (h : risingFrom lo m = true) (hk : k < lo) :
    lookupKey k m = none := by
  induction m generalizing lo with
  | nil => rfl
  | cons e m ih =>
    obtain ⟨i, w⟩ := e
    simp only [risingFrom, Bool.and_eq_true, decide_eq_true_eq] at h
    have : i ≠ k := by omega
    simp only [lookupKey, this, if_false]
    exact ih h.2 (by omega)

theorem lookupKey_dropKey_same {α : Type} (k : Nat) (m : SMap α) : lookupKey k (dropKey k m) = none := by
  induction m with
  | nil => rfl
  | cons e m ih =>
    obtain ⟨i, w⟩ := e
    simp only [dropKey]
    split
    · exact ih
    · simp only [lookupKey, *, if_false]

theorem lookupKey_dropKey_other {α : Type} {j k : Nat} (h : j ≠ k) (m : SMap α) : lookupKey j (dropKey k m) = lookupKey j m := by
  induction m with
  | nil => rfl
  | cons e m ih =>
    obtain ⟨i, w⟩ := e
    simp only [dropKey]
    split
    · subst_vars; simp [lookupKey, Ne.symm h, ih]
    · simp [lookupKey, ih]

/-- Reading what was written. -/
@[simp] theorem getKey_setKey_same {α : Type} [DecidableEq α] (d : α) (m : SMap α) (k : Nat) (v : α) :
    getKey d (setKey d m k v) k = v := by
  by_cases hv : v = d
  · simp [setKey, getKey, hv, lookupKey_dropKey_same k m]
  · simp [setKey, getKey, hv, lookupKey_insertKey_same]

theorem getKey_setKey_other {α : Type} [DecidableEq α] {d e : α} {m : SMap α} {j k : Nat} (h : j ≠ k) (v : α) :
    getKey e (setKey d m k v) j = getKey e m j := by
  by_cases hv : v = d
  · simp [setKey, getKey, hv, lookupKey_dropKey_other h]
  · simp [setKey, getKey, hv, lookupKey_insertKey_other h]

theorem risingFrom_mono {α : Type} {lo lo' : Nat} (hl : lo' ≤ lo) {m : SMap α} (h : risingFrom lo m = true) :
    risingFrom lo' m = true := by
  cases m with
  | nil => rfl
  | cons e m =>
    obtain ⟨i, w⟩ := e
    simp only [risingFrom, Bool.and_eq_true, decide_eq_true_eq] at h ⊢
    exact ⟨by omega, h.2⟩

theorem risingFrom_dropKey {α : Type} {lo : Nat} (k : Nat) {m : SMap α} (h : risingFrom lo m = true) :
    risingFrom lo (dropKey k m) = true := by
  induction m generalizing lo with
  | nil => rfl
  | cons e m ih =>
    obtain ⟨i, w⟩ := e
    simp only [risingFrom, Bool.and_eq_true, decide_eq_true_eq] at h
    simp only [dropKey]
    split
    · exact ih (risingFrom_mono (by omega) h.2)
    · simp only [risingFrom, Bool.and_eq_true, decide_eq_true_eq]; exact ⟨h.1, ih h.2⟩

theorem risingFrom_insertKey {α : Type} {lo k : Nat} (hk : lo ≤ k) (v : α) {m : SMap α} (h : risingFrom lo m = true) :
    risingFrom lo (insertKey k v m) = true := by
  induction m generalizing lo with
  | nil => simp [insertKey, risingFrom, hk]
  | cons e m ih =>
    obtain ⟨i, w⟩ := e
    simp only [risingFrom, Bool.and_eq_true, decide_eq_true_eq] at h
    simp only [insertKey]
    split
    · simp only [risingFrom, Bool.and_eq_true, decide_eq_true_eq]; exact ⟨hk, by omega, h.2⟩
    · split
      · subst_vars; simp only [risingFrom, Bool.and_eq_true, decide_eq_true_eq]; exact ⟨hk, h.2⟩
      · simp only [risingFrom, Bool.and_eq_true, decide_eq_true_eq]; exact ⟨h.1, ih (by omega) h.2⟩

theorem all_dropKey {α : Type} {p : Nat × α → Bool} (k : Nat) {m : SMap α} (h : m.all p = true) : (dropKey k m).all p = true := by
  induction m with
  | nil => rfl
  | cons e m ih =>
    obtain ⟨i, w⟩ := e
    simp only [List.all_cons, Bool.and_eq_true] at h
    simp only [dropKey]
    split
    · exact ih h.2
    · simp only [List.all_cons, Bool.and_eq_true]; exact ⟨h.1, ih h.2⟩

theorem all_insertKey {α : Type} {p : Nat × α → Bool} {k : Nat} {v : α} (hv : p (k, v) = true) {m : SMap α} (h : m.all p = true) :
    (insertKey k v m).all p = true := by
  induction m with
  | nil => simp [insertKey, hv]
  | cons e m ih =>
    obtain ⟨i, w⟩ := e
    simp only [List.all_cons, Bool.and_eq_true] at h
    simp only [insertKey]
    split
    · simp only [List.all_cons, Bool.and_eq_true]; exact ⟨hv, h.1, h.2⟩
    · split
      · simp only [List.all_cons, Bool.and_eq_true]; exact ⟨hv, h.2⟩
      · simp only [List.all_cons, Bool.and_eq_true]; exact ⟨h.1, ih h.2⟩

/-- Writing keeps the canonical form. -/
theorem tableWf_setKey {α : Type} [DecidableEq α] {d : α} {m : SMap α} (h : tableWf d m = true) (k : Nat) (v : α) :
    tableWf d (setKey d m k v) = true := by
  simp only [tableWf, Bool.and_eq_true] at h ⊢
  by_cases hv : v = d
  · simp only [setKey, hv, if_true]; exact ⟨risingFrom_dropKey k h.1, all_dropKey k h.2⟩
  · simp only [setKey, hv, if_false]
    exact ⟨risingFrom_insertKey (Nat.zero_le k) v h.1, all_insertKey (by simp [hv]) h.2⟩

end Sys2Proof.Machine
end

