-- ==== Sys2Proof/Laws/State.lean ====
section
/-!
SUPPORT. Each update of the state leaves every other field as it is: one lemma for each field of each update.
-/
namespace Sys2Proof.Machine

variable (s : State)

/-! ### State.setReg -/

@[simp] theorem State.setReg_pending (r : RegId) (v : W32) (i j : Nat) : (s.setReg r v i j).pending = s.pending := rfl
@[simp] theorem State.setReg_free (r : RegId) (v : W32) (i j : Nat) : (s.setReg r v i j).free = s.free := rfl
@[simp] theorem State.setReg_port (r : RegId) (v : W32) (i j : Nat) : (s.setReg r v i j).port = s.port := rfl
@[simp] theorem State.setReg_pins (r : RegId) (v : W32) (i j : Nat) : (s.setReg r v i j).pins = s.pins := rfl
@[simp] theorem State.setReg_reqs (r : RegId) (v : W32) (i j : Nat) : (s.setReg r v i j).reqs = s.reqs := rfl
@[simp] theorem State.setReg_tows (r : RegId) (v : W32) (i j : Nat) : (s.setReg r v i j).tows = s.tows := rfl
@[simp] theorem State.setReg_cu (r : RegId) (v : W32) (i j : Nat) : (s.setReg r v i j).cu = s.cu := rfl
@[simp] theorem State.setReg_nextReq (r : RegId) (v : W32) (i j : Nat) : (s.setReg r v i j).nextReq = s.nextReq := rfl
@[simp] theorem State.setReg_nextTow (r : RegId) (v : W32) (i j : Nat) : (s.setReg r v i j).nextTow = s.nextTow := rfl
@[simp] theorem State.setReg_nextSeq (r : RegId) (v : W32) (i j : Nat) : (s.setReg r v i j).nextSeq = s.nextSeq := rfl
@[simp] theorem State.setReg_reads (r : RegId) (v : W32) (i j : Nat) : (s.setReg r v i j).reads = s.reads := rfl
@[simp] theorem State.setReg_writes (r : RegId) (v : W32) (i j : Nat) : (s.setReg r v i j).writes = s.writes := rfl
@[simp] theorem State.setReg_irqs (r : RegId) (v : W32) (i j : Nat) : (s.setReg r v i j).irqs = s.irqs := rfl
@[simp] theorem State.setReg_coal (r : RegId) (v : W32) (i j : Nat) : (s.setReg r v i j).coal = s.coal := rfl
@[simp] theorem State.setReg_inPlaceDone (r : RegId) (v : W32) (i j : Nat) : (s.setReg r v i j).inPlaceDone = s.inPlaceDone := rfl
@[simp] theorem State.setReg_retries (r : RegId) (v : W32) (i j : Nat) : (s.setReg r v i j).retries = s.retries := rfl
@[simp] theorem State.setReg_chainRun (r : RegId) (v : W32) (i j : Nat) : (s.setReg r v i j).chainRun = s.chainRun := rfl
@[simp] theorem State.setReg_fetchNext (r : RegId) (v : W32) (i j : Nat) : (s.setReg r v i j).fetchNext = s.fetchNext := rfl
@[simp] theorem State.setReg_sched (r : RegId) (v : W32) (i j : Nat) : (s.setReg r v i j).sched = s.sched := rfl
@[simp] theorem State.setReg_basin (r : RegId) (v : W32) (i j : Nat) : (s.setReg r v i j).basin = s.basin := rfl
@[simp] theorem State.setReg_flt (r : RegId) (v : W32) (i j : Nat) : (s.setReg r v i j).flt = s.flt := rfl
@[simp] theorem State.setReg_toContain (r : RegId) (v : W32) (i j : Nat) : (s.setReg r v i j).toContain = s.toContain := rfl
@[simp] theorem State.setReg_flushEnded (r : RegId) (v : W32) (i j : Nat) : (s.setReg r v i j).flushEnded = s.flushEnded := rfl
@[simp] theorem State.setReg_lks (r : RegId) (v : W32) (i j : Nat) : (s.setReg r v i j).lks = s.lks := rfl
@[simp] theorem State.setReg_keys (r : RegId) (v : W32) (i j : Nat) : (s.setReg r v i j).keys = s.keys := rfl
@[simp] theorem State.setReg_staging (r : RegId) (v : W32) (i j : Nat) : (s.setReg r v i j).staging = s.staging := rfl
@[simp] theorem State.setReg_berths (r : RegId) (v : W32) (i j : Nat) : (s.setReg r v i j).berths = s.berths := rfl
@[simp] theorem State.setReg_berthGens (r : RegId) (v : W32) (i j : Nat) : (s.setReg r v i j).berthGens = s.berthGens := rfl
@[simp] theorem State.setReg_seals (r : RegId) (v : W32) (i j : Nat) : (s.setReg r v i j).seals = s.seals := rfl
@[simp] theorem State.setReg_roundKeys (r : RegId) (v : W32) (i j : Nat) : (s.setReg r v i j).roundKeys = s.roundKeys := rfl
@[simp] theorem State.setReg_hbs (r : RegId) (v : W32) (i j : Nat) : (s.setReg r v i j).hbs = s.hbs := rfl
@[simp] theorem State.setReg_ckc (r : RegId) (v : W32) (i j : Nat) : (s.setReg r v i j).ckc = s.ckc := rfl
@[simp] theorem State.setReg_keep (r : RegId) (v : W32) (i j : Nat) : (s.setReg r v i j).keep = s.keep := rfl
@[simp] theorem State.setReg_tableGen (r : RegId) (v : W32) (i j : Nat) : (s.setReg r v i j).tableGen = s.tableGen := rfl
@[simp] theorem State.setReg_otp (r : RegId) (v : W32) (i j : Nat) : (s.setReg r v i j).otp = s.otp := rfl
@[simp] theorem State.setReg_otpJobs (r : RegId) (v : W32) (i j : Nat) : (s.setReg r v i j).otpJobs = s.otpJobs := rfl
@[simp] theorem State.setReg_outMarks (r : RegId) (v : W32) (i j : Nat) : (s.setReg r v i j).outMarks = s.outMarks := rfl
@[simp] theorem State.setReg_rng (r : RegId) (v : W32) (i j : Nat) : (s.setReg r v i j).rng = s.rng := rfl
@[simp] theorem State.setReg_power (r : RegId) (v : W32) (i j : Nat) : (s.setReg r v i j).power = s.power := rfl
@[simp] theorem State.setReg_life (r : RegId) (v : W32) (i j : Nat) : (s.setReg r v i j).life = s.life := rfl
@[simp] theorem State.setReg_plys (r : RegId) (v : W32) (i j : Nat) : (s.setReg r v i j).plys = s.plys := rfl
@[simp] theorem State.setReg_codWork (r : RegId) (v : W32) (i j : Nat) : (s.setReg r v i j).codWork = s.codWork := rfl
@[simp] theorem State.setReg_operands (r : RegId) (v : W32) (i j : Nat) : (s.setReg r v i j).operands = s.operands := rfl
@[simp] theorem State.setReg_curves (r : RegId) (v : W32) (i j : Nat) : (s.setReg r v i j).curves = s.curves := rfl
@[simp] theorem State.setReg_boot (r : RegId) (v : W32) (i j : Nat) : (s.setReg r v i j).boot = s.boot := rfl
@[simp] theorem State.setReg_resets (r : RegId) (v : W32) (i j : Nat) : (s.setReg r v i j).resets = s.resets := rfl
@[simp] theorem State.setReg_tamper (r : RegId) (v : W32) (i j : Nat) : (s.setReg r v i j).tamper = s.tamper := rfl
@[simp] theorem State.setReg_limits (r : RegId) (v : W32) (i j : Nat) : (s.setReg r v i j).limits = s.limits := rfl

/-! ### State.store -/

/-- A write by the field types touches registers and the collector's parity marks alone. -/
theorem State.store_eq (x : RegRef) (d : W32) : ∃ r f, s.store x d = { s with regs := r, flt := f } := by
  unfold State.store State.storeMasked
  dsimp only
  split
  all_goals split <;> exact ⟨_, _, rfl⟩

@[simp] theorem State.store_pending (x : RegRef) (d : W32) : (s.store x d).pending = s.pending := by obtain ⟨r, f, h⟩ := s.store_eq x d; rw [h]
@[simp] theorem State.store_free (x : RegRef) (d : W32) : (s.store x d).free = s.free := by obtain ⟨r, f, h⟩ := s.store_eq x d; rw [h]
@[simp] theorem State.store_port (x : RegRef) (d : W32) : (s.store x d).port = s.port := by obtain ⟨r, f, h⟩ := s.store_eq x d; rw [h]
@[simp] theorem State.store_pins (x : RegRef) (d : W32) : (s.store x d).pins = s.pins := by obtain ⟨r, f, h⟩ := s.store_eq x d; rw [h]
@[simp] theorem State.store_reqs (x : RegRef) (d : W32) : (s.store x d).reqs = s.reqs := by obtain ⟨r, f, h⟩ := s.store_eq x d; rw [h]
@[simp] theorem State.store_tows (x : RegRef) (d : W32) : (s.store x d).tows = s.tows := by obtain ⟨r, f, h⟩ := s.store_eq x d; rw [h]
@[simp] theorem State.store_cu (x : RegRef) (d : W32) : (s.store x d).cu = s.cu := by obtain ⟨r, f, h⟩ := s.store_eq x d; rw [h]
@[simp] theorem State.store_nextReq (x : RegRef) (d : W32) : (s.store x d).nextReq = s.nextReq := by obtain ⟨r, f, h⟩ := s.store_eq x d; rw [h]
@[simp] theorem State.store_nextTow (x : RegRef) (d : W32) : (s.store x d).nextTow = s.nextTow := by obtain ⟨r, f, h⟩ := s.store_eq x d; rw [h]
@[simp] theorem State.store_nextSeq (x : RegRef) (d : W32) : (s.store x d).nextSeq = s.nextSeq := by obtain ⟨r, f, h⟩ := s.store_eq x d; rw [h]
@[simp] theorem State.store_reads (x : RegRef) (d : W32) : (s.store x d).reads = s.reads := by obtain ⟨r, f, h⟩ := s.store_eq x d; rw [h]
@[simp] theorem State.store_writes (x : RegRef) (d : W32) : (s.store x d).writes = s.writes := by obtain ⟨r, f, h⟩ := s.store_eq x d; rw [h]
@[simp] theorem State.store_irqs (x : RegRef) (d : W32) : (s.store x d).irqs = s.irqs := by obtain ⟨r, f, h⟩ := s.store_eq x d; rw [h]
@[simp] theorem State.store_coal (x : RegRef) (d : W32) : (s.store x d).coal = s.coal := by obtain ⟨r, f, h⟩ := s.store_eq x d; rw [h]
@[simp] theorem State.store_inPlaceDone (x : RegRef) (d : W32) : (s.store x d).inPlaceDone = s.inPlaceDone := by obtain ⟨r, f, h⟩ := s.store_eq x d; rw [h]
@[simp] theorem State.store_retries (x : RegRef) (d : W32) : (s.store x d).retries = s.retries := by obtain ⟨r, f, h⟩ := s.store_eq x d; rw [h]
@[simp] theorem State.store_chainRun (x : RegRef) (d : W32) : (s.store x d).chainRun = s.chainRun := by obtain ⟨r, f, h⟩ := s.store_eq x d; rw [h]
@[simp] theorem State.store_fetchNext (x : RegRef) (d : W32) : (s.store x d).fetchNext = s.fetchNext := by obtain ⟨r, f, h⟩ := s.store_eq x d; rw [h]
@[simp] theorem State.store_sched (x : RegRef) (d : W32) : (s.store x d).sched = s.sched := by obtain ⟨r, f, h⟩ := s.store_eq x d; rw [h]
@[simp] theorem State.store_basin (x : RegRef) (d : W32) : (s.store x d).basin = s.basin := by obtain ⟨r, f, h⟩ := s.store_eq x d; rw [h]
@[simp] theorem State.store_toContain (x : RegRef) (d : W32) : (s.store x d).toContain = s.toContain := by obtain ⟨r, f, h⟩ := s.store_eq x d; rw [h]
@[simp] theorem State.store_flushEnded (x : RegRef) (d : W32) : (s.store x d).flushEnded = s.flushEnded := by obtain ⟨r, f, h⟩ := s.store_eq x d; rw [h]
@[simp] theorem State.store_lks (x : RegRef) (d : W32) : (s.store x d).lks = s.lks := by obtain ⟨r, f, h⟩ := s.store_eq x d; rw [h]
@[simp] theorem State.store_keys (x : RegRef) (d : W32) : (s.store x d).keys = s.keys := by obtain ⟨r, f, h⟩ := s.store_eq x d; rw [h]
@[simp] theorem State.store_staging (x : RegRef) (d : W32) : (s.store x d).staging = s.staging := by obtain ⟨r, f, h⟩ := s.store_eq x d; rw [h]
@[simp] theorem State.store_berths (x : RegRef) (d : W32) : (s.store x d).berths = s.berths := by obtain ⟨r, f, h⟩ := s.store_eq x d; rw [h]
@[simp] theorem State.store_berthGens (x : RegRef) (d : W32) : (s.store x d).berthGens = s.berthGens := by obtain ⟨r, f, h⟩ := s.store_eq x d; rw [h]
@[simp] theorem State.store_seals (x : RegRef) (d : W32) : (s.store x d).seals = s.seals := by obtain ⟨r, f, h⟩ := s.store_eq x d; rw [h]
@[simp] theorem State.store_roundKeys (x : RegRef) (d : W32) : (s.store x d).roundKeys = s.roundKeys := by obtain ⟨r, f, h⟩ := s.store_eq x d; rw [h]
@[simp] theorem State.store_hbs (x : RegRef) (d : W32) : (s.store x d).hbs = s.hbs := by obtain ⟨r, f, h⟩ := s.store_eq x d; rw [h]
@[simp] theorem State.store_ckc (x : RegRef) (d : W32) : (s.store x d).ckc = s.ckc := by obtain ⟨r, f, h⟩ := s.store_eq x d; rw [h]
@[simp] theorem State.store_keep (x : RegRef) (d : W32) : (s.store x d).keep = s.keep := by obtain ⟨r, f, h⟩ := s.store_eq x d; rw [h]
@[simp] theorem State.store_tableGen (x : RegRef) (d : W32) : (s.store x d).tableGen = s.tableGen := by obtain ⟨r, f, h⟩ := s.store_eq x d; rw [h]
@[simp] theorem State.store_otp (x : RegRef) (d : W32) : (s.store x d).otp = s.otp := by obtain ⟨r, f, h⟩ := s.store_eq x d; rw [h]
@[simp] theorem State.store_otpJobs (x : RegRef) (d : W32) : (s.store x d).otpJobs = s.otpJobs := by obtain ⟨r, f, h⟩ := s.store_eq x d; rw [h]
@[simp] theorem State.store_outMarks (x : RegRef) (d : W32) : (s.store x d).outMarks = s.outMarks := by obtain ⟨r, f, h⟩ := s.store_eq x d; rw [h]
@[simp] theorem State.store_rng (x : RegRef) (d : W32) : (s.store x d).rng = s.rng := by obtain ⟨r, f, h⟩ := s.store_eq x d; rw [h]
@[simp] theorem State.store_power (x : RegRef) (d : W32) : (s.store x d).power = s.power := by obtain ⟨r, f, h⟩ := s.store_eq x d; rw [h]
@[simp] theorem State.store_life (x : RegRef) (d : W32) : (s.store x d).life = s.life := by obtain ⟨r, f, h⟩ := s.store_eq x d; rw [h]
@[simp] theorem State.store_plys (x : RegRef) (d : W32) : (s.store x d).plys = s.plys := by obtain ⟨r, f, h⟩ := s.store_eq x d; rw [h]
@[simp] theorem State.store_codWork (x : RegRef) (d : W32) : (s.store x d).codWork = s.codWork := by obtain ⟨r, f, h⟩ := s.store_eq x d; rw [h]
@[simp] theorem State.store_operands (x : RegRef) (d : W32) : (s.store x d).operands = s.operands := by obtain ⟨r, f, h⟩ := s.store_eq x d; rw [h]
@[simp] theorem State.store_curves (x : RegRef) (d : W32) : (s.store x d).curves = s.curves := by obtain ⟨r, f, h⟩ := s.store_eq x d; rw [h]
@[simp] theorem State.store_boot (x : RegRef) (d : W32) : (s.store x d).boot = s.boot := by obtain ⟨r, f, h⟩ := s.store_eq x d; rw [h]
@[simp] theorem State.store_resets (x : RegRef) (d : W32) : (s.store x d).resets = s.resets := by obtain ⟨r, f, h⟩ := s.store_eq x d; rw [h]
@[simp] theorem State.store_tamper (x : RegRef) (d : W32) : (s.store x d).tamper = s.tamper := by obtain ⟨r, f, h⟩ := s.store_eq x d; rw [h]
@[simp] theorem State.store_limits (x : RegRef) (d : W32) : (s.store x d).limits = s.limits := by obtain ⟨r, f, h⟩ := s.store_eq x d; rw [h]
@[simp] theorem State.store_lk (x : RegRef) (d : W32) (n : Nat) : (s.store x d).lk n = s.lk n := by simp [State.lk]
@[simp] theorem State.store_domOn (x : RegRef) (d : W32) (n : Nat) : (s.store x d).domOn n = s.domOn n := by simp [State.domOn, State.domState]

/-! ### State.setF -/

@[simp] theorem State.setF_pending (r : RegId) (hi lo v i j : Nat) : (s.setF r hi lo v i j).pending = s.pending := rfl
@[simp] theorem State.setF_free (r : RegId) (hi lo v i j : Nat) : (s.setF r hi lo v i j).free = s.free := rfl
@[simp] theorem State.setF_port (r : RegId) (hi lo v i j : Nat) : (s.setF r hi lo v i j).port = s.port := rfl
@[simp] theorem State.setF_pins (r : RegId) (hi lo v i j : Nat) : (s.setF r hi lo v i j).pins = s.pins := rfl
@[simp] theorem State.setF_reqs (r : RegId) (hi lo v i j : Nat) : (s.setF r hi lo v i j).reqs = s.reqs := rfl
@[simp] theorem State.setF_tows (r : RegId) (hi lo v i j : Nat) : (s.setF r hi lo v i j).tows = s.tows := rfl
@[simp] theorem State.setF_cu (r : RegId) (hi lo v i j : Nat) : (s.setF r hi lo v i j).cu = s.cu := rfl
@[simp] theorem State.setF_nextReq (r : RegId) (hi lo v i j : Nat) : (s.setF r hi lo v i j).nextReq = s.nextReq := rfl
@[simp] theorem State.setF_nextTow (r : RegId) (hi lo v i j : Nat) : (s.setF r hi lo v i j).nextTow = s.nextTow := rfl
@[simp] theorem State.setF_nextSeq (r : RegId) (hi lo v i j : Nat) : (s.setF r hi lo v i j).nextSeq = s.nextSeq := rfl
@[simp] theorem State.setF_reads (r : RegId) (hi lo v i j : Nat) : (s.setF r hi lo v i j).reads = s.reads := rfl
@[simp] theorem State.setF_writes (r : RegId) (hi lo v i j : Nat) : (s.setF r hi lo v i j).writes = s.writes := rfl
@[simp] theorem State.setF_irqs (r : RegId) (hi lo v i j : Nat) : (s.setF r hi lo v i j).irqs = s.irqs := rfl
@[simp] theorem State.setF_coal (r : RegId) (hi lo v i j : Nat) : (s.setF r hi lo v i j).coal = s.coal := rfl
@[simp] theorem State.setF_inPlaceDone (r : RegId) (hi lo v i j : Nat) : (s.setF r hi lo v i j).inPlaceDone = s.inPlaceDone := rfl
@[simp] theorem State.setF_retries (r : RegId) (hi lo v i j : Nat) : (s.setF r hi lo v i j).retries = s.retries := rfl
@[simp] theorem State.setF_chainRun (r : RegId) (hi lo v i j : Nat) : (s.setF r hi lo v i j).chainRun = s.chainRun := rfl
@[simp] theorem State.setF_fetchNext (r : RegId) (hi lo v i j : Nat) : (s.setF r hi lo v i j).fetchNext = s.fetchNext := rfl
@[simp] theorem State.setF_sched (r : RegId) (hi lo v i j : Nat) : (s.setF r hi lo v i j).sched = s.sched := rfl
@[simp] theorem State.setF_basin (r : RegId) (hi lo v i j : Nat) : (s.setF r hi lo v i j).basin = s.basin := rfl
@[simp] theorem State.setF_flt (r : RegId) (hi lo v i j : Nat) : (s.setF r hi lo v i j).flt = s.flt := rfl
@[simp] theorem State.setF_toContain (r : RegId) (hi lo v i j : Nat) : (s.setF r hi lo v i j).toContain = s.toContain := rfl
@[simp] theorem State.setF_flushEnded (r : RegId) (hi lo v i j : Nat) : (s.setF r hi lo v i j).flushEnded = s.flushEnded := rfl
@[simp] theorem State.setF_lks (r : RegId) (hi lo v i j : Nat) : (s.setF r hi lo v i j).lks = s.lks := rfl
@[simp] theorem State.setF_keys (r : RegId) (hi lo v i j : Nat) : (s.setF r hi lo v i j).keys = s.keys := rfl
@[simp] theorem State.setF_staging (r : RegId) (hi lo v i j : Nat) : (s.setF r hi lo v i j).staging = s.staging := rfl
@[simp] theorem State.setF_berths (r : RegId) (hi lo v i j : Nat) : (s.setF r hi lo v i j).berths = s.berths := rfl
@[simp] theorem State.setF_berthGens (r : RegId) (hi lo v i j : Nat) : (s.setF r hi lo v i j).berthGens = s.berthGens := rfl
@[simp] theorem State.setF_seals (r : RegId) (hi lo v i j : Nat) : (s.setF r hi lo v i j).seals = s.seals := rfl
@[simp] theorem State.setF_roundKeys (r : RegId) (hi lo v i j : Nat) : (s.setF r hi lo v i j).roundKeys = s.roundKeys := rfl
@[simp] theorem State.setF_hbs (r : RegId) (hi lo v i j : Nat) : (s.setF r hi lo v i j).hbs = s.hbs := rfl
@[simp] theorem State.setF_ckc (r : RegId) (hi lo v i j : Nat) : (s.setF r hi lo v i j).ckc = s.ckc := rfl
@[simp] theorem State.setF_keep (r : RegId) (hi lo v i j : Nat) : (s.setF r hi lo v i j).keep = s.keep := rfl
@[simp] theorem State.setF_tableGen (r : RegId) (hi lo v i j : Nat) : (s.setF r hi lo v i j).tableGen = s.tableGen := rfl
@[simp] theorem State.setF_otp (r : RegId) (hi lo v i j : Nat) : (s.setF r hi lo v i j).otp = s.otp := rfl
@[simp] theorem State.setF_otpJobs (r : RegId) (hi lo v i j : Nat) : (s.setF r hi lo v i j).otpJobs = s.otpJobs := rfl
@[simp] theorem State.setF_outMarks (r : RegId) (hi lo v i j : Nat) : (s.setF r hi lo v i j).outMarks = s.outMarks := rfl
@[simp] theorem State.setF_rng (r : RegId) (hi lo v i j : Nat) : (s.setF r hi lo v i j).rng = s.rng := rfl
@[simp] theorem State.setF_power (r : RegId) (hi lo v i j : Nat) : (s.setF r hi lo v i j).power = s.power := rfl
@[simp] theorem State.setF_life (r : RegId) (hi lo v i j : Nat) : (s.setF r hi lo v i j).life = s.life := rfl
@[simp] theorem State.setF_plys (r : RegId) (hi lo v i j : Nat) : (s.setF r hi lo v i j).plys = s.plys := rfl
@[simp] theorem State.setF_codWork (r : RegId) (hi lo v i j : Nat) : (s.setF r hi lo v i j).codWork = s.codWork := rfl
@[simp] theorem State.setF_operands (r : RegId) (hi lo v i j : Nat) : (s.setF r hi lo v i j).operands = s.operands := rfl
@[simp] theorem State.setF_curves (r : RegId) (hi lo v i j : Nat) : (s.setF r hi lo v i j).curves = s.curves := rfl
@[simp] theorem State.setF_boot (r : RegId) (hi lo v i j : Nat) : (s.setF r hi lo v i j).boot = s.boot := rfl
@[simp] theorem State.setF_resets (r : RegId) (hi lo v i j : Nat) : (s.setF r hi lo v i j).resets = s.resets := rfl
@[simp] theorem State.setF_tamper (r : RegId) (hi lo v i j : Nat) : (s.setF r hi lo v i j).tamper = s.tamper := rfl
@[simp] theorem State.setF_limits (r : RegId) (hi lo v i j : Nat) : (s.setF r hi lo v i j).limits = s.limits := rfl

/-! ### State.setB -/

@[simp] theorem State.setB_pending (r : RegId) (b : Nat) (v : Bool) (i j : Nat) : (s.setB r b v i j).pending = s.pending := rfl
@[simp] theorem State.setB_free (r : RegId) (b : Nat) (v : Bool) (i j : Nat) : (s.setB r b v i j).free = s.free := rfl
@[simp] theorem State.setB_port (r : RegId) (b : Nat) (v : Bool) (i j : Nat) : (s.setB r b v i j).port = s.port := rfl
@[simp] theorem State.setB_pins (r : RegId) (b : Nat) (v : Bool) (i j : Nat) : (s.setB r b v i j).pins = s.pins := rfl
@[simp] theorem State.setB_reqs (r : RegId) (b : Nat) (v : Bool) (i j : Nat) : (s.setB r b v i j).reqs = s.reqs := rfl
@[simp] theorem State.setB_tows (r : RegId) (b : Nat) (v : Bool) (i j : Nat) : (s.setB r b v i j).tows = s.tows := rfl
@[simp] theorem State.setB_cu (r : RegId) (b : Nat) (v : Bool) (i j : Nat) : (s.setB r b v i j).cu = s.cu := rfl
@[simp] theorem State.setB_nextReq (r : RegId) (b : Nat) (v : Bool) (i j : Nat) : (s.setB r b v i j).nextReq = s.nextReq := rfl
@[simp] theorem State.setB_nextTow (r : RegId) (b : Nat) (v : Bool) (i j : Nat) : (s.setB r b v i j).nextTow = s.nextTow := rfl
@[simp] theorem State.setB_nextSeq (r : RegId) (b : Nat) (v : Bool) (i j : Nat) : (s.setB r b v i j).nextSeq = s.nextSeq := rfl
@[simp] theorem State.setB_reads (r : RegId) (b : Nat) (v : Bool) (i j : Nat) : (s.setB r b v i j).reads = s.reads := rfl
@[simp] theorem State.setB_writes (r : RegId) (b : Nat) (v : Bool) (i j : Nat) : (s.setB r b v i j).writes = s.writes := rfl
@[simp] theorem State.setB_irqs (r : RegId) (b : Nat) (v : Bool) (i j : Nat) : (s.setB r b v i j).irqs = s.irqs := rfl
@[simp] theorem State.setB_coal (r : RegId) (b : Nat) (v : Bool) (i j : Nat) : (s.setB r b v i j).coal = s.coal := rfl
@[simp] theorem State.setB_inPlaceDone (r : RegId) (b : Nat) (v : Bool) (i j : Nat) : (s.setB r b v i j).inPlaceDone = s.inPlaceDone := rfl
@[simp] theorem State.setB_retries (r : RegId) (b : Nat) (v : Bool) (i j : Nat) : (s.setB r b v i j).retries = s.retries := rfl
@[simp] theorem State.setB_chainRun (r : RegId) (b : Nat) (v : Bool) (i j : Nat) : (s.setB r b v i j).chainRun = s.chainRun := rfl
@[simp] theorem State.setB_fetchNext (r : RegId) (b : Nat) (v : Bool) (i j : Nat) : (s.setB r b v i j).fetchNext = s.fetchNext := rfl
@[simp] theorem State.setB_sched (r : RegId) (b : Nat) (v : Bool) (i j : Nat) : (s.setB r b v i j).sched = s.sched := rfl
@[simp] theorem State.setB_basin (r : RegId) (b : Nat) (v : Bool) (i j : Nat) : (s.setB r b v i j).basin = s.basin := rfl
@[simp] theorem State.setB_flt (r : RegId) (b : Nat) (v : Bool) (i j : Nat) : (s.setB r b v i j).flt = s.flt := rfl
@[simp] theorem State.setB_toContain (r : RegId) (b : Nat) (v : Bool) (i j : Nat) : (s.setB r b v i j).toContain = s.toContain := rfl
@[simp] theorem State.setB_flushEnded (r : RegId) (b : Nat) (v : Bool) (i j : Nat) : (s.setB r b v i j).flushEnded = s.flushEnded := rfl
@[simp] theorem State.setB_lks (r : RegId) (b : Nat) (v : Bool) (i j : Nat) : (s.setB r b v i j).lks = s.lks := rfl
@[simp] theorem State.setB_keys (r : RegId) (b : Nat) (v : Bool) (i j : Nat) : (s.setB r b v i j).keys = s.keys := rfl
@[simp] theorem State.setB_staging (r : RegId) (b : Nat) (v : Bool) (i j : Nat) : (s.setB r b v i j).staging = s.staging := rfl
@[simp] theorem State.setB_berths (r : RegId) (b : Nat) (v : Bool) (i j : Nat) : (s.setB r b v i j).berths = s.berths := rfl
@[simp] theorem State.setB_berthGens (r : RegId) (b : Nat) (v : Bool) (i j : Nat) : (s.setB r b v i j).berthGens = s.berthGens := rfl
@[simp] theorem State.setB_seals (r : RegId) (b : Nat) (v : Bool) (i j : Nat) : (s.setB r b v i j).seals = s.seals := rfl
@[simp] theorem State.setB_roundKeys (r : RegId) (b : Nat) (v : Bool) (i j : Nat) : (s.setB r b v i j).roundKeys = s.roundKeys := rfl
@[simp] theorem State.setB_hbs (r : RegId) (b : Nat) (v : Bool) (i j : Nat) : (s.setB r b v i j).hbs = s.hbs := rfl
@[simp] theorem State.setB_ckc (r : RegId) (b : Nat) (v : Bool) (i j : Nat) : (s.setB r b v i j).ckc = s.ckc := rfl
@[simp] theorem State.setB_keep (r : RegId) (b : Nat) (v : Bool) (i j : Nat) : (s.setB r b v i j).keep = s.keep := rfl
@[simp] theorem State.setB_tableGen (r : RegId) (b : Nat) (v : Bool) (i j : Nat) : (s.setB r b v i j).tableGen = s.tableGen := rfl
@[simp] theorem State.setB_otp (r : RegId) (b : Nat) (v : Bool) (i j : Nat) : (s.setB r b v i j).otp = s.otp := rfl
@[simp] theorem State.setB_otpJobs (r : RegId) (b : Nat) (v : Bool) (i j : Nat) : (s.setB r b v i j).otpJobs = s.otpJobs := rfl
@[simp] theorem State.setB_outMarks (r : RegId) (b : Nat) (v : Bool) (i j : Nat) : (s.setB r b v i j).outMarks = s.outMarks := rfl
@[simp] theorem State.setB_rng (r : RegId) (b : Nat) (v : Bool) (i j : Nat) : (s.setB r b v i j).rng = s.rng := rfl
@[simp] theorem State.setB_power (r : RegId) (b : Nat) (v : Bool) (i j : Nat) : (s.setB r b v i j).power = s.power := rfl
@[simp] theorem State.setB_life (r : RegId) (b : Nat) (v : Bool) (i j : Nat) : (s.setB r b v i j).life = s.life := rfl
@[simp] theorem State.setB_plys (r : RegId) (b : Nat) (v : Bool) (i j : Nat) : (s.setB r b v i j).plys = s.plys := rfl
@[simp] theorem State.setB_codWork (r : RegId) (b : Nat) (v : Bool) (i j : Nat) : (s.setB r b v i j).codWork = s.codWork := rfl
@[simp] theorem State.setB_operands (r : RegId) (b : Nat) (v : Bool) (i j : Nat) : (s.setB r b v i j).operands = s.operands := rfl
@[simp] theorem State.setB_curves (r : RegId) (b : Nat) (v : Bool) (i j : Nat) : (s.setB r b v i j).curves = s.curves := rfl
@[simp] theorem State.setB_boot (r : RegId) (b : Nat) (v : Bool) (i j : Nat) : (s.setB r b v i j).boot = s.boot := rfl
@[simp] theorem State.setB_resets (r : RegId) (b : Nat) (v : Bool) (i j : Nat) : (s.setB r b v i j).resets = s.resets := rfl
@[simp] theorem State.setB_tamper (r : RegId) (b : Nat) (v : Bool) (i j : Nat) : (s.setB r b v i j).tamper = s.tamper := rfl
@[simp] theorem State.setB_limits (r : RegId) (b : Nat) (v : Bool) (i j : Nat) : (s.setB r b v i j).limits = s.limits := rfl

/-! ### State.drawn -/

@[simp] theorem State.drawn_pending : (s.drawn).pending = s.pending := rfl
@[simp] theorem State.drawn_regs : (s.drawn).regs = s.regs := rfl
@[simp] theorem State.drawn_port : (s.drawn).port = s.port := rfl
@[simp] theorem State.drawn_pins : (s.drawn).pins = s.pins := rfl
@[simp] theorem State.drawn_reqs : (s.drawn).reqs = s.reqs := rfl
@[simp] theorem State.drawn_tows : (s.drawn).tows = s.tows := rfl
@[simp] theorem State.drawn_cu : (s.drawn).cu = s.cu := rfl
@[simp] theorem State.drawn_nextReq : (s.drawn).nextReq = s.nextReq := rfl
@[simp] theorem State.drawn_nextTow : (s.drawn).nextTow = s.nextTow := rfl
@[simp] theorem State.drawn_nextSeq : (s.drawn).nextSeq = s.nextSeq := rfl
@[simp] theorem State.drawn_reads : (s.drawn).reads = s.reads := rfl
@[simp] theorem State.drawn_writes : (s.drawn).writes = s.writes := rfl
@[simp] theorem State.drawn_irqs : (s.drawn).irqs = s.irqs := rfl
@[simp] theorem State.drawn_coal : (s.drawn).coal = s.coal := rfl
@[simp] theorem State.drawn_inPlaceDone : (s.drawn).inPlaceDone = s.inPlaceDone := rfl
@[simp] theorem State.drawn_retries : (s.drawn).retries = s.retries := rfl
@[simp] theorem State.drawn_chainRun : (s.drawn).chainRun = s.chainRun := rfl
@[simp] theorem State.drawn_fetchNext : (s.drawn).fetchNext = s.fetchNext := rfl
@[simp] theorem State.drawn_sched : (s.drawn).sched = s.sched := rfl
@[simp] theorem State.drawn_basin : (s.drawn).basin = s.basin := rfl
@[simp] theorem State.drawn_flt : (s.drawn).flt = s.flt := rfl
@[simp] theorem State.drawn_toContain : (s.drawn).toContain = s.toContain := rfl
@[simp] theorem State.drawn_flushEnded : (s.drawn).flushEnded = s.flushEnded := rfl
@[simp] theorem State.drawn_lks : (s.drawn).lks = s.lks := rfl
@[simp] theorem State.drawn_keys : (s.drawn).keys = s.keys := rfl
@[simp] theorem State.drawn_staging : (s.drawn).staging = s.staging := rfl
@[simp] theorem State.drawn_berths : (s.drawn).berths = s.berths := rfl
@[simp] theorem State.drawn_berthGens : (s.drawn).berthGens = s.berthGens := rfl
@[simp] theorem State.drawn_seals : (s.drawn).seals = s.seals := rfl
@[simp] theorem State.drawn_roundKeys : (s.drawn).roundKeys = s.roundKeys := rfl
@[simp] theorem State.drawn_hbs : (s.drawn).hbs = s.hbs := rfl
@[simp] theorem State.drawn_ckc : (s.drawn).ckc = s.ckc := rfl
@[simp] theorem State.drawn_keep : (s.drawn).keep = s.keep := rfl
@[simp] theorem State.drawn_tableGen : (s.drawn).tableGen = s.tableGen := rfl
@[simp] theorem State.drawn_otp : (s.drawn).otp = s.otp := rfl
@[simp] theorem State.drawn_otpJobs : (s.drawn).otpJobs = s.otpJobs := rfl
@[simp] theorem State.drawn_outMarks : (s.drawn).outMarks = s.outMarks := rfl
@[simp] theorem State.drawn_rng : (s.drawn).rng = s.rng := rfl
@[simp] theorem State.drawn_power : (s.drawn).power = s.power := rfl
@[simp] theorem State.drawn_life : (s.drawn).life = s.life := rfl
@[simp] theorem State.drawn_plys : (s.drawn).plys = s.plys := rfl
@[simp] theorem State.drawn_codWork : (s.drawn).codWork = s.codWork := rfl
@[simp] theorem State.drawn_operands : (s.drawn).operands = s.operands := rfl
@[simp] theorem State.drawn_curves : (s.drawn).curves = s.curves := rfl
@[simp] theorem State.drawn_boot : (s.drawn).boot = s.boot := rfl
@[simp] theorem State.drawn_resets : (s.drawn).resets = s.resets := rfl
@[simp] theorem State.drawn_tamper : (s.drawn).tamper = s.tamper := rfl
@[simp] theorem State.drawn_limits : (s.drawn).limits = s.limits := rfl

/-! ### State.updReq -/

@[simp] theorem State.updReq_pending (id : Nat) (f : Req → Req) : (s.updReq id f).pending = s.pending := rfl
@[simp] theorem State.updReq_free (id : Nat) (f : Req → Req) : (s.updReq id f).free = s.free := rfl
@[simp] theorem State.updReq_regs (id : Nat) (f : Req → Req) : (s.updReq id f).regs = s.regs := rfl
@[simp] theorem State.updReq_port (id : Nat) (f : Req → Req) : (s.updReq id f).port = s.port := rfl
@[simp] theorem State.updReq_pins (id : Nat) (f : Req → Req) : (s.updReq id f).pins = s.pins := rfl
@[simp] theorem State.updReq_tows (id : Nat) (f : Req → Req) : (s.updReq id f).tows = s.tows := rfl
@[simp] theorem State.updReq_cu (id : Nat) (f : Req → Req) : (s.updReq id f).cu = s.cu := rfl
@[simp] theorem State.updReq_nextReq (id : Nat) (f : Req → Req) : (s.updReq id f).nextReq = s.nextReq := rfl
@[simp] theorem State.updReq_nextTow (id : Nat) (f : Req → Req) : (s.updReq id f).nextTow = s.nextTow := rfl
@[simp] theorem State.updReq_nextSeq (id : Nat) (f : Req → Req) : (s.updReq id f).nextSeq = s.nextSeq := rfl
@[simp] theorem State.updReq_reads (id : Nat) (f : Req → Req) : (s.updReq id f).reads = s.reads := rfl
@[simp] theorem State.updReq_writes (id : Nat) (f : Req → Req) : (s.updReq id f).writes = s.writes := rfl
@[simp] theorem State.updReq_irqs (id : Nat) (f : Req → Req) : (s.updReq id f).irqs = s.irqs := rfl
@[simp] theorem State.updReq_coal (id : Nat) (f : Req → Req) : (s.updReq id f).coal = s.coal := rfl
@[simp] theorem State.updReq_inPlaceDone (id : Nat) (f : Req → Req) : (s.updReq id f).inPlaceDone = s.inPlaceDone := rfl
@[simp] theorem State.updReq_retries (id : Nat) (f : Req → Req) : (s.updReq id f).retries = s.retries := rfl
@[simp] theorem State.updReq_chainRun (id : Nat) (f : Req → Req) : (s.updReq id f).chainRun = s.chainRun := rfl
@[simp] theorem State.updReq_fetchNext (id : Nat) (f : Req → Req) : (s.updReq id f).fetchNext = s.fetchNext := rfl
@[simp] theorem State.updReq_sched (id : Nat) (f : Req → Req) : (s.updReq id f).sched = s.sched := rfl
@[simp] theorem State.updReq_basin (id : Nat) (f : Req → Req) : (s.updReq id f).basin = s.basin := rfl
@[simp] theorem State.updReq_flt (id : Nat) (f : Req → Req) : (s.updReq id f).flt = s.flt := rfl
@[simp] theorem State.updReq_toContain (id : Nat) (f : Req → Req) : (s.updReq id f).toContain = s.toContain := rfl
@[simp] theorem State.updReq_flushEnded (id : Nat) (f : Req → Req) : (s.updReq id f).flushEnded = s.flushEnded := rfl
@[simp] theorem State.updReq_lks (id : Nat) (f : Req → Req) : (s.updReq id f).lks = s.lks := rfl
@[simp] theorem State.updReq_keys (id : Nat) (f : Req → Req) : (s.updReq id f).keys = s.keys := rfl
@[simp] theorem State.updReq_staging (id : Nat) (f : Req → Req) : (s.updReq id f).staging = s.staging := rfl
@[simp] theorem State.updReq_berths (id : Nat) (f : Req → Req) : (s.updReq id f).berths = s.berths := rfl
@[simp] theorem State.updReq_berthGens (id : Nat) (f : Req → Req) : (s.updReq id f).berthGens = s.berthGens := rfl
@[simp] theorem State.updReq_seals (id : Nat) (f : Req → Req) : (s.updReq id f).seals = s.seals := rfl
@[simp] theorem State.updReq_roundKeys (id : Nat) (f : Req → Req) : (s.updReq id f).roundKeys = s.roundKeys := rfl
@[simp] theorem State.updReq_hbs (id : Nat) (f : Req → Req) : (s.updReq id f).hbs = s.hbs := rfl
@[simp] theorem State.updReq_ckc (id : Nat) (f : Req → Req) : (s.updReq id f).ckc = s.ckc := rfl
@[simp] theorem State.updReq_keep (id : Nat) (f : Req → Req) : (s.updReq id f).keep = s.keep := rfl
@[simp] theorem State.updReq_tableGen (id : Nat) (f : Req → Req) : (s.updReq id f).tableGen = s.tableGen := rfl
@[simp] theorem State.updReq_otp (id : Nat) (f : Req → Req) : (s.updReq id f).otp = s.otp := rfl
@[simp] theorem State.updReq_otpJobs (id : Nat) (f : Req → Req) : (s.updReq id f).otpJobs = s.otpJobs := rfl
@[simp] theorem State.updReq_outMarks (id : Nat) (f : Req → Req) : (s.updReq id f).outMarks = s.outMarks := rfl
@[simp] theorem State.updReq_rng (id : Nat) (f : Req → Req) : (s.updReq id f).rng = s.rng := rfl
@[simp] theorem State.updReq_power (id : Nat) (f : Req → Req) : (s.updReq id f).power = s.power := rfl
@[simp] theorem State.updReq_life (id : Nat) (f : Req → Req) : (s.updReq id f).life = s.life := rfl
@[simp] theorem State.updReq_plys (id : Nat) (f : Req → Req) : (s.updReq id f).plys = s.plys := rfl
@[simp] theorem State.updReq_codWork (id : Nat) (f : Req → Req) : (s.updReq id f).codWork = s.codWork := rfl
@[simp] theorem State.updReq_operands (id : Nat) (f : Req → Req) : (s.updReq id f).operands = s.operands := rfl
@[simp] theorem State.updReq_curves (id : Nat) (f : Req → Req) : (s.updReq id f).curves = s.curves := rfl
@[simp] theorem State.updReq_boot (id : Nat) (f : Req → Req) : (s.updReq id f).boot = s.boot := rfl
@[simp] theorem State.updReq_resets (id : Nat) (f : Req → Req) : (s.updReq id f).resets = s.resets := rfl
@[simp] theorem State.updReq_tamper (id : Nat) (f : Req → Req) : (s.updReq id f).tamper = s.tamper := rfl
@[simp] theorem State.updReq_limits (id : Nat) (f : Req → Req) : (s.updReq id f).limits = s.limits := rfl

/-! ### State.updTow -/

@[simp] theorem State.updTow_pending (id : Nat) (f : Tow → Tow) : (s.updTow id f).pending = s.pending := rfl
@[simp] theorem State.updTow_free (id : Nat) (f : Tow → Tow) : (s.updTow id f).free = s.free := rfl
@[simp] theorem State.updTow_regs (id : Nat) (f : Tow → Tow) : (s.updTow id f).regs = s.regs := rfl
@[simp] theorem State.updTow_port (id : Nat) (f : Tow → Tow) : (s.updTow id f).port = s.port := rfl
@[simp] theorem State.updTow_pins (id : Nat) (f : Tow → Tow) : (s.updTow id f).pins = s.pins := rfl
@[simp] theorem State.updTow_reqs (id : Nat) (f : Tow → Tow) : (s.updTow id f).reqs = s.reqs := rfl
@[simp] theorem State.updTow_cu (id : Nat) (f : Tow → Tow) : (s.updTow id f).cu = s.cu := rfl
@[simp] theorem State.updTow_nextReq (id : Nat) (f : Tow → Tow) : (s.updTow id f).nextReq = s.nextReq := rfl
@[simp] theorem State.updTow_nextTow (id : Nat) (f : Tow → Tow) : (s.updTow id f).nextTow = s.nextTow := rfl
@[simp] theorem State.updTow_nextSeq (id : Nat) (f : Tow → Tow) : (s.updTow id f).nextSeq = s.nextSeq := rfl
@[simp] theorem State.updTow_reads (id : Nat) (f : Tow → Tow) : (s.updTow id f).reads = s.reads := rfl
@[simp] theorem State.updTow_writes (id : Nat) (f : Tow → Tow) : (s.updTow id f).writes = s.writes := rfl
@[simp] theorem State.updTow_irqs (id : Nat) (f : Tow → Tow) : (s.updTow id f).irqs = s.irqs := rfl
@[simp] theorem State.updTow_coal (id : Nat) (f : Tow → Tow) : (s.updTow id f).coal = s.coal := rfl
@[simp] theorem State.updTow_inPlaceDone (id : Nat) (f : Tow → Tow) : (s.updTow id f).inPlaceDone = s.inPlaceDone := rfl
@[simp] theorem State.updTow_retries (id : Nat) (f : Tow → Tow) : (s.updTow id f).retries = s.retries := rfl
@[simp] theorem State.updTow_chainRun (id : Nat) (f : Tow → Tow) : (s.updTow id f).chainRun = s.chainRun := rfl
@[simp] theorem State.updTow_fetchNext (id : Nat) (f : Tow → Tow) : (s.updTow id f).fetchNext = s.fetchNext := rfl
@[simp] theorem State.updTow_sched (id : Nat) (f : Tow → Tow) : (s.updTow id f).sched = s.sched := rfl
@[simp] theorem State.updTow_basin (id : Nat) (f : Tow → Tow) : (s.updTow id f).basin = s.basin := rfl
@[simp] theorem State.updTow_flt (id : Nat) (f : Tow → Tow) : (s.updTow id f).flt = s.flt := rfl
@[simp] theorem State.updTow_toContain (id : Nat) (f : Tow → Tow) : (s.updTow id f).toContain = s.toContain := rfl
@[simp] theorem State.updTow_flushEnded (id : Nat) (f : Tow → Tow) : (s.updTow id f).flushEnded = s.flushEnded := rfl
@[simp] theorem State.updTow_lks (id : Nat) (f : Tow → Tow) : (s.updTow id f).lks = s.lks := rfl
@[simp] theorem State.updTow_keys (id : Nat) (f : Tow → Tow) : (s.updTow id f).keys = s.keys := rfl
@[simp] theorem State.updTow_staging (id : Nat) (f : Tow → Tow) : (s.updTow id f).staging = s.staging := rfl
@[simp] theorem State.updTow_berths (id : Nat) (f : Tow → Tow) : (s.updTow id f).berths = s.berths := rfl
@[simp] theorem State.updTow_berthGens (id : Nat) (f : Tow → Tow) : (s.updTow id f).berthGens = s.berthGens := rfl
@[simp] theorem State.updTow_seals (id : Nat) (f : Tow → Tow) : (s.updTow id f).seals = s.seals := rfl
@[simp] theorem State.updTow_roundKeys (id : Nat) (f : Tow → Tow) : (s.updTow id f).roundKeys = s.roundKeys := rfl
@[simp] theorem State.updTow_hbs (id : Nat) (f : Tow → Tow) : (s.updTow id f).hbs = s.hbs := rfl
@[simp] theorem State.updTow_ckc (id : Nat) (f : Tow → Tow) : (s.updTow id f).ckc = s.ckc := rfl
@[simp] theorem State.updTow_keep (id : Nat) (f : Tow → Tow) : (s.updTow id f).keep = s.keep := rfl
@[simp] theorem State.updTow_tableGen (id : Nat) (f : Tow → Tow) : (s.updTow id f).tableGen = s.tableGen := rfl
@[simp] theorem State.updTow_otp (id : Nat) (f : Tow → Tow) : (s.updTow id f).otp = s.otp := rfl
@[simp] theorem State.updTow_otpJobs (id : Nat) (f : Tow → Tow) : (s.updTow id f).otpJobs = s.otpJobs := rfl
@[simp] theorem State.updTow_outMarks (id : Nat) (f : Tow → Tow) : (s.updTow id f).outMarks = s.outMarks := rfl
@[simp] theorem State.updTow_rng (id : Nat) (f : Tow → Tow) : (s.updTow id f).rng = s.rng := rfl
@[simp] theorem State.updTow_power (id : Nat) (f : Tow → Tow) : (s.updTow id f).power = s.power := rfl
@[simp] theorem State.updTow_life (id : Nat) (f : Tow → Tow) : (s.updTow id f).life = s.life := rfl
@[simp] theorem State.updTow_plys (id : Nat) (f : Tow → Tow) : (s.updTow id f).plys = s.plys := rfl
@[simp] theorem State.updTow_codWork (id : Nat) (f : Tow → Tow) : (s.updTow id f).codWork = s.codWork := rfl
@[simp] theorem State.updTow_operands (id : Nat) (f : Tow → Tow) : (s.updTow id f).operands = s.operands := rfl
@[simp] theorem State.updTow_curves (id : Nat) (f : Tow → Tow) : (s.updTow id f).curves = s.curves := rfl
@[simp] theorem State.updTow_boot (id : Nat) (f : Tow → Tow) : (s.updTow id f).boot = s.boot := rfl
@[simp] theorem State.updTow_resets (id : Nat) (f : Tow → Tow) : (s.updTow id f).resets = s.resets := rfl
@[simp] theorem State.updTow_tamper (id : Nat) (f : Tow → Tow) : (s.updTow id f).tamper = s.tamper := rfl
@[simp] theorem State.updTow_limits (id : Nat) (f : Tow → Tow) : (s.updTow id f).limits = s.limits := rfl

/-! ### State.updLk -/

@[simp] theorem State.updLk_pending (n : Nat) (f : Lk → Lk) : (s.updLk n f).pending = s.pending := rfl
@[simp] theorem State.updLk_free (n : Nat) (f : Lk → Lk) : (s.updLk n f).free = s.free := rfl
@[simp] theorem State.updLk_regs (n : Nat) (f : Lk → Lk) : (s.updLk n f).regs = s.regs := rfl
@[simp] theorem State.updLk_port (n : Nat) (f : Lk → Lk) : (s.updLk n f).port = s.port := rfl
@[simp] theorem State.updLk_pins (n : Nat) (f : Lk → Lk) : (s.updLk n f).pins = s.pins := rfl
@[simp] theorem State.updLk_reqs (n : Nat) (f : Lk → Lk) : (s.updLk n f).reqs = s.reqs := rfl
@[simp] theorem State.updLk_tows (n : Nat) (f : Lk → Lk) : (s.updLk n f).tows = s.tows := rfl
@[simp] theorem State.updLk_cu (n : Nat) (f : Lk → Lk) : (s.updLk n f).cu = s.cu := rfl
@[simp] theorem State.updLk_nextReq (n : Nat) (f : Lk → Lk) : (s.updLk n f).nextReq = s.nextReq := rfl
@[simp] theorem State.updLk_nextTow (n : Nat) (f : Lk → Lk) : (s.updLk n f).nextTow = s.nextTow := rfl
@[simp] theorem State.updLk_nextSeq (n : Nat) (f : Lk → Lk) : (s.updLk n f).nextSeq = s.nextSeq := rfl
@[simp] theorem State.updLk_reads (n : Nat) (f : Lk → Lk) : (s.updLk n f).reads = s.reads := rfl
@[simp] theorem State.updLk_writes (n : Nat) (f : Lk → Lk) : (s.updLk n f).writes = s.writes := rfl
@[simp] theorem State.updLk_irqs (n : Nat) (f : Lk → Lk) : (s.updLk n f).irqs = s.irqs := rfl
@[simp] theorem State.updLk_coal (n : Nat) (f : Lk → Lk) : (s.updLk n f).coal = s.coal := rfl
@[simp] theorem State.updLk_inPlaceDone (n : Nat) (f : Lk → Lk) : (s.updLk n f).inPlaceDone = s.inPlaceDone := rfl
@[simp] theorem State.updLk_retries (n : Nat) (f : Lk → Lk) : (s.updLk n f).retries = s.retries := rfl
@[simp] theorem State.updLk_chainRun (n : Nat) (f : Lk → Lk) : (s.updLk n f).chainRun = s.chainRun := rfl
@[simp] theorem State.updLk_fetchNext (n : Nat) (f : Lk → Lk) : (s.updLk n f).fetchNext = s.fetchNext := rfl
@[simp] theorem State.updLk_sched (n : Nat) (f : Lk → Lk) : (s.updLk n f).sched = s.sched := rfl
@[simp] theorem State.updLk_basin (n : Nat) (f : Lk → Lk) : (s.updLk n f).basin = s.basin := rfl
@[simp] theorem State.updLk_flt (n : Nat) (f : Lk → Lk) : (s.updLk n f).flt = s.flt := rfl
@[simp] theorem State.updLk_toContain (n : Nat) (f : Lk → Lk) : (s.updLk n f).toContain = s.toContain := rfl
@[simp] theorem State.updLk_flushEnded (n : Nat) (f : Lk → Lk) : (s.updLk n f).flushEnded = s.flushEnded := rfl
@[simp] theorem State.updLk_keys (n : Nat) (f : Lk → Lk) : (s.updLk n f).keys = s.keys := rfl
@[simp] theorem State.updLk_staging (n : Nat) (f : Lk → Lk) : (s.updLk n f).staging = s.staging := rfl
@[simp] theorem State.updLk_berths (n : Nat) (f : Lk → Lk) : (s.updLk n f).berths = s.berths := rfl
@[simp] theorem State.updLk_berthGens (n : Nat) (f : Lk → Lk) : (s.updLk n f).berthGens = s.berthGens := rfl
@[simp] theorem State.updLk_seals (n : Nat) (f : Lk → Lk) : (s.updLk n f).seals = s.seals := rfl
@[simp] theorem State.updLk_roundKeys (n : Nat) (f : Lk → Lk) : (s.updLk n f).roundKeys = s.roundKeys := rfl
@[simp] theorem State.updLk_hbs (n : Nat) (f : Lk → Lk) : (s.updLk n f).hbs = s.hbs := rfl
@[simp] theorem State.updLk_ckc (n : Nat) (f : Lk → Lk) : (s.updLk n f).ckc = s.ckc := rfl
@[simp] theorem State.updLk_keep (n : Nat) (f : Lk → Lk) : (s.updLk n f).keep = s.keep := rfl
@[simp] theorem State.updLk_tableGen (n : Nat) (f : Lk → Lk) : (s.updLk n f).tableGen = s.tableGen := rfl
@[simp] theorem State.updLk_otp (n : Nat) (f : Lk → Lk) : (s.updLk n f).otp = s.otp := rfl
@[simp] theorem State.updLk_otpJobs (n : Nat) (f : Lk → Lk) : (s.updLk n f).otpJobs = s.otpJobs := rfl
@[simp] theorem State.updLk_outMarks (n : Nat) (f : Lk → Lk) : (s.updLk n f).outMarks = s.outMarks := rfl
@[simp] theorem State.updLk_rng (n : Nat) (f : Lk → Lk) : (s.updLk n f).rng = s.rng := rfl
@[simp] theorem State.updLk_power (n : Nat) (f : Lk → Lk) : (s.updLk n f).power = s.power := rfl
@[simp] theorem State.updLk_life (n : Nat) (f : Lk → Lk) : (s.updLk n f).life = s.life := rfl
@[simp] theorem State.updLk_plys (n : Nat) (f : Lk → Lk) : (s.updLk n f).plys = s.plys := rfl
@[simp] theorem State.updLk_codWork (n : Nat) (f : Lk → Lk) : (s.updLk n f).codWork = s.codWork := rfl
@[simp] theorem State.updLk_operands (n : Nat) (f : Lk → Lk) : (s.updLk n f).operands = s.operands := rfl
@[simp] theorem State.updLk_curves (n : Nat) (f : Lk → Lk) : (s.updLk n f).curves = s.curves := rfl
@[simp] theorem State.updLk_boot (n : Nat) (f : Lk → Lk) : (s.updLk n f).boot = s.boot := rfl
@[simp] theorem State.updLk_resets (n : Nat) (f : Lk → Lk) : (s.updLk n f).resets = s.resets := rfl
@[simp] theorem State.updLk_tamper (n : Nat) (f : Lk → Lk) : (s.updLk n f).tamper = s.tamper := rfl
@[simp] theorem State.updLk_limits (n : Nat) (f : Lk → Lk) : (s.updLk n f).limits = s.limits := rfl

/-! ### State.putLk -/

@[simp] theorem State.putLk_pending (n : Nat) (l : Lk) : (s.putLk n l).pending = s.pending := rfl
@[simp] theorem State.putLk_free (n : Nat) (l : Lk) : (s.putLk n l).free = s.free := rfl
@[simp] theorem State.putLk_regs (n : Nat) (l : Lk) : (s.putLk n l).regs = s.regs := rfl
@[simp] theorem State.putLk_port (n : Nat) (l : Lk) : (s.putLk n l).port = s.port := rfl
@[simp] theorem State.putLk_pins (n : Nat) (l : Lk) : (s.putLk n l).pins = s.pins := rfl
@[simp] theorem State.putLk_reqs (n : Nat) (l : Lk) : (s.putLk n l).reqs = s.reqs := rfl
@[simp] theorem State.putLk_tows (n : Nat) (l : Lk) : (s.putLk n l).tows = s.tows := rfl
@[simp] theorem State.putLk_cu (n : Nat) (l : Lk) : (s.putLk n l).cu = s.cu := rfl
@[simp] theorem State.putLk_nextReq (n : Nat) (l : Lk) : (s.putLk n l).nextReq = s.nextReq := rfl
@[simp] theorem State.putLk_nextTow (n : Nat) (l : Lk) : (s.putLk n l).nextTow = s.nextTow := rfl
@[simp] theorem State.putLk_nextSeq (n : Nat) (l : Lk) : (s.putLk n l).nextSeq = s.nextSeq := rfl
@[simp] theorem State.putLk_reads (n : Nat) (l : Lk) : (s.putLk n l).reads = s.reads := rfl
@[simp] theorem State.putLk_writes (n : Nat) (l : Lk) : (s.putLk n l).writes = s.writes := rfl
@[simp] theorem State.putLk_irqs (n : Nat) (l : Lk) : (s.putLk n l).irqs = s.irqs := rfl
@[simp] theorem State.putLk_coal (n : Nat) (l : Lk) : (s.putLk n l).coal = s.coal := rfl
@[simp] theorem State.putLk_inPlaceDone (n : Nat) (l : Lk) : (s.putLk n l).inPlaceDone = s.inPlaceDone := rfl
@[simp] theorem State.putLk_retries (n : Nat) (l : Lk) : (s.putLk n l).retries = s.retries := rfl
@[simp] theorem State.putLk_chainRun (n : Nat) (l : Lk) : (s.putLk n l).chainRun = s.chainRun := rfl
@[simp] theorem State.putLk_fetchNext (n : Nat) (l : Lk) : (s.putLk n l).fetchNext = s.fetchNext := rfl
@[simp] theorem State.putLk_sched (n : Nat) (l : Lk) : (s.putLk n l).sched = s.sched := rfl
@[simp] theorem State.putLk_basin (n : Nat) (l : Lk) : (s.putLk n l).basin = s.basin := rfl
@[simp] theorem State.putLk_flt (n : Nat) (l : Lk) : (s.putLk n l).flt = s.flt := rfl
@[simp] theorem State.putLk_toContain (n : Nat) (l : Lk) : (s.putLk n l).toContain = s.toContain := rfl
@[simp] theorem State.putLk_flushEnded (n : Nat) (l : Lk) : (s.putLk n l).flushEnded = s.flushEnded := rfl
@[simp] theorem State.putLk_keys (n : Nat) (l : Lk) : (s.putLk n l).keys = s.keys := rfl
@[simp] theorem State.putLk_staging (n : Nat) (l : Lk) : (s.putLk n l).staging = s.staging := rfl
@[simp] theorem State.putLk_berths (n : Nat) (l : Lk) : (s.putLk n l).berths = s.berths := rfl
@[simp] theorem State.putLk_berthGens (n : Nat) (l : Lk) : (s.putLk n l).berthGens = s.berthGens := rfl
@[simp] theorem State.putLk_seals (n : Nat) (l : Lk) : (s.putLk n l).seals = s.seals := rfl
@[simp] theorem State.putLk_roundKeys (n : Nat) (l : Lk) : (s.putLk n l).roundKeys = s.roundKeys := rfl
@[simp] theorem State.putLk_hbs (n : Nat) (l : Lk) : (s.putLk n l).hbs = s.hbs := rfl
@[simp] theorem State.putLk_ckc (n : Nat) (l : Lk) : (s.putLk n l).ckc = s.ckc := rfl
@[simp] theorem State.putLk_keep (n : Nat) (l : Lk) : (s.putLk n l).keep = s.keep := rfl
@[simp] theorem State.putLk_tableGen (n : Nat) (l : Lk) : (s.putLk n l).tableGen = s.tableGen := rfl
@[simp] theorem State.putLk_otp (n : Nat) (l : Lk) : (s.putLk n l).otp = s.otp := rfl
@[simp] theorem State.putLk_otpJobs (n : Nat) (l : Lk) : (s.putLk n l).otpJobs = s.otpJobs := rfl
@[simp] theorem State.putLk_outMarks (n : Nat) (l : Lk) : (s.putLk n l).outMarks = s.outMarks := rfl
@[simp] theorem State.putLk_rng (n : Nat) (l : Lk) : (s.putLk n l).rng = s.rng := rfl
@[simp] theorem State.putLk_power (n : Nat) (l : Lk) : (s.putLk n l).power = s.power := rfl
@[simp] theorem State.putLk_life (n : Nat) (l : Lk) : (s.putLk n l).life = s.life := rfl
@[simp] theorem State.putLk_plys (n : Nat) (l : Lk) : (s.putLk n l).plys = s.plys := rfl
@[simp] theorem State.putLk_codWork (n : Nat) (l : Lk) : (s.putLk n l).codWork = s.codWork := rfl
@[simp] theorem State.putLk_operands (n : Nat) (l : Lk) : (s.putLk n l).operands = s.operands := rfl
@[simp] theorem State.putLk_curves (n : Nat) (l : Lk) : (s.putLk n l).curves = s.curves := rfl
@[simp] theorem State.putLk_boot (n : Nat) (l : Lk) : (s.putLk n l).boot = s.boot := rfl
@[simp] theorem State.putLk_resets (n : Nat) (l : Lk) : (s.putLk n l).resets = s.resets := rfl
@[simp] theorem State.putLk_tamper (n : Nat) (l : Lk) : (s.putLk n l).tamper = s.tamper := rfl
@[simp] theorem State.putLk_limits (n : Nat) (l : Lk) : (s.putLk n l).limits = s.limits := rfl

/-! ### State.returnCells -/

@[simp] theorem State.returnCells_pending (b : List Nat) : (s.returnCells b).pending = s.pending := rfl
@[simp] theorem State.returnCells_free (b : List Nat) : (s.returnCells b).free = s.free := rfl
@[simp] theorem State.returnCells_regs (b : List Nat) : (s.returnCells b).regs = s.regs := rfl
@[simp] theorem State.returnCells_port (b : List Nat) : (s.returnCells b).port = s.port := rfl
@[simp] theorem State.returnCells_pins (b : List Nat) : (s.returnCells b).pins = s.pins := rfl
@[simp] theorem State.returnCells_reqs (b : List Nat) : (s.returnCells b).reqs = s.reqs := rfl
@[simp] theorem State.returnCells_tows (b : List Nat) : (s.returnCells b).tows = s.tows := rfl
@[simp] theorem State.returnCells_cu (b : List Nat) : (s.returnCells b).cu = s.cu := rfl
@[simp] theorem State.returnCells_nextReq (b : List Nat) : (s.returnCells b).nextReq = s.nextReq := rfl
@[simp] theorem State.returnCells_nextTow (b : List Nat) : (s.returnCells b).nextTow = s.nextTow := rfl
@[simp] theorem State.returnCells_nextSeq (b : List Nat) : (s.returnCells b).nextSeq = s.nextSeq := rfl
@[simp] theorem State.returnCells_reads (b : List Nat) : (s.returnCells b).reads = s.reads := rfl
@[simp] theorem State.returnCells_writes (b : List Nat) : (s.returnCells b).writes = s.writes := rfl
@[simp] theorem State.returnCells_irqs (b : List Nat) : (s.returnCells b).irqs = s.irqs := rfl
@[simp] theorem State.returnCells_coal (b : List Nat) : (s.returnCells b).coal = s.coal := rfl
@[simp] theorem State.returnCells_inPlaceDone (b : List Nat) : (s.returnCells b).inPlaceDone = s.inPlaceDone := rfl
@[simp] theorem State.returnCells_retries (b : List Nat) : (s.returnCells b).retries = s.retries := rfl
@[simp] theorem State.returnCells_chainRun (b : List Nat) : (s.returnCells b).chainRun = s.chainRun := rfl
@[simp] theorem State.returnCells_fetchNext (b : List Nat) : (s.returnCells b).fetchNext = s.fetchNext := rfl
@[simp] theorem State.returnCells_sched (b : List Nat) : (s.returnCells b).sched = s.sched := rfl
@[simp] theorem State.returnCells_flt (b : List Nat) : (s.returnCells b).flt = s.flt := rfl
@[simp] theorem State.returnCells_toContain (b : List Nat) : (s.returnCells b).toContain = s.toContain := rfl
@[simp] theorem State.returnCells_flushEnded (b : List Nat) : (s.returnCells b).flushEnded = s.flushEnded := rfl
@[simp] theorem State.returnCells_lks (b : List Nat) : (s.returnCells b).lks = s.lks := rfl
@[simp] theorem State.returnCells_keys (b : List Nat) : (s.returnCells b).keys = s.keys := rfl
@[simp] theorem State.returnCells_staging (b : List Nat) : (s.returnCells b).staging = s.staging := rfl
@[simp] theorem State.returnCells_berths (b : List Nat) : (s.returnCells b).berths = s.berths := rfl
@[simp] theorem State.returnCells_berthGens (b : List Nat) : (s.returnCells b).berthGens = s.berthGens := rfl
@[simp] theorem State.returnCells_seals (b : List Nat) : (s.returnCells b).seals = s.seals := rfl
@[simp] theorem State.returnCells_roundKeys (b : List Nat) : (s.returnCells b).roundKeys = s.roundKeys := rfl
@[simp] theorem State.returnCells_hbs (b : List Nat) : (s.returnCells b).hbs = s.hbs := rfl
@[simp] theorem State.returnCells_ckc (b : List Nat) : (s.returnCells b).ckc = s.ckc := rfl
@[simp] theorem State.returnCells_keep (b : List Nat) : (s.returnCells b).keep = s.keep := rfl
@[simp] theorem State.returnCells_tableGen (b : List Nat) : (s.returnCells b).tableGen = s.tableGen := rfl
@[simp] theorem State.returnCells_otp (b : List Nat) : (s.returnCells b).otp = s.otp := rfl
@[simp] theorem State.returnCells_otpJobs (b : List Nat) : (s.returnCells b).otpJobs = s.otpJobs := rfl
@[simp] theorem State.returnCells_outMarks (b : List Nat) : (s.returnCells b).outMarks = s.outMarks := rfl
@[simp] theorem State.returnCells_rng (b : List Nat) : (s.returnCells b).rng = s.rng := rfl
@[simp] theorem State.returnCells_power (b : List Nat) : (s.returnCells b).power = s.power := rfl
@[simp] theorem State.returnCells_life (b : List Nat) : (s.returnCells b).life = s.life := rfl
@[simp] theorem State.returnCells_plys (b : List Nat) : (s.returnCells b).plys = s.plys := rfl
@[simp] theorem State.returnCells_codWork (b : List Nat) : (s.returnCells b).codWork = s.codWork := rfl
@[simp] theorem State.returnCells_operands (b : List Nat) : (s.returnCells b).operands = s.operands := rfl
@[simp] theorem State.returnCells_curves (b : List Nat) : (s.returnCells b).curves = s.curves := rfl
@[simp] theorem State.returnCells_boot (b : List Nat) : (s.returnCells b).boot = s.boot := rfl
@[simp] theorem State.returnCells_resets (b : List Nat) : (s.returnCells b).resets = s.resets := rfl
@[simp] theorem State.returnCells_tamper (b : List Nat) : (s.returnCells b).tamper = s.tamper := rfl
@[simp] theorem State.returnCells_limits (b : List Nat) : (s.returnCells b).limits = s.limits := rfl

/-! ### State.setDom -/

@[simp] theorem State.setDom_pending (d v : Nat) : (s.setDom d v).pending = s.pending := rfl
@[simp] theorem State.setDom_free (d v : Nat) : (s.setDom d v).free = s.free := rfl
@[simp] theorem State.setDom_regs (d v : Nat) : (s.setDom d v).regs = s.regs := rfl
@[simp] theorem State.setDom_port (d v : Nat) : (s.setDom d v).port = s.port := rfl
@[simp] theorem State.setDom_pins (d v : Nat) : (s.setDom d v).pins = s.pins := rfl
@[simp] theorem State.setDom_reqs (d v : Nat) : (s.setDom d v).reqs = s.reqs := rfl
@[simp] theorem State.setDom_tows (d v : Nat) : (s.setDom d v).tows = s.tows := rfl
@[simp] theorem State.setDom_cu (d v : Nat) : (s.setDom d v).cu = s.cu := rfl
@[simp] theorem State.setDom_nextReq (d v : Nat) : (s.setDom d v).nextReq = s.nextReq := rfl
@[simp] theorem State.setDom_nextTow (d v : Nat) : (s.setDom d v).nextTow = s.nextTow := rfl
@[simp] theorem State.setDom_nextSeq (d v : Nat) : (s.setDom d v).nextSeq = s.nextSeq := rfl
@[simp] theorem State.setDom_reads (d v : Nat) : (s.setDom d v).reads = s.reads := rfl
@[simp] theorem State.setDom_writes (d v : Nat) : (s.setDom d v).writes = s.writes := rfl
@[simp] theorem State.setDom_irqs (d v : Nat) : (s.setDom d v).irqs = s.irqs := rfl
@[simp] theorem State.setDom_coal (d v : Nat) : (s.setDom d v).coal = s.coal := rfl
@[simp] theorem State.setDom_inPlaceDone (d v : Nat) : (s.setDom d v).inPlaceDone = s.inPlaceDone := rfl
@[simp] theorem State.setDom_retries (d v : Nat) : (s.setDom d v).retries = s.retries := rfl
@[simp] theorem State.setDom_chainRun (d v : Nat) : (s.setDom d v).chainRun = s.chainRun := rfl
@[simp] theorem State.setDom_fetchNext (d v : Nat) : (s.setDom d v).fetchNext = s.fetchNext := rfl
@[simp] theorem State.setDom_sched (d v : Nat) : (s.setDom d v).sched = s.sched := rfl
@[simp] theorem State.setDom_basin (d v : Nat) : (s.setDom d v).basin = s.basin := rfl
@[simp] theorem State.setDom_flt (d v : Nat) : (s.setDom d v).flt = s.flt := rfl
@[simp] theorem State.setDom_toContain (d v : Nat) : (s.setDom d v).toContain = s.toContain := rfl
@[simp] theorem State.setDom_flushEnded (d v : Nat) : (s.setDom d v).flushEnded = s.flushEnded := rfl
@[simp] theorem State.setDom_lks (d v : Nat) : (s.setDom d v).lks = s.lks := rfl
@[simp] theorem State.setDom_keys (d v : Nat) : (s.setDom d v).keys = s.keys := rfl
@[simp] theorem State.setDom_staging (d v : Nat) : (s.setDom d v).staging = s.staging := rfl
@[simp] theorem State.setDom_berths (d v : Nat) : (s.setDom d v).berths = s.berths := rfl
@[simp] theorem State.setDom_berthGens (d v : Nat) : (s.setDom d v).berthGens = s.berthGens := rfl
@[simp] theorem State.setDom_seals (d v : Nat) : (s.setDom d v).seals = s.seals := rfl
@[simp] theorem State.setDom_roundKeys (d v : Nat) : (s.setDom d v).roundKeys = s.roundKeys := rfl
@[simp] theorem State.setDom_hbs (d v : Nat) : (s.setDom d v).hbs = s.hbs := rfl
@[simp] theorem State.setDom_ckc (d v : Nat) : (s.setDom d v).ckc = s.ckc := rfl
@[simp] theorem State.setDom_keep (d v : Nat) : (s.setDom d v).keep = s.keep := rfl
@[simp] theorem State.setDom_tableGen (d v : Nat) : (s.setDom d v).tableGen = s.tableGen := rfl
@[simp] theorem State.setDom_otp (d v : Nat) : (s.setDom d v).otp = s.otp := rfl
@[simp] theorem State.setDom_otpJobs (d v : Nat) : (s.setDom d v).otpJobs = s.otpJobs := rfl
@[simp] theorem State.setDom_outMarks (d v : Nat) : (s.setDom d v).outMarks = s.outMarks := rfl
@[simp] theorem State.setDom_rng (d v : Nat) : (s.setDom d v).rng = s.rng := rfl
@[simp] theorem State.setDom_life (d v : Nat) : (s.setDom d v).life = s.life := rfl
@[simp] theorem State.setDom_plys (d v : Nat) : (s.setDom d v).plys = s.plys := rfl
@[simp] theorem State.setDom_codWork (d v : Nat) : (s.setDom d v).codWork = s.codWork := rfl
@[simp] theorem State.setDom_operands (d v : Nat) : (s.setDom d v).operands = s.operands := rfl
@[simp] theorem State.setDom_curves (d v : Nat) : (s.setDom d v).curves = s.curves := rfl
@[simp] theorem State.setDom_boot (d v : Nat) : (s.setDom d v).boot = s.boot := rfl
@[simp] theorem State.setDom_resets (d v : Nat) : (s.setDom d v).resets = s.resets := rfl
@[simp] theorem State.setDom_tamper (d v : Nat) : (s.setDom d v).tamper = s.tamper := rfl
@[simp] theorem State.setDom_limits (d v : Nat) : (s.setDom d v).limits = s.limits := rfl

/-! ### State.lifeAdd -/

@[simp] theorem State.lifeAdd_pending (i n : Nat) : (s.lifeAdd i n).pending = s.pending := rfl
@[simp] theorem State.lifeAdd_free (i n : Nat) : (s.lifeAdd i n).free = s.free := rfl
@[simp] theorem State.lifeAdd_regs (i n : Nat) : (s.lifeAdd i n).regs = s.regs := rfl
@[simp] theorem State.lifeAdd_port (i n : Nat) : (s.lifeAdd i n).port = s.port := rfl
@[simp] theorem State.lifeAdd_pins (i n : Nat) : (s.lifeAdd i n).pins = s.pins := rfl
@[simp] theorem State.lifeAdd_reqs (i n : Nat) : (s.lifeAdd i n).reqs = s.reqs := rfl
@[simp] theorem State.lifeAdd_tows (i n : Nat) : (s.lifeAdd i n).tows = s.tows := rfl
@[simp] theorem State.lifeAdd_cu (i n : Nat) : (s.lifeAdd i n).cu = s.cu := rfl
@[simp] theorem State.lifeAdd_nextReq (i n : Nat) : (s.lifeAdd i n).nextReq = s.nextReq := rfl
@[simp] theorem State.lifeAdd_nextTow (i n : Nat) : (s.lifeAdd i n).nextTow = s.nextTow := rfl
@[simp] theorem State.lifeAdd_nextSeq (i n : Nat) : (s.lifeAdd i n).nextSeq = s.nextSeq := rfl
@[simp] theorem State.lifeAdd_reads (i n : Nat) : (s.lifeAdd i n).reads = s.reads := rfl
@[simp] theorem State.lifeAdd_writes (i n : Nat) : (s.lifeAdd i n).writes = s.writes := rfl
@[simp] theorem State.lifeAdd_irqs (i n : Nat) : (s.lifeAdd i n).irqs = s.irqs := rfl
@[simp] theorem State.lifeAdd_coal (i n : Nat) : (s.lifeAdd i n).coal = s.coal := rfl
@[simp] theorem State.lifeAdd_inPlaceDone (i n : Nat) : (s.lifeAdd i n).inPlaceDone = s.inPlaceDone := rfl
@[simp] theorem State.lifeAdd_retries (i n : Nat) : (s.lifeAdd i n).retries = s.retries := rfl
@[simp] theorem State.lifeAdd_chainRun (i n : Nat) : (s.lifeAdd i n).chainRun = s.chainRun := rfl
@[simp] theorem State.lifeAdd_fetchNext (i n : Nat) : (s.lifeAdd i n).fetchNext = s.fetchNext := rfl
@[simp] theorem State.lifeAdd_sched (i n : Nat) : (s.lifeAdd i n).sched = s.sched := rfl
@[simp] theorem State.lifeAdd_basin (i n : Nat) : (s.lifeAdd i n).basin = s.basin := rfl
@[simp] theorem State.lifeAdd_flt (i n : Nat) : (s.lifeAdd i n).flt = s.flt := rfl
@[simp] theorem State.lifeAdd_toContain (i n : Nat) : (s.lifeAdd i n).toContain = s.toContain := rfl
@[simp] theorem State.lifeAdd_flushEnded (i n : Nat) : (s.lifeAdd i n).flushEnded = s.flushEnded := rfl
@[simp] theorem State.lifeAdd_lks (i n : Nat) : (s.lifeAdd i n).lks = s.lks := rfl
@[simp] theorem State.lifeAdd_keys (i n : Nat) : (s.lifeAdd i n).keys = s.keys := rfl
@[simp] theorem State.lifeAdd_staging (i n : Nat) : (s.lifeAdd i n).staging = s.staging := rfl
@[simp] theorem State.lifeAdd_berths (i n : Nat) : (s.lifeAdd i n).berths = s.berths := rfl
@[simp] theorem State.lifeAdd_berthGens (i n : Nat) : (s.lifeAdd i n).berthGens = s.berthGens := rfl
@[simp] theorem State.lifeAdd_seals (i n : Nat) : (s.lifeAdd i n).seals = s.seals := rfl
@[simp] theorem State.lifeAdd_roundKeys (i n : Nat) : (s.lifeAdd i n).roundKeys = s.roundKeys := rfl
@[simp] theorem State.lifeAdd_hbs (i n : Nat) : (s.lifeAdd i n).hbs = s.hbs := rfl
@[simp] theorem State.lifeAdd_ckc (i n : Nat) : (s.lifeAdd i n).ckc = s.ckc := rfl
@[simp] theorem State.lifeAdd_keep (i n : Nat) : (s.lifeAdd i n).keep = s.keep := rfl
@[simp] theorem State.lifeAdd_tableGen (i n : Nat) : (s.lifeAdd i n).tableGen = s.tableGen := rfl
@[simp] theorem State.lifeAdd_otp (i n : Nat) : (s.lifeAdd i n).otp = s.otp := rfl
@[simp] theorem State.lifeAdd_otpJobs (i n : Nat) : (s.lifeAdd i n).otpJobs = s.otpJobs := rfl
@[simp] theorem State.lifeAdd_outMarks (i n : Nat) : (s.lifeAdd i n).outMarks = s.outMarks := rfl
@[simp] theorem State.lifeAdd_rng (i n : Nat) : (s.lifeAdd i n).rng = s.rng := rfl
@[simp] theorem State.lifeAdd_power (i n : Nat) : (s.lifeAdd i n).power = s.power := rfl
@[simp] theorem State.lifeAdd_plys (i n : Nat) : (s.lifeAdd i n).plys = s.plys := rfl
@[simp] theorem State.lifeAdd_codWork (i n : Nat) : (s.lifeAdd i n).codWork = s.codWork := rfl
@[simp] theorem State.lifeAdd_operands (i n : Nat) : (s.lifeAdd i n).operands = s.operands := rfl
@[simp] theorem State.lifeAdd_curves (i n : Nat) : (s.lifeAdd i n).curves = s.curves := rfl
@[simp] theorem State.lifeAdd_boot (i n : Nat) : (s.lifeAdd i n).boot = s.boot := rfl
@[simp] theorem State.lifeAdd_resets (i n : Nat) : (s.lifeAdd i n).resets = s.resets := rfl
@[simp] theorem State.lifeAdd_tamper (i n : Nat) : (s.lifeAdd i n).tamper = s.tamper := rfl
@[simp] theorem State.lifeAdd_limits (i n : Nat) : (s.lifeAdd i n).limits = s.limits := rfl

/-! ### State.respond -/

@[simp] theorem State.respond_pending (rsp : Rsp) (v : W32) : (s.respond rsp v).pending = s.pending := rfl
@[simp] theorem State.respond_free (rsp : Rsp) (v : W32) : (s.respond rsp v).free = s.free := rfl
@[simp] theorem State.respond_regs (rsp : Rsp) (v : W32) : (s.respond rsp v).regs = s.regs := rfl
@[simp] theorem State.respond_pins (rsp : Rsp) (v : W32) : (s.respond rsp v).pins = s.pins := rfl
@[simp] theorem State.respond_reqs (rsp : Rsp) (v : W32) : (s.respond rsp v).reqs = s.reqs := rfl
@[simp] theorem State.respond_tows (rsp : Rsp) (v : W32) : (s.respond rsp v).tows = s.tows := rfl
@[simp] theorem State.respond_cu (rsp : Rsp) (v : W32) : (s.respond rsp v).cu = s.cu := rfl
@[simp] theorem State.respond_nextReq (rsp : Rsp) (v : W32) : (s.respond rsp v).nextReq = s.nextReq := rfl
@[simp] theorem State.respond_nextTow (rsp : Rsp) (v : W32) : (s.respond rsp v).nextTow = s.nextTow := rfl
@[simp] theorem State.respond_nextSeq (rsp : Rsp) (v : W32) : (s.respond rsp v).nextSeq = s.nextSeq := rfl
@[simp] theorem State.respond_reads (rsp : Rsp) (v : W32) : (s.respond rsp v).reads = s.reads := rfl
@[simp] theorem State.respond_writes (rsp : Rsp) (v : W32) : (s.respond rsp v).writes = s.writes := rfl
@[simp] theorem State.respond_irqs (rsp : Rsp) (v : W32) : (s.respond rsp v).irqs = s.irqs := rfl
@[simp] theorem State.respond_coal (rsp : Rsp) (v : W32) : (s.respond rsp v).coal = s.coal := rfl
@[simp] theorem State.respond_inPlaceDone (rsp : Rsp) (v : W32) : (s.respond rsp v).inPlaceDone = s.inPlaceDone := rfl
@[simp] theorem State.respond_retries (rsp : Rsp) (v : W32) : (s.respond rsp v).retries = s.retries := rfl
@[simp] theorem State.respond_chainRun (rsp : Rsp) (v : W32) : (s.respond rsp v).chainRun = s.chainRun := rfl
@[simp] theorem State.respond_fetchNext (rsp : Rsp) (v : W32) : (s.respond rsp v).fetchNext = s.fetchNext := rfl
@[simp] theorem State.respond_sched (rsp : Rsp) (v : W32) : (s.respond rsp v).sched = s.sched := rfl
@[simp] theorem State.respond_basin (rsp : Rsp) (v : W32) : (s.respond rsp v).basin = s.basin := rfl
@[simp] theorem State.respond_flt (rsp : Rsp) (v : W32) : (s.respond rsp v).flt = s.flt := rfl
@[simp] theorem State.respond_toContain (rsp : Rsp) (v : W32) : (s.respond rsp v).toContain = s.toContain := rfl
@[simp] theorem State.respond_flushEnded (rsp : Rsp) (v : W32) : (s.respond rsp v).flushEnded = s.flushEnded := rfl
@[simp] theorem State.respond_lks (rsp : Rsp) (v : W32) : (s.respond rsp v).lks = s.lks := rfl
@[simp] theorem State.respond_keys (rsp : Rsp) (v : W32) : (s.respond rsp v).keys = s.keys := rfl
@[simp] theorem State.respond_staging (rsp : Rsp) (v : W32) : (s.respond rsp v).staging = s.staging := rfl
@[simp] theorem State.respond_berths (rsp : Rsp) (v : W32) : (s.respond rsp v).berths = s.berths := rfl
@[simp] theorem State.respond_berthGens (rsp : Rsp) (v : W32) : (s.respond rsp v).berthGens = s.berthGens := rfl
@[simp] theorem State.respond_seals (rsp : Rsp) (v : W32) : (s.respond rsp v).seals = s.seals := rfl
@[simp] theorem State.respond_roundKeys (rsp : Rsp) (v : W32) : (s.respond rsp v).roundKeys = s.roundKeys := rfl
@[simp] theorem State.respond_hbs (rsp : Rsp) (v : W32) : (s.respond rsp v).hbs = s.hbs := rfl
@[simp] theorem State.respond_ckc (rsp : Rsp) (v : W32) : (s.respond rsp v).ckc = s.ckc := rfl
@[simp] theorem State.respond_keep (rsp : Rsp) (v : W32) : (s.respond rsp v).keep = s.keep := rfl
@[simp] theorem State.respond_tableGen (rsp : Rsp) (v : W32) : (s.respond rsp v).tableGen = s.tableGen := rfl
@[simp] theorem State.respond_otp (rsp : Rsp) (v : W32) : (s.respond rsp v).otp = s.otp := rfl
@[simp] theorem State.respond_otpJobs (rsp : Rsp) (v : W32) : (s.respond rsp v).otpJobs = s.otpJobs := rfl
@[simp] theorem State.respond_outMarks (rsp : Rsp) (v : W32) : (s.respond rsp v).outMarks = s.outMarks := rfl
@[simp] theorem State.respond_rng (rsp : Rsp) (v : W32) : (s.respond rsp v).rng = s.rng := rfl
@[simp] theorem State.respond_power (rsp : Rsp) (v : W32) : (s.respond rsp v).power = s.power := rfl
@[simp] theorem State.respond_life (rsp : Rsp) (v : W32) : (s.respond rsp v).life = s.life := rfl
@[simp] theorem State.respond_plys (rsp : Rsp) (v : W32) : (s.respond rsp v).plys = s.plys := rfl
@[simp] theorem State.respond_codWork (rsp : Rsp) (v : W32) : (s.respond rsp v).codWork = s.codWork := rfl
@[simp] theorem State.respond_operands (rsp : Rsp) (v : W32) : (s.respond rsp v).operands = s.operands := rfl
@[simp] theorem State.respond_curves (rsp : Rsp) (v : W32) : (s.respond rsp v).curves = s.curves := rfl
@[simp] theorem State.respond_boot (rsp : Rsp) (v : W32) : (s.respond rsp v).boot = s.boot := rfl
@[simp] theorem State.respond_resets (rsp : Rsp) (v : W32) : (s.respond rsp v).resets = s.resets := rfl
@[simp] theorem State.respond_tamper (rsp : Rsp) (v : W32) : (s.respond rsp v).tamper = s.tamper := rfl
@[simp] theorem State.respond_limits (rsp : Rsp) (v : W32) : (s.respond rsp v).limits = s.limits := rfl

/-! ### Reading a register -/

@[simp] theorem State.reg_setReg (r : RegId) (v : W32) (i j : Nat) : (s.setReg r v i j).reg r i j = v := by
  simp [State.reg, State.setReg]

/-- A write of one register leaves every register at another address. -/
theorem State.reg_setReg_other {r x : RegId} {i j k l : Nat} (h : r.addr i j ≠ x.addr k l) (v : W32) :
    (s.setReg x v k l).reg r i j = s.reg r i j := by
  simp only [State.reg, State.setReg]; exact getKey_setKey_other h v

end Sys2Proof.Machine
end

