-- ==== Sys2Proof/Laws/Port.lean ====
section
/-!
SUPPORT. Laws of the register port: a write that is carried does what its register says, and every other access changes the log and
the response alone.
-/
namespace Sys2Proof.Machine

/-- A write to a register by its name that the port carries. -/
theorem State.write_carried {s : State} {acc : Access} {r : RegId} {i j : Nat} (h : s.Carries acc (r.target i j)) (d : W32) :
    s.write acc d r i j = (s.writeReg { id := r, i := i, j := j } d).respond .okay 0 := by
  obtain ⟨hf, hj, hs⟩ := h
  simp only [State.write, State.writeTarget, hf, if_true, State.writeNow, hj]
  by_cases hsafe : s.safe = true
  · have h := hs hsafe
    simp only [RegId.target] at h
    simp [hsafe, h, State.writeAt, RegId.target]
  · simp [hsafe, State.writeAt, RegId.target]

/-- A write to an address that the port carries. -/
theorem State.portWrite_carried {s : State} {acc : Access} {a : Nat} (ha : portAddr a = true) (h : s.Carries acc (targetOf a)) (d : W32) :
    s.portWrite acc a d = (s.writeAt (targetOf a) d).respond .okay 0 := by
  obtain ⟨hf, hj, hs⟩ := h
  simp only [State.portWrite, ha, if_true, State.writeTarget, hf, State.writeNow, hj]
  by_cases hsafe : s.safe = true
  · simp [hsafe, hs hsafe]
  · simp [hsafe]

/-- A write that the five steps turn away. -/
theorem State.writeTarget_refused {s : State} {acc : Access} {t : Target} (hf : s.pins.fabRun = true) (h : s.judge acc true t ≠ .okay) (d : W32) :
    s.writeTarget acc t d = ((s.refusedGo acc t d).logAccess acc true t.addr (s.judge acc true t)).respond (s.judge acc true t) 0 := by
  simp only [State.writeTarget, hf, if_true]
  unfold State.writeNow
  split
  · contradiction
  · rfl

/-- A read that the five steps turn away. -/
theorem State.readTarget_refused {s : State} {acc : Access} {t : Target} (hf : s.pins.fabRun = true) (h : s.judge acc false t ≠ .okay) :
    s.readTarget acc t = (s.logAccess acc false t.addr (s.judge acc false t)).respond (s.judge acc false t) 0 := by
  simp only [State.readTarget, hf, if_true]
  unfold State.readNow
  split
  · contradiction
  · rfl

/-- With fab_clk stopped a write waits. -/
theorem State.writeTarget_waits {s : State} (hf : s.pins.fabRun = false) (acc : Access) (t : Target) (d : W32) :
    s.writeTarget acc t d = s.offerAccess { acc := acc, write := true, addr := t.addr, data := d } := by
  simp [State.writeTarget, hf]

/-- With fab_clk stopped a read waits. -/
theorem State.readTarget_waits {s : State} (hf : s.pins.fabRun = false) (acc : Access) (t : Target) :
    s.readTarget acc t = s.offerAccess { acc := acc, write := false, addr := t.addr } := by
  simp [State.readTarget, hf]

end Sys2Proof.Machine
end

