-- ==== Sys2Proof/Laws/Engine.lean ====
section
/-!
SUPPORT. Laws of the shared operations that the engines' commands are made of: what a running request, a keyed request, a
micro-command and a bignum operation come to once their preconditions hold.
-/
namespace Sys2Proof.Machine

/-- Equal states end a command equally. -/
theorem State.next_congr {s u v : State} (h : u = v) :
    (Host.Outcome.next (s.wrapUp u) : Host.Outcome State Fault Refusal) = .next (s.wrapUp v) := by rw [h]

/-- Where no check finds a fault, an operation goes on. -/
theorem State.checked_sound {s : State} {r : Req} (h : s.soundFor r = true) (w : Bool) (f : State → Req → State) : s.checked r w f = f s r := by
  simp only [State.soundFor, List.all_cons, List.all_nil, Bool.and_true, Bool.and_eq_true, Option.isNone_iff_eq_none] at h
  obtain ⟨h1, h2, h3, h4, h5⟩ := h
  simp [State.checked, State.memoryRead, h1, h2, h3, h4, h5]

/-- A request that its unit has come to run is worked on by its operation. -/
theorem State.runOp_runs {s : State} {rid : Nat} {r : Req} {op : Op} (h : s.Runs rid r op) (f : State → Req → State) :
    s.runOp rid op f = f s r := by
  obtain ⟨h1, h2, h3, h4, h6, h8⟩ := h
  simp only [State.runOp, h1, h2, h3, h4, State.checked_sound h8, and_self, if_true, State.underRoots]
  cases h : r.testRoot <;> simp_all

/-- One that began while dbg_en was high is worked on as it was then (R70). -/
theorem State.runOp_underTest {s : State} {rid : Nat} {r : Req} {op : Op} (h : (s.withDbg true).Runs rid r op) (ht : r.testRoot = true)
    (hd : s.pins.dbgEn = false) (f : State → Req → State) : s.runOp rid op f = (f (s.withDbg true) r).withDbg false := by
  obtain ⟨h1, h2, h3, h4, -, h8⟩ := h
  have h1 : s.findReq rid = some r := h1
  have h8 : s.soundFor r = true := h8
  simp [State.runOp, State.checked_sound h8, State.underRoots, h1, h2, h3, h4, ht, hd]

/-- The request found under a number has that number. -/
theorem State.findReq_id {s : State} {rid : Nat} {r : Req} (h : s.findReq rid = some r) : r.id = rid := by
  simpa using List.find?_some (show s.reqs.find? (fun r => decide (r.id = rid)) = some r from h)

/-- A request whose whole item has come is worked on in one command: it streams nothing. -/
theorem State.runs_no_stream {s : State} {rid : Nat} {r : Req} {op : Op} (h : s.Runs rid r op) (o : Op) :
    (s.findReq rid).filter (fun r => r.streams o) = none := by
  rw [h.1]; simp [Option.filter, Req.streams, h.2.2.2.1]

/-- A polynomial engine whose recipe holds no flawed word is worked on as any other. -/
theorem State.plyOp_runs {s : State} {rid : Nat} {r : Req} {o : Op} (h : s.Runs rid r o) (hf : s.recipeFlaws r o = [])
    (f : State → Req → State) : s.plyOp rid o f = f s r := by
  simp only [State.plyOp]; rw [State.runOp_runs h]; simp only [hf, List.any_nil]
  change f (s.recipeFixed r.inst []) r = _; simp [State.recipeFixed]

/-- A micro-command that takes no share leaves the shares of its slots as they are. -/
theorem RecipeEnv.follow_none {e : RecipeEnv} {m : Micro} (h : (microUses m.op).1 = false) : e.follow m = e := by
  simp [RecipeEnv.follow, h]

/-- A request that holds its key and its source is worked on with them. -/
theorem State.withKey_keyed {s t : State} {r : Req} {n : KeyNeed} {c : List Nat} {m : KeyMat} {src : Bytes}
    (h : s.keyed r n c = some (t, m, src)) (f : State → KeyMat → Bytes → State) : s.withKey r n f c = f t m src := by
  simp only [State.keyed] at h
  simp only [State.withKey]
  split at h <;> simp_all
  split at h <;> simp_all

/-- Linking a key to its state record changes no record (R300). -/
theorem State.linkRec_hbsRec (t : State) (m : KeyMat) (i k : Nat) : (t.linkRec m i).hbsRec k = t.hbsRec k := by
  simp only [State.linkRec]
  split
  · rfl
  · rename_i j _
    generalize t.slotsOf j = l
    induction l generalizing t with
    | nil => rfl
    | cons a l ih =>
      simp only [List.foldl_cons]; rw [ih]
      split
      · rfl
      · simp only [State.rewriteSlot, State.hbsRec]; rfl

/-- A recipe that has come to a micro-command is worked on by it. -/
theorem State.recipeDo_atMicro {s : State} {n : Nat} {e : RecipeEnv} {m : Micro} {op : Nat} (h : s.AtMicro n e m op)
    (f : State → RecipeEnv → Micro → State) : s.recipeDo n op f = f s e m := by
  obtain ⟨h1, h2, h3, h4⟩ := h
  simp [State.recipeDo, h1, h2, h3, h4]

/-- The engine of a recipe's environment is the engine that runs it. -/
theorem State.atMicro_ply {s : State} {n : Nat} {e : RecipeEnv} {m : Micro} {op : Nat} (h : s.AtMicro n e m op) : e.ply = n := by
  obtain ⟨h1, -⟩ := h
  simp only [State.recipeEnv] at h1
  repeat' split at h1
  all_goals simp_all
  rw [← h1]

/-- Reading and writing streams and slots, and the shares that follow, leave the engine of an environment as it is. -/
@[simp] theorem RecipeEnv.follow_ply (e : RecipeEnv) (m : Micro) : (e.follow m).ply = e.ply := by
  simp only [RecipeEnv.follow]; split <;> rfl
@[simp] theorem RecipeEnv.read_ply (e : RecipeEnv) (c n d : Nat) : (e.read c n d).1.ply = e.ply := by
  simp only [RecipeEnv.read]; repeat' split
  all_goals rfl
@[simp] theorem RecipeEnv.load_ply (e : RecipeEnv) (c d : Nat) : (e.load c d).1.ply = e.ply := by
  simp only [RecipeEnv.load]; split
  · rfl
  · exact e.read_ply _ _ _
@[simp] theorem RecipeEnv.store_ply (e : RecipeEnv) (c : Nat) (l : List Nat) : (e.store c l).ply = e.ply := by
  simp only [RecipeEnv.store]; split <;> rfl

/-- A micro-command that changes the recipe's own state leaves engine n at the next one. -/
theorem State.recipeOp_atMicro {s : State} {n : Nat} {e : RecipeEnv} {m : Micro} {op : Nat} (h : s.AtMicro n e m op)
    (f : RecipeEnv → Micro → Nat → RecipeEnv) (hf : (f e m s.free).ply = e.ply) :
    s.recipeOp n op f =
      (let z := (f e m s.free).follow m
       let t := s.updPly n (fun p => { p with run := some { z.run with pc := z.run.pc + 1 }, slots := z.slots, shares := z.shares })
       if m.drawsMask then t.drawn else t) := by
  simp only [State.recipeOp, State.recipeDo_atMicro h, State.recipeNext, RecipeEnv.follow_ply, hf, State.atMicro_ply h]

/-- A bignum operation of a running request: its result, counted once it has been produced. -/
theorem State.bneOp_runs {s : State} {rid : Nat} {r : Req} {op : Op} (h : s.Runs rid r op) (f : State → Req → State) :
    s.bneOp rid op f =
      if ((f s r).findReq rid).map (·.phase) = some .produced then
        (f s r).setReg .bneOps ((f s r).reg .bneOps r.inst + 1) r.inst
      else f s r := by
  simp only [State.bneOp]
  rw [State.runOp_runs h]

/-- A write to a register by its name that the port carries, with what the register does said as `t`. -/
theorem State.write_carried_eq {s t : State} {acc : Access} {r : RegId} {i j : Nat} {d : W32} (h : s.Carries acc (r.target i j))
    (ht : s.writeReg { id := r, i := i, j := j } d = t) :
    (Host.Outcome.next (s.wrapUp (s.write acc d r i j)) : Host.Outcome State Fault Refusal) = .next (s.wrapUp (t.respond .okay 0)) := by
  rw [State.write_carried h, ht]

/-! ### Bursts -/

/-- The slots of CLOSED shares that a reset uses change the scheduler's counting and draw free values alone (R469). -/
theorem State.lendSlots_eq (s : State) (p cls : Nat) : ∃ c n, s.lendSlots p cls = { s with sched := c, free := n } := by
  unfold State.lendSlots
  generalize s.rsvEntries.filter _ = l
  induction l generalizing s with
  | nil => exact ⟨_, _, rfl⟩
  | cons e l ih =>
    obtain ⟨c, n, h⟩ := ih (({ s with sched := { s.sched with
      rsvFlag := setKey false s.sched.rsvFlag (rsvPtn e.2.1) (getKey false s.sched.rsvFlag (rsvPtn e.2.1) || s.pick % 2 == 1) } } : State).drawn)
    exact ⟨c, n, by simpa [State.drawn] using h⟩

/-- A write burst that is issued changes the outstanding writes, and counting of the scheduler, alone (R35, R469). -/
theorem State.issueWrite_eq {s t : State} {f : WriteFor} {p addr : Nat} {data : Bytes} (h : s.issueWrite f p addr data = some t) :
    ∃ c n w, t = { s with sched := c, free := n, writes := w } := by
  obtain ⟨c, n, e⟩ := s.lendSlots_eq p 7
  simp only [State.issueWrite] at h
  split at h
  · cases h
  · obtain ⟨x, -, rfl⟩ := Option.map_eq_some_iff.mp h
    split
    · rw [e]; exact ⟨_, _, _, rfl⟩
    · exact ⟨_, _, _, rfl⟩

/-- The bursts that carry one cell change no more. -/
theorem State.issueWrites_eq {s t : State} {f : WriteFor} {p addr : Nat} {data : Bytes} (h : s.issueWrites f p addr data = some t) :
    ∃ c n w, t = { s with sched := c, free := n, writes := w } := by
  simp only [State.issueWrites] at h
  split at h
  · cases h
  · rename_i u hu
    obtain ⟨c, n, w, rfl⟩ := State.issueWrite_eq hu
    split at h
    · cases h; exact ⟨_, _, _, rfl⟩
    · obtain ⟨c, n, w, rfl⟩ := State.issueWrite_eq h; exact ⟨_, _, _, rfl⟩

/-- A read burst that is issued changes the outstanding reads, and counting of the scheduler, alone (R35, R469). -/
theorem State.issueRead_eq {s t : State} {f : ReadFor} {p addr len : Nat} (h : s.issueRead f p addr len = some t) :
    ∃ c n x, t = { s with sched := c, free := n, reads := x } := by
  obtain ⟨c, n, e⟩ := s.lendSlots_eq p 6
  simp only [State.issueRead] at h
  split at h
  · cases h
  · obtain ⟨x, -, rfl⟩ := Option.map_eq_some_iff.mp h
    split
    · rw [e]; exact ⟨_, _, _, rfl⟩
    · exact ⟨_, _, _, rfl⟩

end Sys2Proof.Machine
end

