-- ==== Sys2Proof/Laws/Hbs.lean ====
section
/-!
SUPPORT. Bytes and words of a log record, and that the record the block appends is read back as the mark it stands for (R299, R300).
-/
namespace Sys2Proof.Machine

theorem leNat_lt (b : Bytes) : leNat b < 256 ^ b.length := by
  induction b with
  | nil => simp [leNat]
  | cons x xs ih => simp only [leNat, List.length_cons, pow_succ]; have := x.isLt; omega

theorem toLe_leNat (b : Bytes) : toLe b.length (leNat b) = b := by
  induction b with
  | nil => rfl
  | cons x xs ih =>
    simp only [List.length_cons, leNat, toLe]
    have h : (x.toNat + 256 * leNat xs) / 256 = leNat xs := by have := x.isLt; omega
    rw [h, ih]
    congr 1
    apply BitVec.eq_of_toNat_eq
    have := x.isLt
    simp only [BitVec.toNat_ofNat]; omega
theorem toLe_length (n v) : (toLe n v).length = n := by induction n generalizing v <;> simp_all [toLe]
theorem fit_length (n b) : (fit n b).length = n := by simp [fit]; omega

theorem leNat_append (a b : Bytes) : leNat (a ++ b) = leNat a + 256 ^ a.length * leNat b := by
  induction a with
  | nil => simp [leNat]
  | cons x xs ih => simp only [List.cons_append, leNat, List.length_cons, ih, pow_succ]; ring

theorem leNat_toLe (n v : Nat) (h : v < 256 ^ n) : leNat (toLe n v) = v := by
  induction n generalizing v with
  | zero => simp at h; simp [toLe, leNat, h]
  | succ n ih =>
    simp only [toLe, leNat]
    rw [ih _ (by rw [pow_succ] at h; omega)]
    simp only [BitVec.toNat_ofNat]; omega

theorem word_bytes (b : Bytes) (h : b.length = 8) : toLe 8 (BitVec.ofNat 64 (leNat b)).toNat = b := by
  have := leNat_lt b
  rw [h] at this
  rw [BitVec.toNat_ofNat, Nat.mod_eq_of_lt (by norm_num at this ⊢; exact this)]
  have := toLe_leNat b
  rwa [h] at this

theorem words64_blocks (bs : List Bytes) (h : ∀ b ∈ bs, b.length = 8) : words64 bs.flatten = bs.map (fun b => BitVec.ofNat 64 (leNat b)) := by
  have hn : ∀ n k, numsFrom k n = List.range' k n := by
    intro n; induction n with
    | zero => intro k; rfl
    | succ n ih => intro k; simp [numsFrom, ih, List.range'_succ]
  have key : ∀ (bs : List Bytes) (_ : ∀ b ∈ bs, b.length = 8) (k : Nat) (pre : Bytes) (_ : pre.length = 8 * k),
      (List.range' k bs.length).map (fun i => BitVec.ofNat 64 (le64 (pre ++ bs.flatten) (8 * i))) = bs.map (fun b => BitVec.ofNat 64 (leNat b)) := by
    intro bs
    induction bs with
    | nil => intros; rfl
    | cons b bs ih =>
      intro hb k pre hp
      have h8 : b.length = 8 := hb b (by simp)
      have := ih (fun x hx => hb x (by simp [hx])) (k + 1) (pre ++ b) (by simp [hp, h8]; omega)
      simp only [List.length_cons, List.range'_succ, List.map_cons, List.flatten_cons]
      rw [← List.append_assoc, this]
      congr 2
      simp [le64, slice, ← hp, List.append_assoc, h8]
  have hl : bs.flatten.length = 8 * bs.length := by
    clear key hn
    induction bs with
    | nil => rfl
    | cons b bs ih => simp [ih (fun x hx => h x (by simp [hx])), h b (by simp)]; omega
  have := key bs h 0 [] rfl
  simpa [words64, hl, hn] using this

theorem bytes_eight {b : Bytes} (h : b.length = 8) : ∃ a0 a1 a2 a3 a4 a5 a6 a7, b = [a0, a1, a2, a3, a4, a5, a6, a7] := by
  match b, h with
  | [a0, a1, a2, a3, a4, a5, a6, a7], _ => exact ⟨a0, a1, a2, a3, a4, a5, a6, a7, rfl⟩

/-- The record that the block appends for a mark is read back as that mark (R299, R300). -/
theorem logMarks_logWords (s : State) (kind gen high : Nat) (id : Bytes) (hk : kind < 256) (hg : gen < 256) (hh : high < 2 ^ 64)
    (hi : id.length = 16) : s.logMarks (s.logWords 0x5033 kind gen id high) = [(kind, id, high)] := by
  have hf : fit 16 id = id := by simp [fit, hi]
  generalize hw0 : toLe 8 (0x5033 * 2 ^ 48 + kind * 2 ^ 40 + gen * 2 ^ 32) = w0
  have l0 : w0.length = 8 := by rw [← hw0, toLe_length]
  have lh : (toLe 8 high).length = 8 := toLe_length ..
  generalize hs : toLe 8 s.keep.logSeq = sq
  have ls : sq.length = 8 := by rw [← hs, toLe_length]
  generalize ht : (kmac256 s.logKey (w0 ++ id ++ toLe 8 high ++ sq) 256 "").take 8 = tag
  have lt : tag.length = 8 := by rw [← ht]; simp [kmac256, kmacFn, fit_length]
  have hw : s.logWords 0x5033 kind gen id high = [w0, id.take 8, id.drop 8, toLe 8 high, sq, tag].map (fun a => BitVec.ofNat 64 (leNat a)) := by
    rw [← words64_blocks]
    · simp only [State.logWords, hf, hw0, hs, ht]
      congr 1
      have h1 : id.take 8 ++ (id.drop 8 ++ (toLe 8 high ++ (sq ++ tag))) = id ++ (toLe 8 high ++ (sq ++ tag)) := by
        rw [← List.append_assoc, List.take_append_drop]
      simp [h1]
    · simp [l0, lh, ls, lt, hi]
  rw [hw]
  have e0 : leNat (w0.drop 6) = 0x5033 := by
    rw [← hw0]; simp [toLe, leNat]; omega
  have e1 : leNat ((w0.drop 5).take 1) = kind := by
    rw [← hw0]; simp [toLe, leNat]; omega
  obtain ⟨y0, y1, y2, y3, y4, y5, y6, y7, rfl⟩ := bytes_eight l0
  obtain ⟨z0, z1, z2, z3, z4, z5, z6, z7, hz⟩ := bytes_eight lh
  obtain ⟨q0, q1, q2, q3, q4, q5, q6, q7, rfl⟩ := bytes_eight ls
  obtain ⟨g0, g1, g2, g3, g4, g5, g6, g7, rfl⟩ := bytes_eight lt
  obtain ⟨i0, i1, i2, i3, i4, i5, i6, i7, hi0⟩ := bytes_eight (b := id.take 8) (by simp [hi])
  obtain ⟨j0, j1, j2, j3, j4, j5, j6, j7, hj0⟩ := bytes_eight (b := id.drop 8) (by simp [hi])
  obtain rfl : id = [i0, i1, i2, i3, i4, i5, i6, i7, j0, j1, j2, j3, j4, j5, j6, j7] := by
    rw [← List.take_append_drop 8 id, hi0, hj0]; rfl
  have e2 : leNat [z0, z1, z2, z3, z4, z5, z6, z7] = high := by rw [← hz]; exact leNat_toLe 8 high (by omega)
  rw [hz] at ht ⊢
  simp only [State.logMarks, List.map, logRecords, List.filterMap_cons, List.filterMap_nil, State.logMark, List.flatMap_cons, List.flatMap_nil,
    word_bytes _ l0, word_bytes _ ls, word_bytes _ lt, word_bytes [z0, z1, z2, z3, z4, z5, z6, z7] rfl, hi0, hj0,
    word_bytes [i0, i1, i2, i3, i4, i5, i6, i7] rfl, word_bytes [j0, j1, j2, j3, j4, j5, j6, j7] rfl]
  simp at e0 e1
  simp [le16, byteAt, slice, le64] at ht ⊢
  simp [e0, e1, e2, ht]

end Sys2Proof.Machine
end

