-- ==== Sys2Proof/Laws/Lk.lean ====
section
/-!
SUPPORT. Laws of the Lockkeepers: replacing one, and what a command of the running context does.
-/
namespace Sys2Proof.Machine

@[simp] theorem modAt_nil {α : Type} (f : α → α) (n : Nat) : modAt f n [] = [] := by cases n <;> rfl

theorem getD_modAt_same {α : Type} (f : α → α) (d : α) {n : Nat} {xs : List α} (h : n < xs.length) :
    (modAt f n xs).getD n d = f (xs.getD n d) := by
  induction xs generalizing n with
  | nil => simp at h
  | cons x xs ih =>
    cases n with
    | zero => simp [modAt]
    | succ n => simpa [modAt] using ih (by simpa using h)

theorem getD_modAt_other {α : Type} (f : α → α) (d : α) {m n : Nat} (h : m ≠ n) (xs : List α) :
    (modAt f n xs).getD m d = xs.getD m d := by
  induction xs generalizing m n with
  | nil => simp
  | cons x xs ih =>
    cases n with
    | zero =>
      cases m with
      | zero => exact absurd rfl h
      | succ m => simp [modAt]
    | succ n =>
      cases m with
      | zero => simp [modAt]
      | succ m => simpa [modAt] using ih (fun e => h (by rw [e]))

theorem modAt_modAt {α : Type} (f g : α → α) (n : Nat) (xs : List α) :
    modAt f n (modAt g n xs) = modAt (fun x => f (g x)) n xs := by
  induction xs generalizing n with
  | nil => simp
  | cons x xs ih => cases n with
    | zero => rfl
    | succ n => simp [modAt, ih]

@[simp] theorem length_modAt {α : Type} (f : α → α) (n : Nat) (xs : List α) : (modAt f n xs).length = xs.length := by
  induction xs generalizing n with
  | nil => simp
  | cons x xs ih => cases n <;> simp [modAt, ih]

theorem State.lk_updLk (s : State) {n : Nat} (f : Lk → Lk) (h : n < s.lks.length) : (s.updLk n f).lk n = f (s.lk n) :=
  getD_modAt_same f {} h

theorem State.lk_updLk_other (s : State) {m n : Nat} (f : Lk → Lk) (h : m ≠ n) : (s.updLk n f).lk m = s.lk m :=
  getD_modAt_other f {} h s.lks

theorem State.updLk_updLk (s : State) (n : Nat) (f g : Lk → Lk) : (s.updLk n g).updLk n f = s.updLk n (fun l => f (g l)) := by
  simp [State.updLk, modAt_modAt]

theorem State.updLk_putLk (s : State) (n : Nat) (f : Lk → Lk) (l : Lk) : (s.putLk n l).updLk n f = s.putLk n (f l) :=
  s.updLk_updLk n f _

theorem Lk.updCtx_updCtx (l : Lk) (c : Nat) (f g : Ctx → Ctx) : (l.updCtx c g).updCtx c f = l.updCtx c (fun x => f (g x)) := by
  simp [Lk.updCtx, modAt_modAt]

/-- A Lockkeeper that executes is one of the eight. -/
theorem State.lkRuns_lt {s : State} {n : Nat} (h : s.lkRuns n = true) : n < s.lks.length := by
  rcases Nat.lt_or_ge n s.lks.length with h' | h'
  · exact h'
  · simp only [State.lkRuns, State.lk, List.getD_eq_getElem?_getD, List.getElem?_eq_none h', Option.getD_none] at h
    simp [Lk.serves] at h

theorem Lk.dispatch_state (l : Lk) : l.dispatch.state = l.state := by
  unfold Lk.dispatch
  split
  · rfl
  · split <;> rfl

/-- Words without bad symbols hold none that is uncorrectable (R210). -/
theorem Lk.lost_sound {l : Lk} {ks : List Nat} (h : l.flaws ks = []) : l.lost ks = false := by
  simp only [Lk.flaws, List.filter_eq_nil_iff] at h
  simp only [Lk.lost, List.any_eq_false, beq_iff_eq]
  intro k hk e; have := h k hk; simp [e] at this

/-- The words of two places have no bad symbol exactly where those of each have none. -/
theorem Lk.flaws_append (l : Lk) (a b : List Nat) : l.flaws (a ++ b) = [] ↔ l.flaws a = [] ∧ l.flaws b = [] := by
  simp [Lk.flaws]

/-- Reading words without bad symbols changes nothing (R210). -/
theorem State.noteWords_sound (s : State) {n : Nat} {ks : List Nat} (h : (s.lk n).flaws ks = []) : s.noteWords n ks = s := by
  induction ks with
  | nil => rfl
  | cons k ks ih =>
    simp only [Lk.flaws, List.filter_cons] at h
    split at h
    · cases h
    · rename_i hk
      have hw : s.noteWord n k = s := by
        unfold State.noteWord
        split <;> simp_all
      simp only [State.noteWords, List.foldl_cons, hw]
      exact ih h

namespace State.AtInstr

variable {s : State} {n c : Nat} {l : Lk} {w : W16} {i : LkInstr}

theorem runs (h : s.AtInstr n l c w i) : s.lkRuns n = true := h.1
theorem chosen (h : s.AtInstr n l c w i) : (s.lk n).dispatch = l := h.2.1
theorem current (h : s.AtInstr n l c w i) : l.cur = some c := h.2.2.1
theorem fetched (h : s.AtInstr n l c w i) : l.fetchInstr (l.ctx c).pc.toNat = .ok (w, some i) := h.2.2.2.1
theorem soundFetch (h : s.AtInstr n l c w i) : l.flaws (fetchKeys (l.ctx c).pc.toNat i) = [] := h.2.2.2.2

theorem lt (h : s.AtInstr n l c w i) : n < s.lks.length := lkRuns_lt h.runs

theorem lk_putLk (h : s.AtInstr n l c w i) (l' : Lk) : (s.putLk n l').lk n = l' := s.lk_updLk _ h.lt

theorem not_halted (h : s.AtInstr n l c w i) : l.state ≠ .halted := by
  have hr := h.runs
  rw [← h.chosen, Lk.dispatch_state]
  intro he
  simp [State.lkRuns, Lk.serves, he] at hr

/-- Reading words without bad symbols changes nothing. -/
theorem noteWords (h : s.AtInstr n l c w i) {ks : List Nat} (hs : l.flaws ks = []) :
    (s.putLk n l).noteWords n ks = s.putLk n l :=
  (s.putLk n l).noteWords_sound (by rw [h.lk_putLk]; exact hs)

/-- The command of the instruction that is fetched executes it. -/
theorem runLk (h : s.AtInstr n l c w i) : s.runLk n i = (s.putLk n l).lkExecute n c w i := by
  have hn := h.noteWords h.soundFetch
  simp only [State.putLk] at hn ⊢
  simp [State.runLk, h.runs, h.chosen, h.current, h.fetched, hn]

/-- A step that changes its context and moves past the instruction. -/
theorem ctxStep (h : s.AtInstr n l c w i) (k : Nat) (f : Ctx → Ctx) :
    (s.putLk n l).ctxStep n c k f =
      s.putLk n (l.updCtx c (fun x => { f x with pc := (f x).pc + BitVec.ofNat 16 k })) := by
  simp only [State.ctxStep, State.advance, State.updCtx, updLk_putLk, h.lk_putLk, Lk.updCtx_updCtx]
  simp [Lk.updCtx, h.not_halted]

end State.AtInstr

end Sys2Proof.Machine
end

