-- ==== Sys2Proof/Laws/WrapUp.lean ====
section
/-!
SUPPORT. Laws of what ends every command.
-/
namespace Sys2Proof.Machine

/-- Once every named unit is contained, nothing is left named. -/
@[simp] theorem State.containAll_toContain (n : Nat) (s : State) : (State.containAll n s).toContain = [] := by
  induction n generalizing s with
  | zero => rfl
  | succ n ih =>
    unfold State.containAll
    split
    · assumption
    · exact ih _

/-- With nothing named, containment does nothing. -/
theorem State.containAll_settled {s : State} (h : s.toContain = []) (n : Nat) : State.containAll (n + 1) s = s := by
  simp [State.containAll, h]

@[simp] theorem State.alarmPin_toContain (s : State) : s.alarmPin.toContain = s.toContain := by
  unfold State.alarmPin
  split <;> rfl

/-- tmp_alarm's update changes the pin alone. -/
theorem State.alarmPin_eq (s : State) : ∃ b, s.alarmPin = { s with pins := { s.pins with tmpAlarm := b } } := by
  unfold State.alarmPin
  split
  · exact ⟨s.pins.tmpAlarm, rfl⟩
  · exact ⟨s.alarmFlag, rfl⟩

@[simp] theorem State.wrapUp_toContain (s0 s : State) : (s0.wrapUp s).toContain = [] := by
  simp [State.wrapUp]

@[simp] theorem State.wrapUp_pending (s0 s : State) : (s0.wrapUp s).pending = s0.pending := by
  simp only [State.wrapUp]

theorem State.run_eq (s : State) (f : State → State) : s.run f = .next (s.wrapUp (f s)) := rfl

end Sys2Proof.Machine
end

