-- ==== Sys2Proof/Tests/Slice0.lean ====
section
/-!
SUPPORT. The package's own tests. For every statement whose hypotheses could shut everything out, a witness: a state and
operands that meet them, at the ends of the ranges that its clauses name. Then single steps, with the value that the spec gives, and
ill-formed commands. What rests on a function of a cited standard (Config.std, Config.holds, Config.size) is left out of the
witnesses, since no proof evaluates it.
-/
open Sys2Proof Sys2Proof.Machine
namespace Sys2Proof.Tests

-- One theorem after another: their evaluations side by side would each hold a stack of their own.
set_option Elab.async false

/-- The block in phase READY and the life-cycle state DEPLOYED. -/
def up : State :=
  { (State.reset.setF .mgtStatus 3 0 phReady).setF .lcStatus 2 0 lcDeployed with pins := { fabReq := true, fabRun := true } }

/-- P0, privileged; and partition 1. -/
def p0 : Access := { ptn := 0, priv := true, dbg := false }
def p1 : Access := { ptn := 1, priv := true, dbg := false }

/-- A Lockkeeper in service whose context 0 runs `x` over the program `ws` at 0. -/
def lkOf (ws : List (Nat × W16)) (x : Ctx := {}) : Lk :=
  { state := .running, prog := ws, cur := some 0, last := 0, ctxs := [{ x with state := .running }] }

/-- Lockkeeper 0 so, in a block that is up. -/
def lkUp (ws : List (Nat × W16)) (x : Ctx := {}) : State := (up.setDom 4 2).putLk 0 (lkOf ws x)

theorem except_ok {ε α : Type} {e : Except ε α} {a : α} (h : e.toOption = some a) : e = .ok a := by
  cases e <;> simp_all [Except.toOption]

/-- Context 0 of Lockkeeper 0 runs the instruction, as a test. -/
def runs (s : State) (w : W16) (i : Option LkInstr) : Bool :=
  s.lkRuns 0 && decide ((s.lk 0).dispatch = s.lk 0) && decide ((s.lk 0).cur = some 0) &&
    decide (((s.lk 0).fetchInstr ((s.lk 0).ctx 0).pc.toNat).toOption = some (w, i)) && (s.lk 0).bad.isEmpty

theorem no_flaws {l : Lk} (h : l.bad.isEmpty = true) (ks : List Nat) : l.flaws ks = [] := by
  simp only [List.isEmpty_iff] at h
  simp [Lk.flaws, h, lookupKey]

theorem at_of_runs {s : State} {w : W16} {i : LkInstr} (h : runs s w (some i) = true) : s.AtInstr 0 (s.lk 0) 0 w i := by
  simp only [runs, Bool.and_eq_true, decide_eq_true_eq] at h
  exact ⟨h.1.1.1.1, h.1.1.1.2, h.1.1.2, except_ok h.1.2, no_flaws h.2 _⟩

/-! ### Witnesses: states and operands that meet the hypotheses of each statement -/

/-- A context at its registers' zeros. -/
def c0 : Ctx := {}

/-- States, words and instructions: context 0 of Lockkeeper 0 is about to run the instruction. -/
def regCases : List (W16 × LkInstr) :=
  [(0x0000, .nop), (0x0008, .clrC), (0x0009, .setC), (0x000A, .clrV), (0x0100, .movXA), (0x0101, .movAX), (0x0102, .movYA),
    (0x0103, .movAY), (0x0104, .movYX), (0x0105, .movXY)] ++
  [(0x0108, .incX), (0x0109, .decX), (0x010A, .incY), (0x010B, .decY), (0x02FF, .cmpX 0xFF), (0x0300, .cmpY 0), (0x0480, .addX 0x80),
    (0x057F, .addY 0x7F)]

theorem w_contextRegisterInstructions : ∀ q ∈ regCases, (lkUp [(0, q.1)]).AtInstr 0 ((lkUp [(0, q.1)]).lk 0) 0 q.1 q.2 := by
  have h : ∀ q ∈ regCases, runs (lkUp [(0, q.1)]) q.1 (some q.2) = true := by decide +kernel
  exact fun q hq => at_of_runs (h q hq)

/-- A long immediate for A, and the last readable word of plain memory for X and Y. -/
def aluCases : List (W16 × LkInstr) :=
  [(0x1200, .ldA (.long 0xFFFF false)), (0x4200, .addA (.long 0xFFFF false)), (0x5200, .adcA (.long 0xFFFF false)),
    (0x6200, .subA (.long 0xFFFF false)), (0x7200, .sbcA (.long 0xFFFF false)), (0x8200, .andA (.long 0xFFFF false)),
    (0x9200, .orA (.long 0xFFFF false)), (0xA200, .xorA (.long 0xFFFF false)), (0xB200, .cmpA (.long 0xFFFF false)),
    (0x3300, .ldX (.abs 0xFFFF))]

theorem w_operandInstructions :
    (∀ q ∈ aluCases, (lkUp [(0, q.1), (1, 0xFFFF)]).AtInstr 0 ((lkUp [(0, q.1), (1, 0xFFFF)]).lk 0) 0 q.1 q.2) ∧
    (lkUp []).lkPlace 0 0 (.long 0xFFFF false) = .ok (.imm 0xFFFF) ∧ (lkUp []).lkLoadAt 0 0 (.imm 0xFFFF) = .ok 0xFFFF ∧
    (lkUp [(0, 0x3700), (1, 0x1FFF)]).AtInstr 0 ((lkUp [(0, 0x3700), (1, 0x1FFF)]).lk 0) 0 0x3700 (.ldY (.abs 0x1FFF)) ∧
    (lkUp []).lkLoadAt 0 0 (lkPlace16 (.abs 0x1FFF)) = .ok 0 := by
  have h : ∀ q ∈ aluCases, runs (lkUp [(0, q.1), (1, 0xFFFF)]) q.1 (some q.2) = true := by decide +kernel
  exact ⟨fun q hq => at_of_runs (h q hq), rfl, rfl, at_of_runs (by decide +kernel), rfl⟩

/-- Request 5, of ring 3 of partition 1, which completes in place, so that its place is always there. -/
def reqOf (d : Desc) : Req := { id := 5, ptn := 1, ring := 3, index := 0, desc := d }

/-- Lockkeeper 0 with frame 31, which holds that request, of the opcode NOP. -/
def frameUp (ws : List (Nat × W16)) (x : Ctx) (fr : Frame) : State :=
  ({ (lkUp ws x).setB .sqCfg 16 true 1 3 with reqs := [reqOf {}] } : State).putLk 0
    { lkOf ws x with frames := List.replicate 31 ({} : Frame) ++ [{ fr with valid := true, req := 5, ctx := some 0 }] }

def a1 : Ctx := { a := 1 }

/-- A 32-bit store to the last two words of plain memory, 16-bit stores of X and Y to the last and the first, LKC_GO, LKC_HEARTBEAT. -/
def storeCases : List (List (Nat × W16) × Ctx × W16 × LkInstr) :=
  [([(0, 0x2800), (1, 0x1BFE)], c0, 0x2800, .stA (.abs 0x1BFE false)), ([(0, 0x3B00), (1, 0x1BFF)], c0, 0x3B00, .stX (.abs 0x1BFF)),
    ([(0, 0x3D00)], c0, 0x3D00, .stY (.page 0)), ([(0, 0x2702)], a1, 0x2702, .stA (.ctrl 0x02 true)),
    ([(0, 0x2703)], a1, 0x2703, .stA (.ctrl 0x03 true))]

theorem w_storeInstructions :
    (∀ q ∈ storeCases, (lkUp q.1 q.2.1).AtInstr 0 ((lkUp q.1 q.2.1).lk 0) 0 q.2.2.1 q.2.2.2) ∧
    (lkUp []).lkPlace 0 0 (.abs 0x1BFE false) = .ok (.word 0x1BFE false) ∧ lkPlace16 (.abs 0x1BFF) = .word 0x1BFF true ∧
    (lkUp [] a1).storedWord 0 0 (.stA (.ctrl 0x02 true)) 0x7F02 = some 1 ∧
    (lkUp [] a1).storedWord 0 0 (.stA (.ctrl 0x03 true)) 0x7F03 = some 1 := by
  have h : ∀ q ∈ storeCases, runs (lkUp q.1 q.2.1) q.2.2.1 (some q.2.2.2) = true := by decide +kernel
  exact ⟨fun q hq => at_of_runs (h q hq), rfl, rfl, by decide +kernel, by decide +kernel⟩

/-- FRM_DONE of the last frame, with OK, and FRM_ADMIT of it, written by 16-bit stores of A. -/
theorem w_storesToFrames :
    let s0 := frameUp [(0, 0x2900), (1, 0x47F0)] c0 {}
    let s1 := frameUp [(0, 0x2900), (1, 0x47F3)] a1 {}
    (s0.AtInstr 0 (s0.lk 0) 0 0x2900 (.stA (.abs 0x47F0 true)) ∧ s0.storedWord 0 0 (.stA (.abs 0x47F0 true)) 0x47F0 = some 0 ∧
      ((s0.frmDone 0 ((s0.lk 0).frame 31) (frmResult 0 ((s0.lk 0).frame 31) 0))).isSome = true) ∧
    (s1.AtInstr 0 (s1.lk 0) 0 0x2900 (.stA (.abs 0x47F3 true)) ∧ s1.storedWord 0 0 (.stA (.abs 0x47F3 true)) 0x47F3 = some 1 ∧
      s1.findReq 5 = some (reqOf {}) ∧ (s1.admitWith (reqOf {})).isSome = true) := by
  exact ⟨⟨at_of_runs (by decide +kernel), by decide +kernel, by decide +kernel⟩,
    at_of_runs (by decide +kernel), by decide +kernel, by decide +kernel, by decide +kernel⟩

/-- A context with X set. -/
def xCtx (k : Nat) : Ctx := { x := BitVec.ofNat 16 k }

/-- Counts of 31, 0 and 1, and X[4:0] zero and not. -/
def shiftCases : List (W16 × LkInstr) :=
  [(0xC01F, .shl (.imm 31)), (0xC300, .shr .fromX), (0xC400, .asr (.imm 0)), (0xC601, .rol (.imm 1)), (0xC900, .ror .fromX)]

theorem w_shiftInstructions : ∀ q ∈ shiftCases, ∀ k ∈ [0xFFE0, 0x001F],
    (lkUp [(0, q.1)] (xCtx k)).AtInstr 0 ((lkUp [(0, q.1)] (xCtx k)).lk 0) 0 q.1 q.2 := by
  have h : ∀ q ∈ shiftCases, ∀ k ∈ [0xFFE0, 0x001F], runs (lkUp [(0, q.1)] (xCtx k)) q.1 (some q.2) = true := by decide +kernel
  exact fun q hq k hk => at_of_runs (h q hq k hk)

/-- Programs, contexts, words and instructions at which a context runs. -/
def branchCases : List (List (Nat × W16) × Ctx × W16 × LkInstr) :=
  [([(0, 0xD080)], c0, 0xD080, .beq 0x80), ([(0, 0xD17F)], c0, 0xD17F, .bne 0x7F), ([(0, 0xD2FF)], c0, 0xD2FF, .bcs 0xFF),
    ([(0, 0xD300)], c0, 0xD300, .bcc 0), ([(0, 0xD4FE)], c0, 0xD4FE, .bmi 0xFE), ([(0, 0xD501)], c0, 0xD501, .bpl 1),
    ([(0, 0xD680)], c0, 0xD680, .bvs 0x80), ([(0, 0xD77F)], c0, 0xD77F, .bvc 0x7F), ([(0, 0xD8FF)], c0, 0xD8FF, .bra 0xFF),
    ([(0, 0xE000), (1, 0xFFFF)], c0, 0xE000, .jmp 0xFFFF)] ++
  [([(0, 0xE100), (1, 1)], { stack := List.replicate 15 7 }, 0xE100, .jsr 1),
    ([(0, 0xE100), (1, 1)], { stack := List.replicate 16 7 }, 0xE100, .jsr 1), ([(0, 0xE200), (1, 1)], { x := 0xFFFF }, 0xE200, .jmpX 1),
    ([(0, 0xE300), (1, 1)], { x := 0xFFFF, stack := List.replicate 15 7 }, 0xE300, .jsrX 1), ([(0, 0x0003)], { stack := [7] }, 0x0003, .rts),
    ([(0, 0x0003)], c0, 0x0003, .rts), ([(0, 0x0004)], { emuStat := 0x1F }, 0x0004, .rte), ([(0, 0x0004)], c0, 0x0004, .rte)]

theorem w_branchesAndJumps :
    (∀ q ∈ branchCases, (lkUp q.1 q.2.1).AtInstr 0 ((lkUp q.1 q.2.1).lk 0) 0 q.2.2.1 q.2.2.2) ∧
    (lkUp []).lkRead 0 0 ((1 : W16) + 0xFFFF).toNat = .ok 0 := by
  have h : ∀ q ∈ branchCases, runs (lkUp q.1 q.2.1) q.2.2.1 (some q.2.2.2) = true := by decide +kernel
  exact ⟨fun q hq => at_of_runs (h q hq), rfl⟩

/-- A Lockkeeper at the word `w`, with or without a handler, in a trap or not. -/
def trapUp (q : Bool × W16 × W16) : State :=
  (lkUp [(0, q.2.2)] { emuStat := q.2.1 }).updLk 0 (fun l => { l with emuEn := q.1 })

def trapCases : List (Bool × W16 × W16) := [(true, 0, 0x06FF), (true, 0x10, 0x0600), (false, 0, 0x0601)]

theorem w_emulationTraps :
    (∀ q ∈ trapCases, (trapUp q).AtInstr 0 ((trapUp q).lk 0) 0 q.2.2 (.trap (BitVec.ofNat 8 q.2.2.toNat))) ∧
    (trapUp (true, 0, 0xFFFF)).lkRuns 0 = true ∧ ((trapUp (true, 0, 0xFFFF)).lk 0).cur = some 0 ∧
    ((trapUp (true, 0, 0xFFFF)).lk 0).fetchInstr 0 = .ok (0xFFFF, none) := by
  have h : trapCases.all (fun q => runs (trapUp q) q.2.2 (some (.trap (BitVec.ofNat 8 q.2.2.toNat)))) = true := by decide +kernel
  exact ⟨fun q hq => at_of_runs (List.all_eq_true.mp h q hq), by decide +kernel, by decide +kernel, except_ok (by decide +kernel)⟩

/-- A context whose slot 3 is in state `k`. -/
def slotCtx (k : Nat) : Ctx := { slots := List.replicate 3 ({} : Slot) ++ [{ state := k, result := 0x100 }] }

/-- Lockkeeper 0 about to issue slot 3, in state `st`, which names `unit` and the frame 31, a frame of the kind `fr`. -/
def issueUp (unit : Nat) (fr : Frame := { admitted := true }) (st : Nat := 0) : State :=
  frameUp [(0, 0xE403)] { slots := List.replicate 3 ({} : Slot) ++ [{ cmdUnit := BitVec.ofNat 16 unit, cmdFrame := 0x801F, state := st }] } fr

/-- Every lane of the polynomial engines carries a request. -/
def lanesFull : State :=
  { issueUp 0x03FF with
    reqs := (issueUp 0x03FF).reqs ++ (numsFrom 512 256).map (fun l =>
      { id := l, ptn := 1, ring := 3, index := 0, desc := {}, bas := { lane := some l } }) }

def slotCases : List (List (Nat × W16) × Ctx × W16 × LkInstr) :=
  [([(0, 0xE503)], slotCtx 1, 0xE503, .waite 3), ([(0, 0xE503)], slotCtx 3, 0xE503, .waite 3), ([(0, 0xE603)], slotCtx 1, 0xE603, .polle 3),
    ([(0, 0xE603)], slotCtx 3, 0xE603, .polle 3), ([(0, 0xE503)], slotCtx 0, 0xE503, .waite 3), ([(0, 0xE603)], slotCtx 0, 0xE603, .polle 3),
    ([(0, 0x0002)], c0, 0x0002, .yield), ([(0, 0x0001)], c0, 0x0001, .endCtx)]

/-- The frame that slot 3 names, of a kind. -/
def frameIs (s : State) (killed completed admitted issued : Bool) : Bool :=
  let f := (s.lk 0).frame 31
  f.valid && f.ctx == some 0 && f.killed == killed && f.completed == completed && f.admitted == admitted && f.issued == issued

/-- ISSUE of slot 3 for the frame 31, to the lanes of the cipher cores and to the berth store, which has none; with no lane free; of a
frame that is KILLED, and of one not admitted; of a slot that is busy and of a reserved class. WAITE and POLLE of a slot that is DONE, of
one that is not, and of a FREE one; YIELD and END, END with a frame that is not issued too. -/
theorem w_engineInstructions :
    (∀ unit ∈ [0x01FF, 0x0900], (issueUp unit).AtInstr 0 ((issueUp unit).lk 0) 0 0xE403 (.issue 3) ∧
      frameIs (issueUp unit) false false true false = true) ∧
    (issueUp 0x0900).findReq 5 = some (reqOf {}) ∧ ((issueUp 0x01FF).freeLane .sym).isSome = true ∧ classLanes .berth = [] ∧
    (lanesFull.AtInstr 0 (lanesFull.lk 0) 0 0xE403 (.issue 3) ∧ lanesFull.freeLane .ply = none ∧
      lanesFull.findReq 5 = some (reqOf {}) ∧ frameIs lanesFull false false true false = true) ∧
    (∀ q ∈ [(0x01FF, { killed := true }, 0), (0x01FF, { completed := true }, 3), (0x01FF, {}, 0), (0x00FF, {}, 0), (0x01FF, {}, 2)],
      let s := issueUp q.1 q.2.1 q.2.2
      s.AtInstr 0 (s.lk 0) 0 0xE403 (.issue 3) ∧ (s.lk 0).flaws (issueKeys 0 3 ++ frameKeys 31) = [] ∧
        frameIs s q.2.1.killed q.2.1.completed false false = true) ∧
    Unit.ofCommand 1 = some .sym ∧ Unit.ofCommand 0 = none ∧
    (∀ q ∈ slotCases, (lkUp q.1 q.2.1).AtInstr 0 ((lkUp q.1 q.2.1).lk 0) 0 q.2.2.1 q.2.2.2) ∧
    (∀ k ∈ [0, 1, 3], (lkUp [] (slotCtx k)).slotState 0 0 3 = k) ∧
    (let s := frameUp [(0, 0x0001)] c0 {}
     s.AtInstr 0 (s.lk 0) 0 0x0001 .endCtx ∧ ((s.lk 0).heldBy 0).length = 1) := by
  have h : ∀ q ∈ slotCases, runs (lkUp q.1 q.2.1) q.2.2.1 (some q.2.2.2) = true := by decide +kernel
  have k : ∀ unit ∈ [0x01FF, 0x0900], runs (issueUp unit) 0xE403 (some (.issue 3)) = true ∧
      frameIs (issueUp unit) false false true false = true := by decide +kernel
  have m : ∀ q ∈ ([(0x01FF, { killed := true }, 0), (0x01FF, { completed := true }, 3), (0x01FF, {}, 0), (0x00FF, {}, 0), (0x01FF, {}, 2)] :
        List (Nat × Frame × Nat)),
      runs (issueUp q.1 q.2.1 q.2.2) 0xE403 (some (.issue 3)) = true ∧ ((issueUp q.1 q.2.1 q.2.2).lk 0).bad.isEmpty = true ∧
        frameIs (issueUp q.1 q.2.1 q.2.2) q.2.1.killed q.2.1.completed false false = true := by decide +kernel
  exact ⟨fun u hu => ⟨at_of_runs (k u hu).1, (k u hu).2⟩, by decide +kernel, by decide +kernel, rfl,
    ⟨at_of_runs (by decide +kernel), by decide +kernel, by decide +kernel, by decide +kernel⟩,
    fun q hq => ⟨at_of_runs (m q hq).1, no_flaws (m q hq).2.1 _, (m q hq).2.2⟩, rfl, rfl, fun q hq => at_of_runs (h q hq), by decide +kernel,
    at_of_runs (by decide +kernel), by decide +kernel⟩

/-! Registers, as P0 and as the last partition, of whose 16 rings of each kind the last is used. -/

/-- Partition 63, privileged, and the block that is up with that partition enabled: 16 rings of each kind, 32 vectors, KEYWRITE. -/
def p63 : Access := { ptn := 63, priv := true, dbg := false }
def par : State := (up.setReg .mgtPtnA 0xC0020410 63).setReg .mgtPtnB 0x1234 63

/-- Lockkeeper 7 in a state, its domain ON. -/
def lk7 (st : LkState) : State := (up.setDom 11 2).putLk 7 { state := st }

theorem w_lockkeeperManagement :
    ((lk7 .running).Carries p0 (RegId.lkCtrl.target 7 0) ∧ ((lk7 .running).lk 7).state = .running) ∧
    (∀ st ∈ [LkState.drained, .halted], (lk7 st).Carries p0 (RegId.lkCtrl.target 7 0) ∧ ((lk7 st).lk 7).state = st ∧
      (lk7 st).domOn (lkDomain 7) = true) ∧
    (let s := (lk7 .drained).updLk 0 (fun l => { l with state := .running })
     s.Carries p0 (RegId.lkCtrl.target 7 0) ∧ (s.store { id := .lkCtrl, i := 7 } 0x08).regF .lkCtrl 6 4 7 = 0 ∧
       (s.lk 0).state = .running ∧ (s.lk 7).state = .drained ∧ s.domOn (lkDomain 7) = true) ∧
    (let s := (lk7 .loading).updLk 7 (fun l => { l with cloneFrom := some 0 })
     (s.lk 7).cloneFrom = some 0 ∧ (s.lk 7).state = .loading ∧ (s.lk 0).state ≠ .halted ∧ (s.lk 7).onWake ≠ some none) ∧
    ((lkUp []).lk 0).dispatch.cur = some 0 ∧ ((lkUp []).lk 0).dispatch.serves = true ∧ ((lk7 .draining).lk 7).state = .draining ∧
    ((lk7 .draining).lk 7).after = .nothing := by
  decide +kernel

/-- Ring 15 of partition 63 of 16 entries in a state, with its tail and its head; the completion ring likewise. -/
def sqUp (st head tail : Nat) : State :=
  ((par.setReg .sqCfg 0x00F00004 63 15).setSqState 63 15 st).setReg .sqHead (BitVec.ofNat 32 head) 63 15
    |>.setReg .sqTail (BitVec.ofNat 32 tail) 63 15
def cqUp (st head tail : Nat) : State :=
  ((par.setReg .cqCfg 0x00002004 63 15).setCqState 63 15 st).setReg .cqHead (BitVec.ofNat 32 head) 63 15
    |>.setReg .cqTail (BitVec.ofNat 32 tail) 63 15

/-- Tails that fill the ring to its last entry and one beyond, and a tail of 2N. -/
theorem w_ringDoorbells :
    (∀ st ∈ [1, 4], (sqUp st 0 0).Carries p63 (RegId.sqDb.target 63 15) ∧ (sqUp st 0 0).sqState 63 15 = st) ∧
    (16 < 2 * (sqUp 1 0 0).sqSize 63 15 ∧ ringSub ((sqUp 1 0 0).sqSize 63 15) 16 ((sqUp 1 0 0).sqTail 63 15) +
      (sqUp 1 0 0).sqFill 63 15 ≤ (sqUp 1 0 0).sqSize 63 15) ∧
    ¬(ringSub ((sqUp 1 0 0).sqSize 63 15) 17 ((sqUp 1 0 0).sqTail 63 15) + (sqUp 1 0 0).sqFill 63 15 ≤ (sqUp 1 0 0).sqSize 63 15) ∧
    ¬(32 < 2 * (sqUp 1 0 0).sqSize 63 15) ∧
    (∀ st ∈ [0, 2, 3], (sqUp st 0 0).Carries p63 (RegId.sqDb.target 63 15) ∧ (sqUp st 0 0).sqState 63 15 = st) ∧
    (∀ st ∈ [0, 1, 2], (cqUp st 31 15).Carries p63 (RegId.cqDb.target 63 15) ∧ (cqUp st 31 15).cqState 63 15 = st) ∧
    (15 < 2 * (cqUp 1 31 15).cqSize 63 15 ∧ ringSub ((cqUp 1 31 15).cqSize 63 15) 15 ((cqUp 1 31 15).cqHead 63 15) ≤
      (cqUp 1 31 15).cqFill 63 15) ∧
    ¬(ringSub ((cqUp 1 31 15).cqSize 63 15) 16 ((cqUp 1 31 15).cqHead 63 15) ≤ (cqUp 1 31 15).cqFill 63 15) := by
  decide +kernel

/-- A retry that waits for RESUME. -/
def retryEntry : Retry := { ptn := 63, ring := 15, cq := 15, index := 3, data := zeros 16, place := .ringSlot }

theorem w_ringControl :
    (∀ st ∈ [0, 3], let s := (sqUp st 5 5).setB .sqCfg 16 true 63 15
      s.Carries p63 (RegId.sqCtrl.target 63 15) ∧ s.sqState 63 15 = st ∧ 15 < s.sqMax 63 ∧ s.regF .sqCfg 4 0 63 15 = 4 ∧
      s.regF .sqBaseLo 5 0 63 15 = 0 ∧ s.sqInPlace 63 15 = true ∧ ∀ r ∈ s.resets, r.ptn ≠ 63) ∧
    (let s := (((cqUp 1 0 0).setReg .sqCfg 0x00F00010 63 15).setReg .sqBaseLo 0xFFFFFFC0 63 15)
     s.sqState 63 15 = 0 ∧ s.regF .sqCfg 4 0 63 15 = 16 ∧ s.regF .sqBaseLo 5 0 63 15 = 0 ∧ s.cqState 63 (s.sqCq 63 15) = 1) ∧
    (∀ st ∈ [1, 4], (sqUp st 0 0).Carries p63 (RegId.sqCtrl.target 63 15) ∧ (sqUp st 0 0).sqState 63 15 = st) ∧
    ((cqUp 0 5 5).Carries p63 (RegId.cqCtrl.target 63 15) ∧ (cqUp 0 5 5).cqState 63 15 = 0 ∧ 15 < (cqUp 0 5 5).cqMax 63 ∧
      (cqUp 0 5 5).regF .cqCfg 4 0 63 15 = 4 ∧ (cqUp 0 5 5).regF .cqBaseLo 5 0 63 15 = 0) ∧
    ((cqUp 1 5 5).cqState 63 15 ≠ 2 ∧ (cqUp 1 5 5).cqNamed 63 15 = false ∧ (cqUp 1 5 5).cqWaits 63 15 = false) ∧
    (let s : State := { cqUp 2 5 5 with retries := [retryEntry] }
     s.Carries p63 (RegId.cqCtrl.target 63 15) ∧ s.cqState 63 15 = 2 ∧
       ∀ r ∈ s.retries, ¬(r.ptn = 63 ∧ r.cq = 15 ∧ (r.running = true ∨ r.wanted = true))) := by
  decide +kernel

/-- A request of ring 15 of partition 63. -/
def req63 : Req := { id := 9, ptn := 63, ring := 15, index := 31, desc := { flags := 4 } }

/-- An entry that waits for completion ring 15 of partition 63. -/
def waiting : Entry := { req := 9, ptn := 63, ring := 15, cq := 15, reqTag := 0x55, status := .ok, flags := 2, unit := 2, inst := 1, outLen := 32,
                         resultH := 0, irq := true }

theorem w_completionsAndInterrupts :
    (let r := { req63 with phase := .finished, place := .ringSlot }
     let s : State := { (cqUp 1 5 20).setReg .sqCfg 0x00F00004 63 15 with cu := [waiting], reqs := [r] }
     s.cqState 63 15 = 1 ∧ s.cqFill 63 15 < s.cqSize 63 15 ∧ s.cuOut = false ∧ s.writable 63 15 = some (s, waiting, r) ∧
       (s.issueWrite (.entry 63 15 15 20 false) 63 0 (waiting.bytes 0)).isSome = true) ∧
    (let r := { req63 with phase := .finished, result := some { status := .ok }, inPlaceStage := 2 }
     let s : State := { sqUp 1 31 5 with reqs := [r] }
     s.findReq 9 = some r ∧ s.cuOut = false ∧ (s.issueWrite (.inPlaceStatus 9) 63 (s.slotAddr r + 0x3C) (zeros 4)).isSome = true) ∧
    (let s : State := { (cqUp 1 0 5).setReg .cqCoalesce 0x6404 63 15 with coal := [(1023, { count := 1, time := 100 })] }
     s.regB .cqCfg 13 63 15 = true ∧ (getKey {} s.coal 1023).time ≠ 0) ∧
    (({ par with irqs := [{ ptn := 63, vec := 31 }] } : State).irqs.find? (fun m => m.ptn = 63) = some { ptn := 63, vec := 31 }) ∧
    par.held = false ∧
    (let r := { req63 with phase := .produced, result := some { status := .ok, out := zeros 200 }, bas := { outBanks := [0, 1] } }
     let s : State := { par with reqs := [r] }
     s.findReq 9 = some r ∧ s.badLink r true = none ∧ r.mayRelease = true ∧
       (s.issueWrites (.output 9) 63 0 (slice (zeros 200) 0 128)).isSome = true) ∧
    (({ req63 with phase := .running, bas := { outBanks := [0], holdBack := false, early := zeros 128 } } : Req).mayRelease = true) ∧
    (let s := (sqUp 2 0 1).setB .sqCfg 16 true 63 15
     s.sqState 63 15 = 2 ∧ s.sqAvail 63 15 ≠ 0 ∧ (63, 15) ∉ s.flushEnded ∧ s.sqInPlace 63 15 = true ∧
       (s.issueRead (.flush 63 15) 63 (s.sqBase 63 15) 64).isSome = true) ∧
    (let s := (((cqUp 1 0 0).setReg .sqCfg 0x00F00004 63 15).setSqState 63 15 2).setReg .sqTail 1 63 15
     s.sqState 63 15 = 2 ∧ s.sqAvail 63 15 ≠ 0 ∧ s.cqState 63 (s.sqCq 63 15) = 1 ∧ 0 < s.cqRoom 63 (s.sqCq 63 15) ∧ s.cu = []) := by
  decide +kernel

/-- The last read tag carries a beat and a half from an address 32 bytes into a beat; the last write tag carries an entry. -/
def readOf (got : Nat) : ReadXfer := { tag := 255, engine := 3, purpose := .input 9, ptn := 63, asid := 1, addr := 0x20, len := 96, got := got }
def writeOf : WriteXfer := { tag := 127, engine := 3, purpose := .entry 63 15 15 4 false, ptn := 63, asid := 1, addr := 0, data := zeros 16 }

theorem w_dmaResponses :
    (∀ got ∈ [0, 32], let s : State := { par with reads := [readOf got] }
      s.reads.find? (fun x => x.tag = 255) = some (readOf got) ∧ (readOf got).dead = false ∧ (readOf got).discard = false ∧
      s.reads.find? (fun x => x.tag = 255 && !x.dead) = some (readOf got)) ∧
    (readOf 0).got + ((readOf 0).useful (zeros 64)).length < (readOf 0).len ∧
    (readOf 32).len ≤ (readOf 32).got + ((readOf 32).useful (zeros 64)).length ∧
    (let s : State := { par with writes := [writeOf] }
     s.writes.find? (fun w => w.tag = 127) = some writeOf ∧ writeOf.dead = false ∧
       s.writes.find? (fun w => w.tag = 127 && !w.dead) = some writeOf) := by
  decide +kernel

/-! Resets, start-up and the register port. -/

theorem w_resetPins :
    (let s := { up with pins := { up.pins with coldLow := true } }
     s.pins.coldLow = true ∧ s.pins.warmLow = false) ∧
    (let s := { up with pins := { up.pins with warmLow := true } }
     s.pins.warmLow = true ∧ s.pins.coldLow = false) ∧
    (up.pins.coldLow = false ∧ up.pins.warmLow = false) ∧
    (∀ k ∈ [0, 1, 2], let s := { up with pins := { up.pins with blkRstReq := k } }
      s.pins.warmLow = false ∧ s.pins.blkRstReq = k) := by
  decide +kernel

/-- The block in another phase, its manifest stream open. -/
def loading (image : Bytes) : State :=
  let s := up.setF .mgtStatus 3 0 phLoad
  { s with boot := { s.boot with streaming := true, image := image } }

/-- The stream before its last word, at it, and at a header's end; an image that is no manifest; RELOAD and SV_COMMIT. -/
theorem w_startUpCommands :
    ((loading (zeros 240) ).boot.streaming = true ∧ ((loading (zeros 240)).boot.image ++ toLe 8 0).length < 256) ∧
    (256 ≤ ((loading (zeros 248)).boot.image ++ toLe 8 0).length ∧
      loadLen ((loading (zeros 248)).boot.image ++ toLe 8 0) ≤ ((loading (zeros 248)).boot.image ++ toLe 8 0).length) ∧
    (let b := zeros 8 ++ toLe 4 264 ++ zeros 236
     loadLen (b ++ toLe 8 0) = 256 ∨ 256 < loadLen (b ++ toLe 8 0)) ∧
    (let s := { (loading []).setF .mgtStatus 3 0 phVerify with boot := { image := zeros 256 } }
     s.phase = phVerify ∧ s.boot.badShadow = false ∧ ({ s with boot := { s.boot with badShadow := true } } : State).phase = phVerify ∧
       (s.imageFails s.boot.image false).isSome = true) ∧
    (let s := up.setF .mgtStatus 3 0 phRejected
     s.Carries p0 (RegId.mgtReload.target 0 0) ∧ s.phase = phRejected) ∧
    (let s := up.setReg .mgtImageSv 1
     s.Carries p0 (RegId.mgtSvCommit.target 0 0) ∧ s.regB .mgtSvCommit 0 = false ∧
       s.floorWords (numsFrom 0x020 4) (min (s.reg .mgtImageSv).toNat 128 - s.svFloor) ≠ []) := by
  decide +kernel

/-- A staged image of one section: CURVES, of no entries. -/
def stagedImage : Bytes := zeros 0x100 ++ toLe 4 6 ++ zeros 28

theorem w_stagingAndApply :
    (∀ k ∈ [1, 131072], let s := up.setReg .mgtStageLen (BitVec.ofNat 32 k)
      s.Carries p0 (RegId.mgtStage.target 0 0) ∧ 1 ≤ s.regF .mgtStageLen 17 0 ∧ s.regF .mgtStageLen 17 0 ≤ 131072) ∧
    (let s := { up.setReg .mgtStageStatus 2 with boot := { stage := zeros 256, stageUnits := [(2, 31), (3, 15)] } }
     s.regF .mgtStageStatus 3 0 = 2 ∧ s.boot.stageUnits.length = 2 ∧ (s.imageFails s.boot.stage true).isSome = true) ∧
    (∀ k ∈ [1, 0], let s := up.setReg .mgtApplyStatus (BitVec.ofNat 32 k)
      s.Carries p0 (RegId.mgtApply.target 0 0) ∧ s.regF .mgtApplyStatus 1 0 = k ∧ s.regF .mgtStageStatus 3 0 ≠ 3) ∧
    (let s := { up.setReg .mgtStageStatus 3 with boot := { stage := stagedImage } }
     s.Carries p0 (RegId.mgtApply.target 0 0) ∧ s.regF .mgtApplyStatus 1 0 ≠ 1 ∧ s.regF .mgtStageStatus 3 0 = 3 ∧
       (imageSections s.boot.stage).length ≤ 31) ∧
    (let s := { (lk7 .loading).updLk 7 (fun l => { l with after := .load false [] }) with
        boot := { job := some { kind := 1, data := [], left := [7], begun := true } } }
     (s.boot.job.map (·.left.head?)) = some (some 7) ∧ (s.lk 7).after = .load false [] ∧ (s.lk 7).state = .loading ∧ (s.lk 7).cloneFrom = none ∧
       s.domOn (lkDomain 7) = true) := by
  decide +kernel

/-- A register by its address, the broadcast of one, and its group alias. -/
theorem w_carriedWrites :
    (portAddr 0x1000 = true ∧ up.Carries p0 (targetOf 0x1000) ∧ aliasAt 0x1000 = none ∧
      regAt 0x1000 = some { id := .mgtPtnA, i := 0, j := 0 }) ∧
    (∃ y, aliasAt 0x54000C = some y ∧ y.group = false ∧ portAddr 0x54000C = true ∧ up.Carries p0 (targetOf 0x54000C)) ∧
    (∃ y, aliasAt 0x5C000C = some y ∧ y.group = true ∧ portAddr 0x5C000C = true ∧ up.Carries p0 (targetOf 0x5C000C)) := by
  refine ⟨by decide +kernel, ⟨_, rfl, ?_⟩, ⟨_, rfl, ?_⟩⟩ <;> decide +kernel

theorem w_portReads :
    (∀ q ∈ [(RegId.lifCalLo, RegId.lifCalHi), (.hbsRecHighLo, .hbsRecHighHi)],
      ∀ x ∈ [({ id := q.1 } : RegRef), { id := q.2 }], let a := x.addr
        portAddr a = true ∧ aliasAt a = none ∧ regAt a = some x ∧ up.judge p0 false (targetOf a) = .okay ∧
          latchedHalf q.1 = some q.2 ∧ isLatched q.2 = true) ∧
    (let s := up.setReg .rngDataStatus 1
     (∀ k ∈ [[], [1, 2, 3, 4, 5, 6], [0, 1, 2, 3, 4, 5, 6]], let t := { s with rng := { s.rng with read := k } }
       t.judge p0 false (RegId.rngData.target 7 0) = .okay ∧ t.regB .rngDataStatus 0 = true ∧ 7 ∉ t.rng.read) ∧
     7 ∈ ({ s with rng := { s.rng with read := [7] } } : State).rng.read) ∧
    (up.judge p0 false (RegId.rngData.target 0 0) = .okay ∧ up.regB .rngDataStatus 0 = false) := by
  decide +kernel

/-- An access by a partition to the management window, an empty address of it, and the end of the aperture. -/
theorem w_refusedAccessesAreLogged :
    portAddr 0x0FFFFC = true ∧ portAddr 0xFFFFFC = true ∧
    up.judge p63 false (targetOf 0x0FFFFC) = .refused ∧ up.judge p63 true (targetOf 0x0FFFFC) = .refused ∧
    up.judge p0 false (targetOf 0x0FFFFC) = .unmapped ∧ up.judge p0 true (targetOf 0xFFFFFC) = .unmapped := by
  decide +kernel

/-- The ends of the windows: what a requester with the right may do, and what one without it may not. -/
theorem w_accessRights :
    up.phase = phReady ∧ up.safe = false ∧ p63.dbg = false ∧
    (∀ a ∈ [0, 0x0FFFFC, 0x500000, 0x6FFFFC], up.judge p0 true (targetOf a) ≠ .refused ∧ up.judge p63 true (targetOf a) = .refused) ∧
    (∀ a ∈ [0x700000, 0x7FFFFC], up.judge p0 true (targetOf a) = .refused ∧
      (up.setF .lcStatus 2 0 lcBlank).judge p0 true (targetOf a) ≠ .refused) ∧
    (∀ a ∈ [0x4F0000, 0x4FFFFC], par.judge p63 false (targetOf a) ≠ .refused ∧ up.judge p63 false (targetOf a) = .refused ∧
      par.judge p0 false (targetOf a) = .refused) ∧
    (∀ r ∈ [RegId.sqDb, .cqDb], par.judge { p63 with priv := false } true (targetOf (r.addr 63 15)) = .okay) ∧
    (∀ r ∈ [RegId.keyStage, .keyStageAttr, .keyCommit], par.judge p63 true (targetOf (r.addr 63 0)) = .okay ∧
      (par.setB .mgtPtnA 30 false 63).judge p63 true (targetOf (r.addr 63 0)) = .refused) ∧
    par.judge { p63 with priv := false } true (targetOf (RegId.sqCtrl.addr 63 15)) = .refused := by
  decide +kernel

/-- A free identifier and quotas, and one that another partition has. -/
theorem w_partitionTableWrites :
    (∀ r ∈ [RegId.mgtPtnA, .mgtPtnB, .mgtPtnC], up.Carries p0 (targetOf (r.addr 63 0)) ∧ up.locked r = false) ∧
    up.boot.job = none ∧ up.entryCode (up.entryWith 63 1 0x1234) = none ∧
    (let s := ((par.setB .mgtPtnA 31 true 62))
     (s.entryCode (s.entryWith 62 1 0x1234)).isSome = true) := by
  decide +kernel

/-! The scheduler, dispatch and suspension. -/

/-- A ring with one descriptor to fetch, and Lockkeeper 7 free to take it. -/
def grantable : State :=
  ({ sqUp 1 5 6 with power := ((numsFrom 11 14).foldl (fun s d => s.setDom d 2) up).power } : State).putLk 7 { state := .running, go := true }

/-- A whole single descriptor that waits for a frame of Lockkeeper 7, of which frame 31 alone is free. -/
def fetched : Fetch := { ptn := 63, ring := 15, got := [(5, zeros 64, false)], reading := false }
def arriving : State := (up.setDom 11 2).putLk 7
  { state := .running, frames := List.replicate 31 { valid := true } ++ [{}], fetch := some fetched }

theorem offer_of_unreserved {s : State} (h : s.rsvEntries = []) (lk t : Nat) : s.offer lk t = s.sharedRing := by
  simp [State.offer, State.sliceOf, h]

theorem w_grant (t : Nat) :
    let u := ({ grantable.drawn with sched := { grantable.drawn.sched with
      eligible := grantable.drawn.sched.eligible.filter grantable.drawn.ptnEligible } } : State)
    grantable.held = false ∧ grantable.phase = phReady ∧ grantable.accepts 7 = true ∧
    (∀ d ∈ grantable.grantDomains 7, grantable.domOn d = true) ∧ ((u.guardFloors t).offer 7 t).isSome = true := by
  refine ⟨by decide +kernel, by decide +kernel, by decide +kernel, by decide +kernel, ?_⟩
  simp only [State.guardFloors]
  split <;> (rw [offer_of_unreserved (by decide +kernel)]; decide +kernel)

theorem w_grantsAndArrivals :
    (arriving.held = false ∧ (arriving.lk 7).fetch = some fetched ∧ fetched.complete = true ∧ (arriving.lk 7).serves = true ∧
      (Desc.ofBytes (zeros 64)).chain = false ∧ ((enumFrom 0 (arriving.lk 7).ctxs).find? (fun e => e.2.state == .idle)).isSome = true ∧
      (arriving.lk 7).freeRun 1 = some 31 ∧
      towFault ((arriving.placeFrame 7 0 31 fetched none 0 (5, zeros 64, false)).reqsOf [arriving.nextReq]) = none) ∧
    (let s := (frameUp [] { state := .waitAdmit 31 } {}).updLk 0 (fun l => { l with ctxs := [{ state := .waitAdmit 31 }] })
     s.held = false ∧ ((s.lk 0).ctx 0).state = .waitAdmit 31 ∧ (s.findReq ((s.lk 0).frame 31).req).bind s.admitWith ≠ none) := by
  decide +kernel

/-- A COPY that waits on lane 928 with its input there, as DMA engine 3 may take it. -/
def copyReq : Req := { reqOf { opcode := 2, srcLen := 200, dstLen := 200 } with
  phase := .queued, unit := .dma, want := 3, bas := { lane := some 928, granted := true, inBanks := [0, 1], credited := 2, limitIn := 1024, limitOut := 1, input := zeros 200 } }

/-- The same before its cells are granted. -/
def unfedReq : Req := { copyReq with bas := { lane := some 928, limitIn := 1, limitOut := 1 } }

theorem w_dispatchToUnits :
    (let r := { copyReq with ready := false }
     let s : State := { up with reqs := [r] }
     s.findReq 5 = some r ∧ r.phase = .queued ∧ r.ready = false ∧ s.depsDone r = true ∧ s.fenceOpen r = true) ∧
    (let s : State := { up with reqs := [unfedReq] }
     s.firstWaiting = some unfedReq ∧ s.canGrant 1 1 = true ∧ (s.takeCells 1 s.basin.free s.basin.next).isSome = true) ∧
    (let s : State := { up with reqs := [copyReq] }.setDom 15 2
     s.findReq 5 = some copyReq ∧ copyReq.ready = true ∧ s.held = false ∧ s.startFault copyReq = none ∧ s.inService .dma 3 = true ∧
       copyReq.weirReached = true ∧ copyReq.sizeKnown = true ∧ s.waitsKeep copyReq = false ∧ s.badLink copyReq false = none ∧ s.drawn.mayStart copyReq 3 (s.pick % 1000) = true ∧
       (∀ d ∈ s.drawn.startDomains copyReq 3 (s.pick % 1000), s.drawn.domOn d = true) ∧ s.drawn.needsRandom copyReq = false) ∧
    (let s : State := { up with reqs := [copyReq], outMarks := [(6, 3)] }
     s.held = false ∧ (s.startFault copyReq).isSome = true) := by
  decide +kernel

theorem w_framesAndSettings :
    up.phase = phReady ∧ up.countViolations.sched.captured = none ∧
    (up.Carries p0 (RegId.qosCtrl.target 0 0) ∧ up.qosFails up.shadowSet = 0) ∧
    (let s := up.setReg .qosRsvA 0x80000000 0
     s.Carries p0 (RegId.qosCtrl.target 0 0) ∧ s.qosFails s.shadowSet ≠ 0) ∧
    up.Carries p0 (RegId.qosViolCtrl.target 0 0) := by
  decide +kernel

/-- An ENCRYPT on core 0 with berth 0, and an urgent one that waits. -/
def cipherReq (ph : Phase) : Req :=
  { reqOf { opcode := 0x10, alg := 0x02, srcLen := 64 } with phase := ph, unit := .sym, berth := some 0 }
def urgentReq : Req := { copyReq with id := 6, unit := .sym, want := 0xFF, urgent := true, desc := { opcode := 0x10, alg := 0x02 } }

/-- A signature of partition 1 on engine 2. -/
def signReq (ph : Phase) : Req := { reqOf { opcode := 0x45 } with phase := ph, unit := .ply, inst := 2 }

/-- Partition 1 isolated, with an interval of half a frame on engine 2. -/
def isolated1 : State :=
  { up.setB .mgtPtnA 28 true 1 with sched := { running := { rsvA := [(0, 0x81030002)], rsvB := [(0, 0x01F40000)] } } }

/-- The RNG ready, and the domains of the cipher cores and of berth bank 0 on. -/
def upRandom : State := ((numsFrom 39 12) ++ [25]).foldl (fun s d => s.setDom d 2) (up.setF .rngStatus 2 0 rngReady)

theorem w_suspensionAndPauses :
    (let s : State := { upRandom with reqs := [cipherReq .running, urgentReq], outMarks := (numsFrom 1 47).map (fun n => (1, n)) }
     let v := s.drawn
     v.urgentStuck (s.pick % 1000) = some urgentReq ∧ v.suspendChoice urgentReq (s.pick % 1000) = some (cipherReq .running) ∧
       v.findReq 5 = some (cipherReq .running) ∧ v.suspendable (cipherReq .running) = true ∧
       v.coreUsable urgentReq 0 (s.pick % 1000) = true) ∧
    (let s : State := { upRandom with reqs := [cipherReq .suspended] }
     let v := s.drawn
     v.findReq 5 = some (cipherReq .suspended) ∧ (v.resumeCores (cipherReq .suspended) (s.pick % 1000)).length = 48 ∧
       ∀ n ∈ v.resumeCores (cipherReq .suspended) (s.pick % 1000), ∀ d ∈ v.drawn.startDomains (cipherReq .suspended) n (s.pick % 1000), v.drawn.domOn d = true) ∧
    (let r := { signReq .running with desc := { (signReq .running).desc with param := 0x80000000 } }
     let s : State := ({ isolated1 with reqs := [r] } : State).updPly 2 (fun p => { p with
       run := some { req := 5, set := [], entry := 0, pc := 0, q := 1, iters := r.iterBound } })
     s.findReq 5 = some r ∧ s.isolated 1 = true ∧ r.desc.op = some .mldsaSign ∧ s.unitIntervals 1 3 2 ≠ [] ∧
       (∀ e ∈ s.unitIntervals 1 3 2, e.2 < 1000) ∧ s.overruns r = true) ∧
    (let s : State := { isolated1 with reqs := [signReq .paused] }
     s.findReq 5 = some (signReq .paused) ∧ s.unitIntervals 1 3 2 ≠ []) ∧
    (let s : State := ({ up with reqs := [signReq .running] } : State).updPly 2 (fun p => { p with
       run := some { req := 5, set := [], entry := 0, pc := 0, q := 1 } })
     s.findReq 5 = some (signReq .running) ∧ (s.ply 2).run.map (·.req) = some 5) ∧
    (let s : State := { up with reqs := [signReq .queued] }
     s.findReq 5 = some (signReq .queued) ∧ s.held = false ∧ s.needsRandom (signReq .queued) = true ∧ s.rngState ≠ rngReady) := by
  decide +kernel

/-! Operations: request 5 runs, as the only member of its tow, whose hold 0 holds a key and whose hold 1 takes a result. What rests on
the functions of the cited standards is left out of these witnesses: no proof evaluates them. -/

def tow2 : Tow := { id := 2, ptn := 1, ring := 3, members := [5], admitted := true,
                    holds := { bytes := List.replicate 512 1, len := 512 } :: List.replicate 7 ({} : Hold) }

/-- The handles of hold 0 as a key and of hold 1 and slot 7 as result targets. -/
def kH : W32 := 0x40000000
def rH : W32 := 0x40000001
def sH : W32 := 0x10000007

def opReq (o : Op) (d : Desc) (input : Bytes) : Req :=
  { reqOf { d with opcode := BitVec.ofNat 8 o.code } with
    phase := .running, unit := o.unit, tow := some 2, bas := { input := input } }

/-- Partition 1 with quotas, and slot 7 RESERVED for a derived key. -/
def opUp (o : Op) (d : Desc) (input : Bytes) : State :=
  { (up.setReg .mgtPtnA 0xC0020410 1).setReg .mgtPtnC 0x00100010 1 with
    reqs := [opReq o d input], tows := [tow2], keys := [(7, { state := .reserved, owner := 1, usage := usDerive, len := 32 })] }

/-- The request runs, and its source is there. -/
def runsOp (o : Op) (d : Desc) (input : Bytes) : Bool :=
  decide ((opUp o d input).Runs 5 (opReq o d input) o) && ((opUp o d input).srcOf (opReq o d input)).toOption.isSome &&
    !(opReq o d input).poison

/-- It runs, and holds its key. -/
def keysOp (o : Op) (d : Desc) (input : Bytes) (n : KeyNeed) (c : List Nat := [0]) : Bool :=
  runsOp o d input && ((opUp o d input).keyed (opReq o d input) n c).isSome

/-- A result of `n` bytes may go where RESULT_H says. -/
def takesOp (o : Op) (d : Desc) (input : Bytes) (usages : List Nat) (n : Nat) : Bool :=
  decide ((opUp o d input).resultFault (opReq o d input) 0 usages n = none) && ((opUp o d input).resolve (opReq o d input) d.resultH).isSome

/-- CTR, GCM and CMAC with AES-256, from a berth and from a key. -/
def symDesc (alg : Byte) : Desc :=
  { alg := alg, keyH := kH, auxLen := if alg = 0x63 then 0 else 16, srcLen := 48, dstLen := 64, param := 0x610 }

theorem w_cipherOperations : ∀ q ∈ ([(.encrypt, 0x23, 1), (.decrypt, 0x23, 2), (.aeadSeal, 0x33, 1), (.aeadOpen, 0x33, 2), (.macGenerate, 0x63, 5),
    (.macVerify, 0x63, 5)] : List (Op × Byte × Nat)),
    keysOp q.1 (symDesc q.2.1) (zeros 64) { usages := [q.2.2], lens := [32], holdLen := some 32 } = true ∧
    (let d : Desc := { symDesc q.2.1 with opcode := BitVec.ofNat 8 q.1.code }
     let g : Segment := { key := zeros 32, cb := [], acc := [], accTop := 0, auxk := [], hsub := [], iv := zeros d.ivLen, aad := []
                          data := zeros (48 - d.srcTag), blocks := 0, aadBytes := 0 }
     segmentFault d (zeros 48) g false = none ∧ counterFault {} d 0 g.iv g.data.length = none) := by
  decide +kernel

theorem w_berthOperations :
    (keysOp .berthSetup (symDesc 0x23) (zeros 16) { usages := setupUsages 2 2, lens := [32], holdLen := some 32 } = true ∧
      setupParams 2 [] = some {} ∧ (setupParams 3 (zeros 32)).isSome = true ∧
      ((opUp .berthSetup (symDesc 0x23) []).berthTarget (opReq .berthSetup (symDesc 0x23) [])).toOption.isSome = true) ∧
    (∀ o ∈ [Op.berthSealOut, .berthRelease], runsOp o {} [] = true) ∧
    (let d : Desc := { srcLen := 304 }
     ∀ p ∈ [1, 2], let src := toLe 4 1 ++ toLe 1 p ++ zeros 299
      runsOp .berthSealIn d src = true ∧ le32 src 0 = 1 ∧ byteAt src 5 ≤ 1 ∧ allZero (slice src 6 2) = true ∧
      allZero (slice src 0x1C 4) = true ∧ byteAt src 4 = p) ∧
    (opUp .berthSealIn {} []).allocBerth 1 ≠ none := by
  decide +kernel

theorem w_berthAndQueueManagement :
    (∀ k ∈ [0x80000000, 0xBF000001], up.Carries p0 (RegId.brtCtrl.target 0 0) ∧ (up.store { id := .brtCtrl } (BitVec.ofNat 32 k)).regF .brtCtrl 29 24 =
      fld (BitVec.ofNat 32 k) 29 24) ∧
    (∀ q ∈ [0x7E0, 0x7E1], up.Carries p0 (RegId.bsnQctrl.target q 0)) ∧ up.regB .bsnErr 23 = false ∧
    (∀ ph ∈ [Phase.queued, .running, .suspended, .paused, .produced, .posted],
      let r := { copyReq with phase := ph, bas := { copyReq.bas with lane := some 1007 } }
      let s : State := { up with reqs := [r] }
      s.Carries p0 (RegId.bsnQctrl.target 2015 0) ∧ s.laneReq (2015 / 2) = some r ∧ r.phase = ph) ∧
    up.laneReq (2015 / 2) = none ∧
    (∀ st ∈ [[], [3, 3]], let s := { up.setB .bsnErr 23 true with basin := { up.basin with stray := st } }
      s.regB .bsnErr 23 = true ∧ s.basin.stray = st) := by
  decide +kernel

theorem w_digestsAndMacs :
    runsOp .hash { alg := 0x11, srcLen := 5, dstLen := 32 } (zeros 5) = true ∧
    runsOp .xof { alg := 0x19, srcLen := 5, dstLen := 32, param := 32 } (zeros 5) = true ∧
    (runsOp .xof { alg := 0x1A, srcLen := 5, auxLen := 4, dstLen := 32, param := 32 } (zeros 21) = true ∧
      (cshakeStrings (zeros 4)).isSome = true) ∧
    (∀ o ∈ [Op.hmacGenerate, .kmacGenerate, .hmacVerify, .kmacVerify],
      let d : Desc := { alg := if o = .hmacGenerate ∨ o = .hmacVerify then 0x01 else 0x1D, keyH := kH, srcLen := 64, dstLen := 32, param := 32 }
      keysOp o d (zeros 64) (macNeed { d with opcode := BitVec.ofNat 8 o.code }) = true ∧
      ({ d with opcode := BitVec.ofNat 8 o.code } : Desc).macLen ≤ 64) := by
  decide +kernel

theorem w_keyDerivationFunctions : ∀ o ∈ [Op.hkdf, .hkdfExtract, .hkdfExpand, .kdf108, .kdf56cOneStep, .kdf56cTwoStep],
    (∀ hold ∈ [0, 1], let d : Desc := { alg := 0x01, keyH := kH, flags := BitVec.ofNat 16 (16 * hold), auxLen := 4, dstLen := 32,
                                         resultH := if hold = 0 then sH else 0, param := 32 }
      keysOp o d (zeros 20) { usages := [usDerive] } = true ∧ kdfKeyShort o d (List.replicate 512 1) = false ∧
      kdfAuxFault o d (zeros 4) = none ∧ d.holdOut = (hold == 1) ∧
      (hold = 0 → takesOp o d (zeros 20) [1, 2, 3, 4, 5, 6] 32 = true)) := by
  decide +kernel

theorem w_slhDsaOperations : ∀ alg ∈ [0x01, 0x04, 0x09, 0x0C],
    let n := slhN alg
    let d : Desc := { alg := BitVec.ofNat 8 alg, keyH := kH, resultH := rH, dstLen := 60000 }
    (runsOp .slhdsaKeygen d [] = true ∧ takesOp .slhdsaKeygen d [] [usSign] (4 * n) = true) ∧
    (∀ hedged ∈ [0, 1], let d : Desc := { d with param := BitVec.ofNat 32 hedged, srcLen := 32 }
      keysOp .slhdsaSign d (zeros 32) { usages := [usSign], lens := [4 * n], holdLen := some (4 * n) } = true ∧
      signedLenOk d 32 0 = true ∧ d.hedged = (hedged == 1)) ∧
    (let d : Desc := { d with auxLen := BitVec.ofNat 32 (2 * n), srcLen := 64 }
     runsOp .slhdsaVerify d (zeros (2 * n + 64)) = true) := by
  decide +kernel

/-! Stateful signatures. Where a statement asks that a blob's tag, a key's identifier or the length of a signature fit, no proof can
evaluate it; the parts that rest on the state and the descriptor alone are here. -/

/-- A record of the keep domain whose last index is the next, and one below its mark. -/
def rec0 (next high limit : Nat) : HbsRec := { state := 1, keyId := zeros 16, owner := 1, kind := 1, next := next, high := high, limit := limit }

/-- A key of 48 bytes in slot 8, or one of 128 in slots 8 and 9, with record 1; and a place for such a key in slot 10, or in 10 and 11. -/
def hbsUp (o : Op) (d : Desc) (input : Bytes) (x : HbsRec) (pair : Bool) (n : Nat) : State :=
  let s := (opUp o d input).putRec 1 x
  let k : KeySlot := { state := .valid, owner := 1, usage := usSign, kind := 2, recNo := 1, len := if pair then 128 else 48, payload := zeros 64 }
  let q : KeySlot := { state := .reserved, owner := 1, usage := usSign, kind := 2, len := n }
  { s with keys := s.keys ++ (if pair then [(8, { k with pair := 1 }), (9, { k with pair := 2 }), (10, { q with pair := 1 }), (11, { q with pair := 2 })]
                              else [(8, k), (10, q)]) }

/-- An auxiliary buffer as it stands in an item (R221). -/
def padded (b : Bytes) : Bytes := b ++ zeros ((16 - b.length % 16) % 16)

/-- An LMS public key of H5 and W8 with a signature of its length, and an XMSS-SHA2_10_256 public key with one of its. -/
def lmsPub : Bytes := [0, 0, 0, 5, 0, 0, 0, 4] ++ zeros 48
def lmsSig : Bytes := zeros 7 ++ [4] ++ zeros 1120 ++ [0, 0, 0, 5] ++ zeros 160
def xmssPub : Bytes := [0, 0, 0, 1] ++ zeros 64

theorem w_statefulSignatures :
    (∀ q ∈ ([(.hssSign, 0x20, false), (.xmssSign, 0x30, true)] : List (Op × Byte × Bool)),
      let d : Desc := { alg := q.2.1, keyH := 0x10000008, auxLen := 0x60, srcLen := 32, dstLen := 0x2000 }
      let s := hbsUp q.1 d (zeros 128) (rec0 6 7 8) q.2.2 48
      let given := { opReq q.1 d (zeros 128) with stateIndex := some 6 }
      decide (s.Runs 5 (opReq q.1 d (zeros 128)) q.1) = true ∧ (opReq q.1 d (zeros 128)).stateIndex = none ∧ (rec0 6 7 8).state ≠ 2 ∧
      decide (({ s with reqs := [given] } : State).Runs 5 given q.1) = true ∧
      (s.recOf (zeros 16) = some 1 ∧ le64 (zeros 96) 0x18 ≤ (s.hbsRec 1).next ∧ (s.hbsRec 1).next < (s.hbsRec 1).high ∧
        (s.hbsRec 1).next ≠ (s.hbsRec 1).limit) ∧
      (s.hbsRec 1).next < le64 (zeros 0x18 ++ [7] ++ zeros 71) 0x18) ∧
    (∀ q ∈ ([(.hssVerify, 0x21, lmsPub, lmsSig), (.xmssVerify, 0x30, xmssPub, zeros 2500)] : List (Op × Byte × Bytes × Bytes)),
      let d (n : Nat) : Desc := { alg := q.2.1, auxLen := BitVec.ofNat 32 q.2.2.1.length, srcLen := BitVec.ofNat 32 n, param := BitVec.ofNat 32 n }
      runsOp q.1 (d 4) (padded q.2.2.1 ++ zeros 4) = true ∧ runsOp q.1 (d q.2.2.2.length) (padded q.2.2.1 ++ q.2.2.2) = true ∧
      hbsPubListed q.2.1.toNat (zeros 60) = false ∧ hbsPubListed q.2.1.toNat q.2.2.1 = true ∧ q.2.2.1.length = hbsPubLen q.2.1.toNat q.2.2.1 ∧
      hbsSigFlaw q.2.1.toNat q.2.2.1 (zeros 4) = some .mismatch ∧ hbsSigFlaw q.2.1.toNat q.2.2.1 q.2.2.2 = none) ∧
    (∀ q ∈ ([(.hssKeygen, 0x21, [0, 0, 0, 1, 0, 0, 0, 5, 0, 0, 0, 4], false, 48), (.xmssKeygen, 0x30, [0, 0, 0, 1], true, 128)] :
        List (Op × Byte × Bytes × Bool × Nat)),
      let d : Desc := { alg := q.2.1, auxLen := BitVec.ofNat 32 q.2.2.1.length, resultH := 0x1000000A, dstLen := 0x8000 }
      let r := opReq q.1 d (padded q.2.2.1)
      let s := hbsUp q.1 d (padded q.2.2.1) (rec0 6 7 8) q.2.2.2.1 q.2.2.2.2
      decide (s.Runs 5 r q.1) = true ∧ r.result = none ∧ r.poison = false ∧ hbsKeygenFault r.desc r.aux = none ∧
      s.resultFault r 2 [usSign] (hbsKeyLen r.desc.algN r.aux) = none ∧ s.recFor.isSome = true ∧ s.keep.carried ≠ 2048 ∧
      (s.resolve r r.desc.resultH).isSome = true) ∧
    (let s : State := { up with hbs := { up.hbs with scan := some (rec0 0 0 8) } }
     s.hbs.scan = some (rec0 0 0 8) ∧ highestOf (s.logMarks []) (zeros 16) = none ∧ s.recFor = some 0) ∧
    (∀ p ∈ [LogFor.window (zeros 16), .commit], let a : Append := { purpose := p, high := 16, gen := 0, words := [] }
      let s : State := { up.putRec 0 (rec0 16 16 32) with hbs := { up.hbs with appends := [a] } }
      s.hbs.appends = a :: [] ∧ a.purpose = p ∧ s.recOf (zeros 16) = some 0) ∧
    (let c : Compact := { scanning := true, cells := [0] }
     ({ up with hbs := { up.hbs with compact := some c } } : State).hbs.compact = some c ∧ c.scanning = true ∧ c.cells ≠ [] ∧
       lookupKey 0x7E1 up.basin.badLinks = none ∧ c.bad = []) := by
  decide +kernel

/-- A log with the record of one mark (R299): its tag holds, whatever the log key. -/
theorem w_logMarks : highestOf (up.logMarks (up.logWords 0x5033 1 0 (zeros 16) 1024)) (zeros 16) = some 1024 := by
  rw [logMarks_logWords up 1 0 1024 (zeros 16) (by omega) (by omega) (by omega) rfl]
  decide

/-! The polynomial engines: a set of one polynomial of 256 coefficients, PK_LEN 32 and CT_LEN 48, loaded into engine 15. -/

/-- The set descriptor of an ALG and a family, every entry at word 8 and the iteration entry at 9; q, ITER_MAX and CONST at word 16. -/
def latSet (alg fam : Nat) : RecipeSet :=
  toLe 1 alg ++ toLe 1 fam ++ [0x07, 1] ++ toLe 2 256 ++ [1, 1] ++ toLe 4 3329 ++ toLe 2 32 ++ toLe 2 48 ++ [32, 0] ++ toLe 2 4 ++
    (List.replicate 5 (toLe 2 8)).flatten ++ toLe 2 9 ++ zeros 72 ++ toLe 2 16 ++ toLe 2 8 ++ zeros 20

/-- The block with that set in every engine, and the request on engine 15. -/
def latReq (o : Op) (d : Desc) (input : Bytes) : Req := { opReq o d input with inst := 15 }
def latUp (o : Op) (d : Desc) (input : Bytes) (fam : Nat) : State :=
  { opUp o d input with
    reqs := [latReq o d input], plys := List.replicate 16 { rcp := { sets := [latSet d.algN fam] } } }
def latRuns (o : Op) (d : Desc) (input : Bytes) (fam order : Nat) : Bool :=
  decide ((latUp o d input fam).Runs 5 (latReq o d input) o) && decide ((latUp o d input fam).recipeFlaws (latReq o d input) o = []) && ((latUp o d input fam).srcOf (latReq o d input)).toOption.isSome &&
    (latUp o d input fam).orderOk (latReq o d input) o order
def latKeyed (o : Op) (d : Desc) (input : Bytes) (fam usage len : Nat) : Bool :=
  latRuns o d input fam 2 && ((latUp o d input fam).keyed (latReq o d input) { usages := [usage], lens := [len], holdLen := some len }).isSome
def latTakes (o : Op) (d : Desc) (input : Bytes) (fam usage len : Nat) : Bool :=
  decide (((latUp o d input fam).plyDone (latReq o d input)).resultFault (latReq o d input) 0 [usage] len = none) &&
    (((latUp o d input fam).plyDone (latReq o d input)).resolve (latReq o d input) d.resultH).isSome

/-- A linked berth 3 of partition 1 for ALG 0x91. -/
def linked : Berth := { state := .idle, owner := 1, alg := 0x91, key := zeros 64 }

theorem w_latticeOperations :
    (∀ own ∈ [0, 1], let d : Desc := { alg := 0x80, resultH := rH, param := BitVec.ofNat 32 own, dstLen := 48, srcLen := 0, auxLen := if own = 1 then 64 else 0 }
      latRuns .mlkemKeygen d (zeros d.auxLen.toNat) 1 ((latUp .mlkemKeygen d (zeros d.auxLen.toNat) 1).targetOrder (latReq .mlkemKeygen d (zeros d.auxLen.toNat))) = true ∧
      latTakes .mlkemKeygen d (zeros d.auxLen.toNat) 1 usDecap 64 = true) ∧
    (let d : Desc := { alg := 0x80, resultH := sH, srcLen := 32, dstLen := 48 }
     latRuns .mlkemEncaps d (zeros 32) 1 0 = true ∧ latTakes .mlkemEncaps d (zeros 32) 1 usDerive 32 = true) ∧
    (let d : Desc := { alg := 0x80, keyH := kH, resultH := sH, srcLen := 48 }
     latKeyed .mlkemDecaps d (zeros 48) 1 usDecap 64 = true ∧ (latUp .mlkemDecaps d (zeros 48) 1).plyCt (latReq .mlkemDecaps d (zeros 48)) .mlkemDecaps = 48 ∧
      latTakes .mlkemDecaps d (zeros 48) 1 usDerive 32 = true) ∧
    (∀ own ∈ [0, 4], let d : Desc := { alg := 0x81, resultH := rH, param := BitVec.ofNat 32 own, dstLen := 48, auxLen := if own = 4 then 32 else 0 }
      latRuns .mldsaKeygen d (zeros d.auxLen.toNat) 2 ((latUp .mldsaKeygen d (zeros d.auxLen.toNat) 2).targetOrder (latReq .mldsaKeygen d (zeros d.auxLen.toNat))) = true ∧
      latTakes .mldsaKeygen d (zeros d.auxLen.toNat) 2 usSign 32 = true) ∧
    (∀ o ∈ [Op.mldsaSign, .mldsaSignMu], let d : Desc := { alg := 0x11, keyH := kH, srcLen := 64, dstLen := 48, param := 1 }
      latKeyed o d (zeros 64) 2 usSign 32 = true ∧ dsaMsgOk o d 64 = true ∧ d.cache = false ∧ (latReq o d (zeros 64)).berth = none ∧
      (let r : Req := { latReq o d (zeros 64) with berth := some 3 }
       let s : State := { latUp o d (zeros 64) 2 with reqs := [r], berths := [(3, linked)] }
       s.Runs 5 r o ∧ s.recipeFlaws r o = [] ∧ s.linkedFault r 3 = none ∧ (s.srcOf r).toOption.isSome = true ∧ s.orderOk r o (s.berth 3).linkOrder = true)) ∧
    (∀ o ∈ [Op.mldsaVerify, .mldsaVerifyMu],
      latRuns o { alg := 0x81, auxLen := 32, srcLen := 112 } (zeros 144) 2 1 = true) := by
  decide +kernel

/-! Recipes: engine 15 runs the set's program of one micro-command at word 8. -/

/-- The word of a micro-command (R331). -/
def mw (op d a b x : Nat) : W32 := BitVec.ofNat 32 (op * 2 ^ 26 + d * 2 ^ 19 + a * 2 ^ 12 + b * 2 ^ 5 + x)

def runOf (alg fam : Nat) (reject : Bool) (iters : Nat) : RecipeRun :=
  { req := 5, set := latSet alg fam, entry := 0, pc := 8, q := 3329, reject := reject, iters := iters }

/-- ML-KEM encapsulation with a set of its own, or a verification, at the micro-command `w`. -/
def recUp (o : Op) (w : W32) (reject : Bool := false) (iters : Nat := 0) : State :=
  let d : Desc := if o = .mldsaVerify then { alg := 0x81, auxLen := 32, srcLen := 112 } else { alg := 0x80, keyH := kH, resultH := rH, srcLen := 48 }
  let fam := if o = .mldsaVerify then 2 else 1
  let inp := if o = .mldsaVerify then zeros 144 else zeros 48
  { latUp o d inp fam with
    plys := List.replicate 15 ({} : Ply) ++ [{ rcp := { sets := [latSet d.algN fam], words := [(8, w)] }, run := some (runOf d.algN fam reject iters) }] }

/-- The micro-command at which engine n's recipe stands, with its environment; none where none stands. -/
def microOf (s : State) (n : Nat) : Option (RecipeEnv × Micro) :=
  (s.recipeEnv n).bind (fun e =>
    let m := Micro.ofWord (e.mem.word e.run.pc)
    if s.microSound n e m then some (e, m) else none)

theorem atMicro_of {s : State} {n : Nat} {e : RecipeEnv} {m : Micro} (h : microOf s n = some (e, m)) : s.AtMicro n e m m.op := by
  simp only [microOf, Option.bind_eq_some_iff] at h
  obtain ⟨e', h1, h2⟩ := h
  split at h2
  · next h3 => simp only [Option.some.injEq, Prod.mk.injEq] at h2; obtain ⟨rfl, rfl⟩ := h2; exact ⟨h1, rfl, rfl, h3⟩
  · simp at h2

/-- The slots and the X field at their ends. -/
theorem w_recipeArithmetic :
    ∀ q ∈ [(0x01, 79, 0), (0x02, 79, 0), (0x03, 79, 0), (0x04, 79, 0), (0x05, 79, 2), (0x06, 79, 0), (0x07, 79, 0), (0x0F, 79, 31), (0x12, 79, 31),
        (0x13, 0, 31), (0x14, 0, 31), (0x16, 0, 31), (0x17, 79, 0), (0x18, 79, 0), (0x19, 79, 0)],
      (microOf (recUp .mlkemDecaps (mw q.1 q.2.1 0 79 q.2.2)) 15).map (·.2) = some { op := q.1, d := q.2.1, a := 0, b := 79, x := q.2.2 } := by
  decide +kernel

theorem w_recipeStreamsAndControl :
    (∀ q ∈ [(0x08, 0, 0), (0x09, 0, 79), (0x0A, 79, 0), (0x0B, 79, 0), (0x0C, 79, 0), (0x0D, 79, 0), (0x0E, 79, 0), (0x09, 0, 0x7B), (0x10, 0x7F, 0), (0x10, 79, 79), (0x11, 79, 0x7F), (0x11, 79, 79),
        (0x15, 0, 0)],
      (microOf (recUp .mlkemDecaps (mw q.1 q.2.1 q.2.2 127 31)) 15).map (·.2) = some { op := q.1, d := q.2.1, a := q.2.2, b := 127, x := 31 }) := by
  decide +kernel

theorem w_recipeIterations :
    (∀ k ∈ [0, 2, 3, 9], (microOf (recUp .mlkemDecaps (mw 0x15 0 0 0 0) true k) 15).map (fun x => (x.2.op, x.1.run.reject, x.1.run.iters, rsIterMax x.1.run.set)) =
      some (0x15, true, k, 4)) := by
  decide +kernel

theorem w_recipeEnd :
    (∀ reject ∈ [false, true], let s := recUp .mldsaVerify (mw 0 0 0 0 0) reject
      (microOf s 15).map (fun x => (x.2.op, x.1.op, x.1.run.reject, s.orderOk x.1.req x.1.op (x.1.order))) = some (0, .mldsaVerify, reject, true)) := by
  decide +kernel

theorem w_recipeRestoreAndScrub :
    (let s : State := { up with plys := List.replicate 15 { rcp := { tag := 9 } } ++ [{ rcp := { tag := 9 }, restoring := true, woken := true }] }
     (s.ply 15).restoring = true ∧ (s.ply 15).woken = true ∧
       (numsFrom 0 16).find? (fun k => !s.unitOut 3 k && !(s.ply k).woken && decide ((s.ply k).rcp.tag = (s.ply 15).rcp.tag)) = some 0) ∧
    (let s : State := { up with plys := List.replicate 15 ({} : Ply) ++ [{ bad := [(8191, false)] }] }
     (s.ply 15).restoring = false ∧ (s.ply 15).bad = [(8191, false)]) := by
  decide +kernel

/-! The code engines and the key cache. -/

/-- A PUBLIC entry of partition 1 in the last place of the cache, and a PRIVATE one before it. -/
def ckcIn : Ckc := { entries := [(510, { owner := 1, alg := 0x11, isPrivate := true, granules := 2, gen := 3 }), (511, { owner := 1, alg := 0x11, pkid := zeros 32, granules := 64 })] }

theorem w_hqcOperations :
    (∀ own ∈ [0, 1], let d : Desc := { alg := 0x03, resultH := rH, param := BitVec.ofNat 32 own, auxLen := if own = 1 then 32 else 0, dstLen := 8000 }
      runsOp .hqcKeygen d (zeros d.auxLen.toNat) = true ∧ takesOp .hqcKeygen d (zeros d.auxLen.toNat) [usDecap] 32 = true) ∧
    (let d : Desc := { alg := 0x01, resultH := sH, srcLen := 64, dstLen := 8000 }
     runsOp .hqcEncaps d (zeros 64) = true ∧ takesOp .hqcEncaps d (zeros 64) [usDerive] 32 = true) ∧
    (let d : Desc := { alg := 0x01, keyH := kH, resultH := sH, srcLen := 64 }
     keysOp .hqcDecaps d (zeros 64) { usages := [usDecap], lens := [32], holdLen := some 32 } = true ∧
       takesOp .hqcDecaps d (zeros 64) [usDerive] 32 = true) := by
  decide +kernel

theorem w_mcElieceOperations :
    (let d : Desc := { alg := 0x11, keyH := kH, srcLen := 64, auxLen := 48, resultH := sH }
     keysOp .mceImport d (zeros 112) { usages := [usWrap], lens := [32] } = true ∧ (opReq .mceImport d (zeros 112)).poison = false) ∧
    (let d : Desc := { alg := 0x11, resultH := sH, srcLen := 64, dstLen := 96 }
     runsOp .mceEncaps d (zeros 64) = true ∧ d.cached = false ∧ takesOp .mceEncaps d (zeros 64) [usDerive] 32 = true) ∧
    (let m : KeyMat := { bytes := zeros 32 ++ [0x11, 0, 0xFE, 0x01, 3, 0, 0, 0], kind := 1 }
     let d : Desc := { alg := 0x11, resultH := sH, srcLen := 96 }
     let r : Req := { opReq .mceDecaps d (zeros 96) with key := some m }
     let s : State := { opUp .mceDecaps d (zeros 96) with reqs := [r], ckc := ckcIn }
     s.Runs 5 r .mceDecaps ∧ (s.keyed r { usages := [usDecap], kind := 1 }).map (·.2) = some (m, zeros 96) ∧ byteAt m.bytes 32 = 0x11 ∧
       le16 m.bytes 34 = 510 ∧ (s.ckcEntry 510).granules ≠ 0 ∧ (s.ckcEntry 510).gen = le32 m.bytes 36 ∧
       s.resultFault r 0 [usDerive] 32 = none) ∧
    (let d : Desc := { alg := 0x11, srcLen := 64, dstLen := 32 }
     let s := (opUp .ckcLoad d (zeros 64)).setReg .ckcPtn 0x02000000 1
     runsOp .ckcLoad d (zeros 64) = true ∧ s.ckcRoom 1 (mceSet 0x11).pubGran = true ∧ s.ckcPublic 1 (zeros 32) 0x11 = none ∧
       ({ s with ckc := ckcIn } : State).ckcPublic 1 (zeros 32) 0x11 = some 511) ∧
    (let d : Desc := { alg := 0x11, auxLen := 32 }
     let r := opReq .ckcEvict d (zeros 32)
     let s : State := { opUp .ckcEvict d (zeros 32) with ckc := ckcIn }
     let u : State := { s with reqs := [r, { reqOf { opcode := 0x65 } with id := 6, phase := .running, unit := .cod, entry := some 511 }] }
     s.Runs 5 r .ckcEvict ∧ r.stateIndex = none ∧ s.ckcPublic 1 (fit 32 r.aux) 0x11 = some 511 ∧ ((s.ckcRelease 511).ckcEntry 511).doomed = false ∧
       u.Runs 5 r .ckcEvict ∧ u.ckcPublic 1 (fit 32 r.aux) 0x11 = some 511 ∧ ((u.ckcRelease 511).ckcEntry 511).doomed = true) := by
  decide +kernel

theorem w_mcElieceOperations_cached :
    (let d : Desc := { alg := 0x11, resultH := sH, param := 1, auxLen := 32, dstLen := 96 }
     let r : Req := { opReq .mceEncaps d (zeros 32) with entry := some 511 }
     let s : State := { opUp .mceEncaps d (zeros 32) with reqs := [r], ckc := ckcIn }
     s.Runs 5 r .mceEncaps ∧ d.cached = true ∧ s.ckcServes 511 r.ptn (fit 32 r.aux) 0x11 = true ∧
       s.resultFault r 0 [usDerive] 32 = none) ∧
    (let r : Req := { reqOf { opcode := 0x67 } with id := 6, phase := .finished, unit := .cod }
     let s (st : Status) (priv : Bool) : State := { up with
       reqs := [{ r with result := some { status := st } }], ckc := { entries := [(3, { granules := 4, isPrivate := priv, loading := some 6 })] } }
     (s .ok true).loadStatus 6 = some .ok ∧ (s .dmaFault false).loadStatus 6 = some .dmaFault ∧
       (s .ok false).ckcPublic 0 [] 0 = none) := by
  decide +kernel

/-! The big-number engines, with numbers of 256 bits: the modulus 2^255 + 1 = 3 · m', its largest residue and its own residues. -/

def m256 : Nat := 2 ^ 255 + 1
def modSrc (a b : Nat) : Bytes := toLe 32 m256 ++ toLe 32 a ++ toLe 32 b
def modDesc (n : Nat) : Desc := { srcLen := BitVec.ofNat 32 n, dstLen := 32, param := 256 }

theorem w_modularArithmetic :
    (∀ o ∈ [Op.modmul, .modexp], runsOp o (modDesc 96) (modSrc (m256 - 1) (m256 - 1)) = true ∧ (modDesc 96).modBytes = 32) ∧
    modulusOk (modDesc 96).modBits m256 = true ∧ leNat (slice (modSrc (m256 - 1) (m256 - 1)) 0 32) = m256 ∧
    leNat (slice (modSrc (m256 - 1) 5) 32 32) = m256 - 1 ∧ leNat (slice (modSrc (m256 - 1) 5) 64 32) = 5 ∧
    (runsOp .modinv (modDesc 64) (toLe 32 m256 ++ toLe 32 (m256 - 1)) = true ∧ (m256 - 1) * (m256 - 1) % m256 = 1 ∧ Nat.gcd 3 m256 ≠ 1 ∧
      runsOp .modinv (modDesc 64) (toLe 32 m256 ++ toLe 32 3) = true) ∧
    (modulusOk 256 (2 ^ 255) = false ∧ modulusOk 256 (2 ^ 255 - 1) = false) ∧ runsOp .primeTest (modDesc 32) (toLe 32 m256) = true := by
  decide +kernel

/-- A private key of 2048 bits as far as its fields are checked; the exponents are 0, so that the private operation answers 1. -/
def rsaKey : Bytes := toBe 256 (2 ^ 2047 + 1) ++ toBe 32 3 ++ toBe 128 (2 ^ 1023 + 1) ++ toBe 128 (2 ^ 1023 + 1) ++ zeros 384

/-- A request that has taken that key. -/
def rsaReq (o : Op) (d : Desc) (y : Nat) : Req := { opReq o d (toBe 256 y) with key := some { bytes := rsaKey } }
def rsaRuns (o : Op) (d : Desc) (y : Nat) (usages : List Nat) : Bool :=
  let d := { d with srcLen := 256, dstLen := 256 }
  let s : State := { opUp o d [] with reqs := [rsaReq o d y] }
  decide (s.Runs 5 (rsaReq o d y) o) && ((s.keyed (rsaReq o d y) { usages := usages } [1]).map (·.2.2) == some (toBe 256 y))

theorem w_rsaPublicOperations :
    let d : Desc := { auxLen := 288, srcLen := 256, dstLen := 256, param := 2048 }
    let aux := toBe 256 (2 ^ 2047 + 1) ++ toBe 32 3
    (∀ o ∈ [Op.rsaPublic, .rsaPssVerify, .rsaOaepEncrypt], runsOp o d (aux ++ zeros 256) = true) ∧
    modulusOk d.modBits (beNat (aux.take 256)) = true ∧ beNat (slice aux 256 32) = 3 ∧ beNat (toBe 256 (2 ^ 2047)) = 2 ^ 2047 ∧
    beNat (zeros 256) = 0 := by
  decide +kernel

theorem w_rsaPrivateOperations :
    (rsaRuns .rsaPrivateCrt {} 1 [usSign, usDecrypt] = true ∧ rsaRuns .rsaPssSign {} 1 [usSign] = true ∧ rsaRuns .rsaOaepDecrypt {} 1 [usDecrypt] = true) ∧
    ((rsaKeyOf rsaKey).ok rsaKey = true ∧ (rsaKeyOf rsaKey).bits / 8 = 256 ∧ 1 < (rsaKeyOf rsaKey).n) ∧
    ((rsaKeyOf rsaKey).apply 1 ^ (rsaKeyOf rsaKey).e % (rsaKeyOf rsaKey).n = 1 ∧ (rsaKeyOf rsaKey).apply 2 ^ (rsaKeyOf rsaKey).e % (rsaKeyOf rsaKey).n ≠ 2) ∧
    (let d : Desc := { keyH := kH, auxLen := 32, dstLen := 2048, param := 2048 }
     keysOp .rsaKeygen d (toBe 32 (2 ^ 16 + 1)) { usages := [usWrap], lens := [32] } = true ∧ beNat (toBe 32 (2 ^ 16 + 1)) = 2 ^ 16 + 1) := by
  decide +kernel

/-- The base point of a curve as a public key, and the key that hold 0 gives. -/
def basePoint (alg : Nat) : Bytes := encodePoint (up.curveLen alg) (builtinCurve alg).base
def heldKey (l : Nat) : Bytes := List.replicate l 1

theorem w_ellipticCurveOperations :
    (∀ alg ∈ [0x01, 0x03, 0x06], let l := up.curveLen alg
      let c := up.curveOf alg
      let d : Desc := { alg := BitVec.ofNat 8 alg, keyH := kH, resultH := rH, srcLen := BitVec.ofNat 32 (1 + 2 * l), dstLen := BitVec.ofNat 32 (2 * l) }
      keysOp .ecdsaSign d (zeros (1 + 2 * l)) { usages := [usSign], lens := [l], holdLen := some l } = true ∧ ecMsgOk d (1 + 2 * l) 0 = true ∧
      runsOp .ecdsaVerify d (zeros (1 + 2 * l)) = true ∧ up.curveAllows alg 0 = true ∧ up.curveAllows alg 1 = true ∧
      keysOp .ecdh d (basePoint alg) { usages := [usDerive], lens := [l], holdLen := some l } = true ∧ d.holdOut = false ∧
      takesOp .ecdh d (basePoint alg) [usDerive] l = true ∧
      0 < beNat (heldKey l) ∧ beNat (heldKey l) < c.n ∧ c.pointFault l (basePoint alg) = none) ∧
    (∀ alg ∈ [0x10, 0x11], let l := up.curveLen alg
      let d : Desc := { alg := BitVec.ofNat 8 alg, keyH := kH, auxLen := BitVec.ofNat 32 l, srcLen := 64, param := 2 }
      keysOp .eddsaSign d (zeros (64 + (l + 15) / 16 * 16)) { usages := [usSign], lens := [l], holdLen := some l } = true ∧
      edMsgOk d 64 0 = true ∧ edTooLong (opReq .eddsaSign d []) = false ∧ runsOp .eddsaVerify d (zeros (64 + (l + 15) / 16 * 16)) = true ∧
      (edCurve alg).keyFault ((edCurve alg).encode (edCurve alg).base) = none) ∧
    (∀ alg ∈ [0x18, 0x19], ∀ hold ∈ [0, 1], let l := up.curveLen alg
      let d : Desc := { alg := BitVec.ofNat 8 alg, keyH := kH, resultH := if hold = 1 then 0 else rH, flags := BitVec.ofNat 16 (16 * hold),
                        srcLen := BitVec.ofNat 32 l, dstLen := BitVec.ofNat 32 l }
      keysOp .xdh d (heldKey l) { usages := [usDerive], lens := [l], holdLen := some l } = true ∧ d.holdOut = (hold == 1) ∧
      0 < montU alg (heldKey l) ∧ montU alg (heldKey l) < montP alg ∧ allZero (xdhFn alg (heldKey l) (montU alg (heldKey l))) = false ∧
      (hold = 0 → takesOp .xdh d (heldKey l) [usDerive] l = true)) ∧
    (∀ alg ∈ [0x01, 0x18], let d : Desc := { alg := BitVec.ofNat 8 alg, resultH := sH, dstLen := 65 }
      runsOp .ecKeygen d [] = true ∧ (opUp .ecKeygen d []).keygenUsage (opReq .ecKeygen d []) = usDerive ∧
      takesOp .ecKeygen d [] [usSign, usDerive] 32 = true) := by
  decide +kernel

/-- The points of ECDH on P-256: 2·G, and the identity for a scalar that is a multiple of the order. -/
theorem w_sharedPoint : (builtinCurve 1).times 2 (builtinCurve 1).base =
      some (0x7cf27b188d034f7e8a52380304b51ac3c08969e277f21b35a60b48fc47669978, 0x07775510db8ed040293d9ac69f7430dbba7dade63ce982299e04b79d227873d1) ∧
    (builtinCurve 1).times (builtinCurve 1).n (builtinCurve 1).base = none := by
  decide +kernel

/-- The first test of RFC 7748, section 5.2. -/
theorem test_x25519 :
    leNat (xdhFn 0x18 (toLe 32 0xc49a44ba44226a50185afcc10a4c1462dd5e46824b15163b9d7c52f06be346a5)
      0x4c1cabd0a603a9103b35b326ec2466727c5fb124a4c19435db3030586768dbe6) =
    0x5285a2775507b454f7711c4903cfec324f088df24dea948e90c6e99d3755dac3 := by
  decide +kernel

theorem w_operandMemoriesAndCurves :
    up.Carries p0 (RegId.bneCfg.target 7 0) ∧
    (let s := up.updOperands 7 (fun o => { o with waiting := true }); (s.operandsAt 7).waiting = true ∧ (s.operandsAt 7).groups = []) ∧
    (up.Carries p0 (RegId.crvCtrl.target 0 0) ∧ bitOf (0x8000000F : W32) 31 = true ∧ bitOf (0x8000000F : W32) 30 = false ∧ up.curves.fetch = none ∧
      (up.store { id := .crvCtrl } 0x8000000F).regF .crvLoadAddrLo 5 0 = 0 ∧ (up.store { id := .crvCtrl } 0x8000000F).regF .crvCtrl 3 0 = 15) ∧
    (bitOf (0x4000000F : W32) 31 = false ∧ bitOf (0x4000000F : W32) 30 = true) ∧
    (up.applying 8 = false ∧ (let s : State := { up with boot := { up.boot with job := some { kind := 8, data := [], left := [] } } }
      s.Carries p0 (RegId.crvCtrl.target 0 0) ∧ s.applying 8 = true)) ∧
    (let s : State := { up with curves := { up.curves with checking := some (15, 7) } }
     s.curves.checking.map (·.1) = some 15 ∧ curveCheck (zeros 424) 15 9 = false ∧ curveCheck (zeros 424) 15 2 = false) := by
  decide +kernel

/-! The key store: slot 7 is RESERVED, so that no tag decides. -/

/-- The block with that slot, request 5 and a word for it. -/
def keyUp (o : Op) (d : Desc) : State := opUp o d []

theorem w_keyStoreRequests :
    (∀ o ∈ [Op.keyGenerate, .keyDerive], let d : Desc := { flags := 16, dstLen := 32, param := 32 }
      runsOp o d [] = true ∧ d.holdOut = true ∧ (keyUp o d).noKeys = false ∧ (o = .keyDerive → ((keyUp o d).deriveRoot d).isSome = true)) ∧
    (∀ q ∈ [(0xC0000020, sH), (0x40000020, sH)], let d : Desc := { param := BitVec.ofNat 32 q.1, resultH := q.2 }
      runsOp .keyGenerate d [] = true ∧ d.holdOut = false ∧
        ((keyUp .keyGenerate d).keyPlace (opReq .keyGenerate d []) 0 (fld d.param 7 0)).toOption = some (7, false) ∧
        (opReq .keyGenerate d []).poison = false) ∧
    (let d : Desc := { keyH := kH, srcLen := 64, resultH := sH }
     runsOp .keyImportWrapped d (zeros 64) = true ∧
       ((opUp .keyImportWrapped d (zeros 64)).ensureKey (opReq .keyImportWrapped d (zeros 64)) { usages := [usWrap], lens := [32] }).2.toOption.isSome = true) ∧
    (let d : Desc := { keyH := sH, param := 0x10000008, dstLen := 80 }
     runsOp .keyExportWrapped d [] = true ∧ (opReq .keyExportWrapped d []).exported = none ∧ (opReq .keyExportWrapped d []).key = none ∧
       ((keyUp .keyExportWrapped d).key 7).lockAllows d = true ∧ (keyUp .keyExportWrapped d).namedSlot (opReq .keyExportWrapped d []) d.keyH = some 7 ∧
       48 + ((keyUp .keyExportWrapped d).key 7).len ≤ d.dstLen.toNat) ∧
    (let d : Desc := { keyH := sH }
     let r := opReq .keyDestroy d []
     let h := (keyUp .keyDestroy d).onHalf 5 7
     runsOp .keyDestroy d [] = true ∧ r.stateIndex = none ∧ (keyUp .keyDestroy d).namedSlot r sH = some 7 ∧ h.ownerFault 1 7 = none ∧
       (h.slotsOf 7).any h.slotBad = false ∧ (((h.slotsOf 7).foldl (fun s j => s.noteKeyRead 5 j) h).key 7).state ≠ .bad ∧ r.poison = false) ∧
    (let d : Desc := { resultH := sH }
     runsOp .keyDerive d [] = true ∧ ((keyUp .keyDerive d).deriveRoot d).isSome = true ∧ d.holdOut = false ∧
       (keyUp .keyDerive d).namedSlot (opReq .keyDerive d []) sH = some 7 ∧
       (keyUp .keyDerive d).targetFault 1 7 0 [1, 2, 3, 4, 5, 6] ((keyUp .keyDerive d).key 7).len = none ∧ ((keyUp .keyDerive d).key 7).len = 32 ∧
       ((keyUp .keyDerive d).key 7).keepBound = false) ∧
    (let d : Desc := { keyH := sH, dstLen := 16 }
     runsOp .keyAttrRead d [] = true ∧ (keyUp .keyAttrRead d).namedSlot (opReq .keyAttrRead d []) sH = some 7 ∧
       (keyUp .keyAttrRead d).ownerFault 1 7 = none) := by
  decide +kernel

/-- Partition 63 with KEYWRITE, quotas and a commit under way; slot 8191 is its key, and a second key waits for request 5. -/
def storeUp (attr commit : W32) : State :=
  let s := (((par.setReg .mgtPtnC 0x1FFF0000 63).setReg .keyStageAttr attr 63).setReg .keyCommit commit 63).setB .keyStageStatus 31 true 63
  { s with keys := [(8191, { state := .reserved, owner := 63, usage := usSign, len := 32 })] }

theorem w_keyStoreRegisters :
    (par.Carries p63 (RegId.keyCommit.target 63 0) ∧ par.regB .keyStageStatus 31 63 = false) ∧
    (∀ len ∈ [1, 64, 65, 128], let w : W32 := BitVec.ofNat 32 (0x10000000 + len)
      let s := storeUp w 0xC0000000
      s.regB .keyStageStatus 31 63 = true ∧ s.noKeys = false ∧ attrWordOk w = true ∧ bitOf w 31 = false ∧ fld w 7 0 = len ∧
        bitOf (s.reg .keyCommit 63) 30 = true ∧ (s.commitPlace 63 true 0 len).toOption = some (4096 * 0, decide (64 < len))) ∧
    (let s := storeUp 0x10000020 0x80001FFF
     fld (s.reg .keyCommit 63) 12 0 = 8191 ∧ (s.commitPlace 63 false 8191 32).toOption = some (8191, false) ∧
       (s.commitPlace 63 false 8191 65).toOption = none ∧ (s.commitPlace 63 false 0 32).toOption = none) ∧
    (let s := storeUp 0 0
     let t (d : Nat) := s.store { id := .keySlotCtrl } (BitVec.ofNat 32 d)
     s.Carries p0 (RegId.keySlotCtrl.target 0 0) ∧ (t 0x80001FFF).regF .keySlotCtrl 29 28 = 0 ∧ (t 0x80001FFF).regF .keySlotCtrl 12 0 = 8191 ∧
       ((t 0x80001FFF).key 8191).state ≠ .empty ∧ ((t 0x80001FFF).key 8191).pair ≠ 2 ∧ ((t 0x80001FFF).key 8191).doomed = false ∧
       (t 0x90001FFF).regF .keySlotCtrl 29 28 = 1 ∧ (t 0x90001FFF).regF .keySlotCtrl 27 22 = 0 ∧
       ((t 0x90001FFF).key 8191).state = .reserved ∧ ((t 0x90001FFF).key 8191).kind = 0 ∧ (t 0x90001FFF).halfOut (halfOf 8191) = false ∧
       (t 0x90001FFF).enabled 0 = true ∧
       (t 0xAFC00000).regF .keySlotCtrl 29 28 = 2 ∧ (t 0xAFC00000).regF .keySlotCtrl 27 22 = 63) ∧
    (let s := ((storeUp 0 0).setReg .mgtPtnC 0x1FFF0000 0).store { id := .keySlotCtrl } 0x90001FFF
     s.slotsOwned 0 + (s.slotsOf 8191).length ≤ s.keyQuota 0) ∧
    (let s := ((storeUp 0 0).setB .keyStatus 31 true).store { id := .keySlotCtrl } 0xB0002000
     s.regF .keySlotCtrl 29 28 = 3 ∧ s.regF .keySlotCtrl 13 13 = 1 ∧ s.halfOut 1 = true) ∧
    (let s : State := { storeUp 0 0 with keys := [(8191, { state := .valid, owner := 63, doom := .clear })] }
     (s.key 8191).doomed = true ∧ s.doomFree 8191 = true ∧ (s.key 8190).doomed = false) ∧
    (up.Carries p0 (RegId.keyPtnGen.target 63 0) ∧ up.ptnGen 63 < fld (0x0001 : W32) 15 0) := by
  decide +kernel

/-- Slot 9, whose destruction P0 or request 5 has decided; request 5 runs. -/
def doomedBy (d : Doom) : State :=
  let k : KeySlot := { state := .reserved, owner := 1, usage := usSign, len := 32, doom := d }
  { keyUp .keyDestroy {} with keys := [(9, k)] }

theorem w_slotDestroyComplete :
    (∀ d ∈ [Doom.clear, .invalidate, .destroy 5], ((doomedBy d).key 9).doomed = true ∧ (doomedBy d).doomFree 9 = true ∧ ((doomedBy d).key 9).doom = d) ∧
    (((doomedBy (.destroy 5)).finishDoom 9).findReq 5).map (·.phase) = some .running ∧
    (let s := up.setF .rngStatus 2 0 rngReady; s.keep.secret = none ∧ s.rngState = rngReady) := by
  decide +kernel

/-- The RNG ready, with two combined blocks in its pool. -/
def rngUp : State :=
  let s := up.setF .rngStatus 2 0 rngReady
  { s with rng := { s.rng with pool := [zeros 32, zeros 32] } }

theorem w_reportsAndSimpleOperations :
    (∀ o ∈ [Op.ptnInfo, .keyList, .qosRead], runsOp o { dstLen := 40 } [] = true) ∧
    (∀ o ∈ [Op.nop, .fence], let s := frameUp [] {} {}
      let r := reqOf { opcode := BitVec.ofNat 8 o.code }
      let t : State := { s with reqs := [r] }
      t.findReq 5 = some r ∧ r.desc.op = some o ∧ t.held = false ∧ ((t.lks.getD r.lk {}).frames.find? (fun f =>
        f.valid && !f.killed && !f.completed && !f.issued && decide (f.req = 5))).isSome = true ∧
        (t.frmDone r.lk { valid := true, req := 5 } { status := .ok, unit := .lockkeeper, inst := 0 }).isSome = true) ∧
    (∀ q ∈ [(0, false), (32, false), (32, true)], let d : Desc := { flags := BitVec.ofNat 16 q.1, srcLen := 16, dstLen := 16 }
      let input := if q.1 = 0 then zeros 16 else []
      let s := opUp .copy d input
      let t : State := { s with tows := [{ tow2 with holds := { bytes := zeros 16, len := 16, secret := q.2 } :: List.replicate 7 ({} : Hold) }] }
      let r := opReq .copy d input
      t.Runs 5 r .copy ∧ (t.srcOf r).toOption.isSome = true ∧ d.holdIn = (q.1 == 32) ∧ d.holdOut = false ∧ (t.holdOf r 0).secret = q.2) ∧
    (let d : Desc := { srcLen := 512, dstLen := 512 }
     (opUp .copy d (zeros 256)).findReq 5 = some (opReq .copy d (zeros 256)) ∧ (opReq .copy d (zeros 256)).streams .copy = true) ∧
    (∀ pr ∈ [0, 1], let d : Desc := { dstLen := 32, param := BitVec.ofNat 32 pr }
      let s : State := { opUp .getRandom d [] with regs := rngUp.regs, rng := rngUp.rng }
      s.Runs 5 (opReq .getRandom d []) .getRandom ∧ s.rngState = rngReady ∧ d.param.getLsbD 0 = (pr == 1) ∧ 2 ≤ s.rng.pool.length ∧ s.rng.rootWaits = false) := by
  decide +kernel

/-! The life cycle, OTP, recovery and the fault collector. -/

/-- The block in a life-cycle state, with the state's codeword in copies A and B; copy C lags. -/
def lcUp (lc : Nat) : State :=
  { up.setF .lcStatus 2 0 lc with otp := [(0, codeword lc), (1, codeword lc), (0x060, 1)] }

/-- LC_CTRL with GO, CMD, TARGET and INDEX. -/
def lcWord (cmd target index : Nat) : W32 := BitVec.ofNat 32 (2 ^ 31 + index * 2 ^ 12 + target * 2 ^ 8 + cmd)
def lcAt (lc cmd target index : Nat) : State := (lcUp lc).store { id := .lcCtrl } (lcWord cmd target index)

/-- That a token matches its digest rests on SHA3-256, which no proof evaluates. -/
theorem w_lifeCycleCommands :
    ((lcUp 3).Carries p0 (RegId.lcCtrl.target 0 0) ∧ (lcUp 3).regB .lcStatus 31 = false ∧ (lcUp 3).Carries p0 (RegId.lcToken.target 7 0) ∧
      ((lcUp 3).setB .lcStatus 31 true).Carries p0 (RegId.lcCtrl.target 0 0)) ∧
    (((lcAt 3 1 3 0).transitionFails 3 = some 4 ∧ ((lcAt 3 1 4 0).setB .lcStatus 20 true).transitionFails 4 = some 3) ∧
      (lcAt 3 1 4 0).regF .lcCtrl 3 0 = 1 ∧ (lcAt 3 1 4 0).regF .lcCtrl 10 8 = 4 ∧ (lcAt 3 1 4 0).tamper.zeroize = none) ∧
    ((lcAt 3 2 0 0).lc < 6 ∧ [0, 1, 2].filter (fun i => copyLags (codeword 3) ((lcAt 3 2 0 0).otpWord i)) = [2] ∧ 6 ≤ (lcAt 6 2 0 0).lc ∧
      [0, 1, 2].filter (fun i => copyLags (codeword 0) ((lcAt 0 2 0 0).otpWord i)) = []) ∧
    ((lcAt 3 3 0 0).regB .lcStatus 20 = false ∧ allZero ((lcAt 3 3 0 0).otpBytes 0x060 8) = false) ∧
    (∀ q ∈ [(1, 0), (2, 1)], let s := (lcAt q.1 4 0 q.2).setF .rngStatus 2 0 rngReady
      s.regF .lcCtrl 15 12 = q.2 ∧ s.lc = q.1 ∧ s.rngState = rngReady ∧ s.rootField (q.2 == 1) = none ∧
        [2 * q.2, 2 * q.2 + 1].find? (fun f => allZero (s.otpBytes (0x100 + 8 * f) 8)) = some (2 * q.2)) ∧
    (∀ q ∈ [(1, 0), (1, 5), (2, 1), (2, 5)], let s := lcAt q.1 5 0 q.2
      s.regF .lcCtrl 15 12 = q.2 ∧ s.lc = q.1 ∧ allZero (s.otpBytes (digestField q.2) 8) = true) ∧
    ((lcAt 3 6 0 0).pins.dbgEn = false ∧ ((lcAt 3 6 0 0).rootFor .attest).isSome = true ∧ (lcAt 1 6 0 0).rootFor .attest = none) := by
  decide +kernel

/-- A program of one word or two that is under way, or read back. -/
def otpUp (reading failed : Bool) (more : List (Nat × W32)) : State :=
  { up with otpJobs := [{ purpose := .svFloor, words := (0x20, 4) :: more, reading := reading, failed := failed }] }

theorem w_otpPrograms :
    (∀ q ∈ [(false, false), (true, false), (true, true)], ∀ more ∈ ([[], [(0x21, 1)]] : List (List (Nat × W32))), let s := otpUp q.1 q.2 more
      (s.otpJobs.head?.map (fun j => (j.words, j.reading, j.failed))) = some ((0x20, 4) :: more, q.1, q.2)) ∧
    (4 : W32) = up.otpWord 0x20 ||| 4 ∧ (5 : W32) ≠ up.otpWord 0x20 ||| 4 := by
  decide +kernel

/-- Partition 63 under reset; ring 15 is STOPPING with one descriptor that was never fetched. -/
def resetting (room : Bool) : State :=
  let s := ((if room then cqUp 1 0 0 else cqUp 1 0 16).setReg .sqCfg 0x00F00004 63 15).setSqState 63 15 2 |>.setReg .sqTail 1 63 15
  { s with resets := [{ ptn := 63, keep := true, begun := true }] }

theorem w_recoveryRequests :
    (par.Carries p63 (RegId.ptnCtrl.target 63 0) ∧ (∀ r ∈ par.resets, r.ptn ≠ 63) ∧ par.tamper.zeroize = none ∧
      (resetting true).Carries p63 (RegId.ptnCtrl.target 63 0) ∧ ((resetting true).resets.any (fun r => r.ptn == 63)) = true) ∧
    (par.Carries p0 (RegId.mgtPtnReset.target 0 0) ∧ (par.store { id := .mgtPtnReset } 0xC000003F).regF .mgtPtnReset 5 0 = 63 ∧
      (par.store { id := .mgtPtnReset } 0xC000003F).enabled 63 = true ∧ (par.store { id := .mgtPtnReset } 0x80000001).enabled 1 = false) ∧
    (∀ room ∈ [true, false], let s := resetting room
      (s.resets.find? (fun r => r.ptn = 63)).map (fun r => (r.begun, r.keep)) = some (true, true) ∧ s.tamper.zeroize = none ∧
        (numsFrom 0 16).find? (fun n => s.flushState 63 n ≠ 0) = some 15 ∧ s.flushState 63 15 = if room then 1 else 3) ∧
    (let s : State := { resetting false with flushEnded := [(63, 15)] }
     (numsFrom 0 16).find? (fun n => s.flushState 63 n ≠ 0) = none ∧ ∀ n < 16, s.ringSettled 63 n = true) ∧
    (∀ level ∈ [1, 2], ∀ safe ∈ [false, true], let s := up.setB .fltEsc 26 safe
      let u := s.store { id := .mgtRcvCtrl } (BitVec.ofNat 32 (2 ^ 31 + level))
      s.Carries p0 (RegId.mgtRcvCtrl.target 0 0) ∧ u.phase = phReady ∧ u.regF .mgtRcvCtrl 1 0 = level ∧ u.safe = safe) := by
  refine ⟨?_, ?_, ?_, ?_, ?_⟩ <;> decide +kernel

theorem w_faultCollectorCommands :
    (up.Carries p0 (RegId.fltPin.target 0 0) ∧ up.criticalSet = false ∧ up.safe = false) ∧
    (let s : State := up.setB .fltEsc 26 true; s.safe = true) ∧
    (∀ hold ∈ [false, true], let s : State := { up with pins := { up.pins with fltErrN := false }, flt := { up.flt with pinHold := hold, pinWanted := hold } }
      s.Carries p0 (RegId.fltPin.target 0 0) ∧ s.criticalSet = false ∧ s.safe = false ∧ s.pins.fltErrN = false ∧ s.flt.pinHold = hold) ∧
    up.Carries p0 (RegId.fltAck.target 0 0) ∧ (up.setB .fltEsc 31 true).regB .fltEsc 31 = true ∧ up.tamper.zeroize = none ∧
    ({ up with tamper := { up.tamper with zeroize := some {} } } : State).tamper.zeroize.isSome = true ∧ (up.setB .fltEsc 30 true).regB .fltEsc 30 = true ∧
    ({ up with flt := { up.flt with deadline := true } } : State).flt.deadline = true ∧
    (∀ q ∈ [(1, 0x2E), (1, 0x2F), (1, 0x3E), (1, 0x3F), (3, 0x00)], let s := up.setF .lcStatus 2 0 q.1
      s.Carries p0 (RegId.fltInject.target 0 0) ∧ s.lc = q.1 ∧
        (s.store { id := .fltInject } (BitVec.ofNat 32 (2 ^ 31 + q.2 * 2 ^ 24))).regF .fltInject 29 24 = q.2) := by
  decide +kernel

/-! The tamper monitors. -/

/-- Source 10, the last of two detectors that commands sense, and its N. -/
def tmpUp (n count : Nat) (waits : List Nat) : State :=
  ((up.setF .tmpSrcCfg 23 16 n 10).updTmpSrc 10 (fun x => { x with count := count, waits := waits })).copyTmpCfg

theorem w_tamperDetections :
    (∀ q ∈ [(255, 0, []), (2, 1, []), (1, 0, []), (3, 0, [1])], let s := tmpUp q.1 q.2.1 q.2.2
      s.tmpDisabled 10 = false ∧ s.pins.keepOnCell = false ∧ s.pins.coldLow = false ∧ s.pins.warmLow = false ∧ twoDetectors 10 = true ∧
        (s.tmpSrc 10).waits = q.2.2 ∧ (s.tmpSrc 10).count = q.2.1 ∧ s.tmpN 10 = q.1) ∧
    (up.tmpDisabled 11 = false ∧ twoDetectors 9 = false) ∧
    (up.updTmpSrc 11 (fun x => { x with holding := true, inForce := 12 })).tmpSrc 11 = { holding := true, inForce := 12 } ∧
    (∀ n ∈ [1, 2], let s : State := { tmpUp n 0 [] with pins := { up.pins with keepOnCell := true } }
      s.pins.keepOnCell = true ∧ 10 ∈ cellSources ∧ s.tmpDisabled 10 = false ∧ s.tmpN 10 = n ∧ (s.tmpSrc 10).count = 0) ∧
    (∀ q ∈ [(15, false), (16, false), (0, true)], let s := (up.setF .tmpSrcStatus 15 8 q.1 10).setB .tmpStatus 10 true |>.setB .tmpSrcStatus 3 q.2 10
      s.Carries p0 (RegId.tmpFlagClear.target 0 0) ∧ s.tmpFlag 10 = true ∧ s.regF .tmpSrcStatus 15 8 10 = q.1 ∧ s.tmpCause 10 = q.2) := by
  decide +kernel

/-- An unlock that runs, with its record of eight bytes there. -/
def unlocking (purpose : Nat) : State :=
  let s := (up.setReg .tmpUnlockCtrl (BitVec.ofNat 32 (2 ^ 31 + purpose))).setReg .tmpUnlockLen 8
  { s with tamper := { s.tamper with record := zeros 8 } }

/-- Provisioning, with TMP_OTP_CTRL written with GO, a command and a field. -/
def tmpOtpAt (lc cmd field : Nat) : State := (up.setF .lcStatus 2 0 lc).store { id := .tmpOtpCtrl } (BitVec.ofNat 32 (2 ^ 31 + field * 16 + cmd))

/-- Which record verifies is for ML-DSA to say, whose arithmetic no proof evaluates; so is what abandoning requests leaves of the block. -/
theorem w_tamperActionsAndUnlock :
    (∀ z ∈ [({} : Zeroize), { lock := true }], let s : State := { up with tamper := { up.tamper with zeroize := some z, acting := if z.lock then none else some 5 } }
      s.tamper.zeroize = some z ∧ z.transition = false) ∧
    (∀ k ∈ [5, 6, 7], ({ up with tamper := { up.tamper with acting := some k } } : State).tamper.acting = some k) ∧
    (∀ st ∈ [rngReady, rngHalted], let u := (up.setF .rngStatus 2 0 st).store { id := .tmpUnlockCtrl } 0x40000000
      up.Carries p0 (RegId.tmpUnlockCtrl.target 0 0) ∧ u.rngState = st) ∧
    (∀ len ∈ [8, 8192], ∀ locked ∈ [false, true], let s : State := { (up.setReg .tmpUnlockLen (BitVec.ofNat 32 len)).setB .tmpStatus 31 locked with otp := [(0x078, 1)] }
      let u := s.store { id := .tmpUnlockCtrl } (BitVec.ofNat 32 (2 ^ 31 + if locked then 1 else 2))
      s.Carries p0 (RegId.tmpUnlockCtrl.target 0 0) ∧ u.regB .tmpUnlockCtrl 31 = false ∧ u.regF .tmpUnlockCtrl 1 0 = (if locked then 1 else 2) ∧
        u.regF .tmpUnlockCtrl 26 24 ≠ 5 ∧ u.regB .tmpStatus 31 = locked ∧ allZero (u.otpBytes 0x078 8) = false ∧ u.regF .tmpUnlockLen 13 0 = len) ∧
    ((up.setF .tmpUnlockCtrl 26 24 5).store { id := .tmpUnlockCtrl } 0x80000002).regF .tmpUnlockCtrl 26 24 = 5 ∧
    (∀ p ∈ [1, 2], (unlocking p).regB .tmpUnlockCtrl 31 = true ∧ (unlocking p).tamper.record.length = (unlocking p).regF .tmpUnlockLen 13 0 ∧
      (unlocking p).regF .tmpUnlockCtrl 1 0 = p) ∧
    (∀ q ∈ [(1, 1, 0), (2, 1, 1), (1, 2, 10), (2, 3, 0), (3, 3, 0)], let s := up.setF .lcStatus 2 0 q.1
      let o := tmpOtpAt q.1 q.2.1 q.2.2
      s.Carries p0 (RegId.tmpOtpCtrl.target 0 0) ∧ s.regB .tmpOtpCtrl 31 = false ∧ o.regF .tmpOtpCtrl 3 0 = q.2.1 ∧ o.lc = q.1 ∧
        o.regF .tmpOtpCtrl 7 4 = q.2.2 ∧ allZero (o.otpBytes (0x070 + 8 * q.2.2) 8) = true ∧ bitOf (o.otpWord 0x080) q.2.2 = false ∧ o.otpWord 0x081 = 0) := by
  decide +kernel

/-- Source 2 in a state, the other two healthy. -/
def srcUp (st : Nat) : State := ((rngUp.setSrcState 0 2).setSrcState 1 2).setSrcState 2 st

theorem w_randomNumbers :
    (∀ st ∈ [0, 1, 2, 3, 4, 5], (srcUp st).srcState 2 = st) ∧
    (∀ b ∈ [some true, some false, none], let s := (srcUp 4).updNoise 2 (fun n => { n with retest := b })
      s.srcState 2 = 4 ∧ (s.noise 2).retest = b) ∧ (rngUp.rngState = rngReady ∧ 2 ≤ rngUp.rng.pool.length) ∧
    (∀ st ∈ [rngStarting, rngResetting], let s := (srcUp 3).setF .rngStatus 2 0 st
      s.rngState = st ∧ 2 ≤ s.healthy.length ∧ 2 ≤ s.rng.pool.length) ∧
    (∀ q ∈ [(1, 0), (2, 0), (3, 0), (4, 0)], (srcUp q.1).Carries p0 (RegId.rngSrcCtrl.target 2 0) ∧ (srcUp q.1).rngState ≠ rngStarting ∧
      (srcUp q.1).rngState ≠ rngResetting ∧ ¬((srcUp q.1).srcState 2 = 2 ∧ (srcUp q.1).healthy.length = 2)) ∧
    (let s := ((rngUp.setSrcState 0 3).setSrcState 1 2).setSrcState 2 2; s.srcState 2 = 2 ∧ s.healthy.length = 2) ∧
    (∀ st ∈ [rngReady, rngHalted, rngStarting], let s := up.setF .rngStatus 2 0 st
      s.Carries p0 (RegId.rngCtrl.target 0 0) ∧ (s.store { id := .rngCtrl } 1).rngState = st) ∧ rngUp.regB .rngDataStatus 0 = false := by
  decide +kernel

/-- Engine 3 of the code engines has its domain in a state; the cap's classes rest when they may. -/
def domUp (d st : Nat) : State := (up.setDom d st).setReg .pwrIdle 0x0006400A 4

theorem w_powerAndClocks :
    (∀ op ∈ [0, 1, 2], let s : State := { up with power := { up.power with asked := [(95, op)], fromOff := [95] } }
      s.power.asked.find? (fun e => e.1 = 95) = some (95, op) ∧ s.power.late.contains 95 = false) ∧
    (∀ req ∈ [true], let s : State := { up with pins := { up.pins with engReq := req, fabReq := req } }
      s.pins.engReq = true ∧ s.pins.fabReq = true) ∧
    (portAddr 0 = true ∧ ∀ n ∈ [0, 1, 2, 7, 8], let x : Offered := { acc := p0, write := false, addr := 0 }
      let s : State := { up with pins := { up.pins with fabRun := false, fabReq := true }, port := { up.port with waiting := List.replicate n x } }
      s.pins.fabRun = false ∧ s.pins.fabReq = true ∧ s.port.waiting.length = n) ∧
    (up.pins.dbgEn = false ∧ up.tamper.zeroize = none ∧ (∀ p < 64, up.regB .keyStageStatus 31 p = false) ∧
      ({ up with reqs := [signReq .running] } : State).tookReal (signReq .running) = false) ∧
    (∀ o ∈ [Op.keyDerive, .berthSealOut], let r := { opReq o {} [] with testRoot := true }
      (({ opUp o {} [] with reqs := [r] } : State).withDbg true).Runs 5 r o ∧ (opUp o {} []).pins.dbgEn = false) ∧
    (let s := domUp 78 2; domUnits 78 = some (4, [3]) ∧ s.domOn 78 = true ∧ s.mayRest 4 [3] 78 = true) ∧
    (let s := domUp 78 1; s.domState 78 = 1 ∧ s.regF .pwrIdle 23 12 4 ≠ 0 ∧ s.mayRest 4 [3] 78 = true ∧ s.keepsPower 78 4 3 = false ∧
      s.power.asked.any (fun e => e.1 = 78) = false) ∧
    (up.needsEng = false ∧ (domUp 78 2).needsEng = true ∧ (domUp 11 2).needsEng = true ∧ up.fabIdle = true) := by
  decide +kernel

/-- PWR_UNIT_CTRL with GO, OP, CLASS and two instances. -/
def unitWord (op cls m n : Nat) : W32 := BitVec.ofNat 32 (2 ^ 31 + op * 2 ^ 28 + cls * 2 ^ 24 + m * 2 ^ 8 + n)

theorem w_unitsAndLifetime :
    up.Carries p0 (RegId.pwrUnitCtrl.target 0 0) ∧
    (∀ q ∈ [(0, 1, 0, 47), (1, 1, 0, 47), (2, 1, 46, 47), (0, 9, 0, 0), (0, 10, 0, 0)],
      let s : State := if q.1 = 0 then up else { up with outMarks := [(1, 46), (1, 47)] }
      let u := s.store { id := .pwrUnitCtrl } (unitWord q.1 q.2.1 q.2.2.1 q.2.2.2)
      s.Carries p0 (RegId.pwrUnitCtrl.target 0 0) ∧ u.power.drain = none ∧ u.regF .pwrUnitCtrl 29 28 = q.1 ∧ u.regF .pwrUnitCtrl 27 24 = q.2.1 ∧
        u.regF .pwrUnitCtrl 13 8 = q.2.2.1 ∧ u.regF .pwrUnitCtrl 5 0 = q.2.2.2 ∧ unitNamed q.2.1 q.2.2.2 = decide (q.2.1 ≤ 9) ∧
        u.unitMarked q.2.1 q.2.2.2 = decide (q.1 ≠ 0) ∧ (q.1 = 0 → q.2.1 ≤ 9 → u.unitOut q.2.1 q.2.2.2 = false) ∧
        (q.1 = 2 → unitNamed q.2.1 q.2.2.1 = true ∧ u.unitMarked q.2.1 q.2.2.1 = true)) ∧
    (∀ c ∈ [5, 6, 7, 9], ({ up with power := { up.power with drain := some { cls := c, inst := 0 } } } : State).power.drain = some { cls := c, inst := 0 }) ∧
    (up.Carries p0 (RegId.lifCalCtrl.target 0 0) ∧ up.locked .lifCalCtrl = false) := by
  decide +kernel

/-! Statements over every register, step and word. -/

theorem w_writesByFieldType : (31 : Nat) < 32 := by decide

/-- The block right after reset is settled. -/
theorem w_settledStateStands : State.reset.Settled State.reset := by decide +kernel

theorem w_stepTakesTheFrontCommand :
    ({ up with pending := [.pulseCheck 10000 10000 10000 10000] } : State).pending = [.pulseCheck 10000 10000 10000 10000] ∧ up.pending = [] := by
  decide +kernel

theorem w_stepsLeaveNothingToContain :
    up.toContain = [] ∧ (match step { up with pending := [.keepOnCellEdge { level := true }] } with | .next t => t.pins.keepOnCell | _ => false) = true := by
  decide +kernel

theorem w_lkDecodeOfEncode :
    (LkInstr.stX (.abs 0x1BFF)).wellFormed = true ∧ lkDecode 0x3F00 0x1BFF = some (.stY (.abs 0x1BFF)) ∧ lkDecode 0xC11F 0 = some (.shl .fromX) := by
  decide +kernel

/-! Single steps: what the spec says of a value, and what the step leaves. -/

/-- What a command leaves of the block, as a test; false where it gives no next state. -/
def gives (c : Instr) (s : State) (f : State → Bool) : Bool :=
  match exec c s with
  | .next t => f t
  | _ => false

/-- Context 0 of Lockkeeper 0 after it has executed `i`. -/
def after (i : LkInstr) (c : Instr) (x : Ctx) (f : Ctx → Bool) : Bool :=
  gives c (lkUp (enumFrom 0 (lkEncode i)) x) (fun t => f ((t.lk 0).ctx 0))

/-- R198: an addition that wraps sets C and Z and clears V. -/
theorem test_adc_wraps : after (.adcA (.short 0 true)) (.adcA 0 (.short 0 true)) { a := 0xFFFFFFFF, fC := true, fV := true }
    (fun x => x.a == 0 && x.fC && x.fZ && !x.fN && !x.fV && x.pc == 1) = true := by decide +kernel

/-- R198: no borrow sets C; a signed overflow sets V. -/
theorem test_sub_overflows : after (.subA (.long 1 false)) (.subA 0 (.long 1 false)) { a := 0x80000000 }
    (fun x => x.a == 0x7FFFFFFF && x.fC && x.fV && !x.fN && x.pc == 2) = true := by decide +kernel

/-- R196: a short immediate is sign-extended; CMP leaves A. -/
theorem test_cmp_sign_extends : after (.cmpA (.short 0xFF true)) (.cmpA 0 (.short 0xFF true)) { a := 0xFFFFFFFF }
    (fun x => x.a == 0xFFFFFFFF && x.fZ && x.fC) = true := by decide +kernel

/-- R188: a 32-bit store puts the low half at the lower address. -/
theorem test_sta_low_half_first :
    gives (.stA 0 (.page 0x10 false)) (lkUp [(0, (lkEncode (.stA (.page 0x10 false))).headD 0)] { a := 0x12345678 })
      (fun t => getKey 0 (t.lk 0).data 0x10 == 0x5678 && getKey 0 (t.lk 0).data 0x11 == 0x1234) = true := by decide +kernel

/-- R198: a rotate to the right by 4. -/
theorem test_ror : after (.ror (.imm 4)) (.ror 0 (.imm 4)) { a := 0x0000000F } (fun x => x.a == 0xF0000000 && x.fN && x.fC) = true := by
  decide +kernel

/-- R106, R107: a doorbell of a RUNNING ring moves the tail; one that would overfill it does not. -/
theorem test_sq_db : gives (.sqDb p63 63 15 16) (sqUp 1 0 0) (fun t => t.reg .sqTail 63 15 == 16) = true := by decide +kernel
theorem test_sq_db_overfull : gives (.sqDb p63 63 15 17) (sqUp 1 0 0) (fun t => t.reg .sqTail 63 15 == 0) = true := by decide +kernel

/-- R367: the product modulo m, little-endian. -/
theorem test_modmul : gives (.modmul 5) (opUp .modmul (modDesc 96) (modSrc (m256 - 1) (m256 - 1)))
    (fun t => ((t.findReq 5).bind (·.result)).map (·.out) == some (toLe 32 1)) = true := by decide +kernel

/-- R331: coefficients are added modulo q. -/
theorem test_padd :
    let s := (recUp .mlkemDecaps (mw 0x06 2 0 1 0)).updPly 15 (fun p => { p with slots := [(0, List.replicate 256 3328), (1, List.replicate 256 2)] })
    gives (.padd 15) s (fun t => getKey [] (t.ply 15).slots 2 == List.replicate 256 1) = true := by decide +kernel

/-- R543: a partition's write to the management window is refused. -/
theorem test_refused_write : gives (.registerWrite p63 0x1000 0) par (fun t => t.port.rsp == .refused) = true := by decide +kernel

/-- R536: the calendar takes 48 bits of what LIF_CAL_SET holds. -/
theorem test_lif_cal_set : gives (.lifCalSet p0 1) ((up.setReg .lifCalSetLo 7).setReg .lifCalSetHi 0xFFFF0001)
    (fun t => t.reg .lifCalLo == 7 && t.reg .lifCalHi == 1) = true := by decide +kernel

/-- No word spells a command; the queue and the block stay as they are. -/
theorem test_no_word (n w : Nat) (s : State) : decodeTableWord n w = none ∧ s.withFetchWord n w = s := ⟨rfl, rfl⟩

/-! Ill-formed commands, one for each check, and a well-formed one beside it. -/

theorem test_wf :
    [Instr.registerWrite p0 0x1002 0, .registerWrite p0 0x1000000 0, .latchLoRead p0 0x20001, .engineStart 5 48,
      .dmaReadReturn 0 (zeros 63) false false, .partitionTableWrite p0 0x0FFC 0, .partitionTableWrite p0 0x1400 0, .keepSample { found := [(2, 0), (2, 0)] },
      .keepSample { found := [(5, 0)] }, .keepSample { lines := [] }, .keepOnCellEdge { level := true, flat := true },
      .drbgReseed 6, .pmCapChange 256, .engClkAnnounce 2048, .ballastHoldExpiry 7 0, .ballastHoldExpiry 0 48, .broadcastWrite p0 0x580000 0,
      .broadcastWrite p0 0x4FFFFC 0, .groupAliasWrite p0 0x5F0000 0, .groupAliasWrite p0 0x57FFFC 0, .refusedOrUnmappedRead p0 3].map Instr.wf = List.replicate 21 false ∧
    [Instr.registerWrite p0 0xFFFFFC 0, .latchLoRead p0 0x20004, .engineStart 5 47, .dmaReadReturn 0 (zeros 64) false false,
      .partitionTableWrite p0 0x13FC 0, .keepSample { found := [(2, 0), (2, 1)] }, .keepOnCellEdge { level := false, flat := true }, .drbgReseed 5, .pmCapChange 255, .engClkAnnounce 2047,
      .ballastHoldExpiry 6 47, .broadcastWrite p0 0x57FFFC 0, .groupAliasWrite p0 0x5EFFFC 0, .refusedOrUnmappedRead p0 0,
      .compactionScanDone [0, 1]].map Instr.wf = List.replicate 15 true := by
  decide +kernel

theorem test_wf_log : (Instr.compactionScanDone (List.replicate 65537 0)).wf = false ∧ (Instr.logScanDone (List.replicate 65537 0) 0).wf = false ∧
    (Instr.logScanDone [0] 2).wf = false ∧ (Instr.logScanDone [0, 1] 2).wf = true := by
  refine ⟨?_, ?_, by decide, by decide⟩ <;> rw [Instr.wf, List.length_replicate] <;> decide

end Sys2Proof.Tests
end

section
/-!
PROOFS. The doorbells of submission and completion rings (R106, R107, R112): a carried doorbell moves its pointer, is refused with
OVERRUN, or does nothing, by the ring's state and the modular distance that it proposes.
-/
namespace Sys2Proof.Machine

variable {s : State} {acc : Access} {p : Fin 64} {n : Fin 16} {d : W32}

/-! ### A write to a partition window -/

/-- Every register of the partition windows is written by the partition part of the map (R9). -/
theorem State.writeReg_partitionWindow (s : State) {x : RegRef} (hlo : 0x100000 ≤ x.addr) (hhi : x.addr < 0x500000) (d : W32) :
    s.writeReg x d = s.writePart x d := by
  have h1 : ¬ x.addr < 0x010000 := by omega
  have h2 : ¬ x.addr < 0x040000 := by omega
  have h3 : ¬ x.addr < 0x080000 := by omega
  simp only [State.writeReg, h1, h2, h3, hlo, hhi, and_self, if_true, if_false]

theorem sqDb_addr (p n : Nat) : RegId.sqDb.addr p n = 0x102000 + p * 0x10000 + n * 4 := rfl
theorem cqDb_addr (p n : Nat) : RegId.cqDb.addr p n = 0x102040 + p * 0x10000 + n * 4 := rfl

theorem State.writeReg_sqDb (s : State) (p : Fin 64) (n : Fin 16) (d : W32) :
    s.writeReg { id := .sqDb, i := p, j := n } d = s.sqDoorbell p n (fld d 16 0) := by
  have ha := sqDb_addr p n
  exact s.writeReg_partitionWindow (by simp only [RegRef.addr]; omega) (by simp only [RegRef.addr]; omega) d

theorem State.writeReg_cqDb (s : State) (p : Fin 64) (n : Fin 16) (d : W32) :
    s.writeReg { id := .cqDb, i := p, j := n } d = s.cqDoorbell p n (fld d 16 0) := by
  have ha := cqDb_addr p n
  exact s.writeReg_partitionWindow (by simp only [RegRef.addr]; omega) (by simp only [RegRef.addr]; omega) d

/-! ### What a doorbell does, by the ring's state and the proposed pointer -/

theorem State.sqDoorbell_accepted {p n t : Nat} (hst : s.sqState p n = 1 ∨ s.sqState p n = 4)
    (hfit : t < 2 * s.sqSize p n ∧ ringSub (s.sqSize p n) t (s.sqTail p n) + s.sqFill p n ≤ s.sqSize p n) :
    s.sqDoorbell p n t = (s.setReg .sqTail (BitVec.ofNat 32 t) p n).resumeFetch p n := by
  simp only [State.sqDoorbell, if_pos hst, if_pos hfit]

theorem State.sqDoorbell_overrun {p n t : Nat} (hst : s.sqState p n = 1 ∨ s.sqState p n = 4)
    (hfit : ¬(t < 2 * s.sqSize p n ∧ ringSub (s.sqSize p n) t (s.sqTail p n) + s.sqFill p n ≤ s.sqSize p n)) :
    s.sqDoorbell p n t = (s.setB .sqStatus 5 true p n).ringEvent p n := by
  simp only [State.sqDoorbell, if_pos hst, if_neg hfit]

theorem State.sqDoorbell_ignored {p n : Nat} (hst : ¬(s.sqState p n = 1 ∨ s.sqState p n = 4)) (t : Nat) :
    s.sqDoorbell p n t = s := if_neg hst

theorem State.cqDoorbell_accepted {p n h : Nat} (hst : s.cqState p n = 1 ∨ s.cqState p n = 2)
    (hfit : h < 2 * s.cqSize p n ∧ ringSub (s.cqSize p n) h (s.cqHead p n) ≤ s.cqFill p n) :
    s.cqDoorbell p n h = s.setReg .cqHead (BitVec.ofNat 32 h) p n := by
  simp only [State.cqDoorbell, if_pos hst, if_pos hfit]

theorem State.cqDoorbell_overrun {p n h : Nat} (hst : s.cqState p n = 1 ∨ s.cqState p n = 2)
    (hfit : ¬(h < 2 * s.cqSize p n ∧ ringSub (s.cqSize p n) h (s.cqHead p n) ≤ s.cqFill p n)) :
    s.cqDoorbell p n h = (s.setB .cqStatus 5 true p n).ringEvent p (16 + n) := by
  simp only [State.cqDoorbell, if_pos hst, if_neg hfit]

theorem State.cqDoorbell_ignored {p n : Nat} (hst : ¬(s.cqState p n = 1 ∨ s.cqState p n = 2)) (h : Nat) :
    s.cqDoorbell p n h = s := if_neg hst

/-! ### The commands -/

/-- A carried SQ_DB comes to the submission doorbell of its ring. -/
theorem exec_sqDb_carried {t : State} (hc : s.Carries acc (RegId.sqDb.target p n)) (ht : s.sqDoorbell p n (fld d 16 0) = t) :
    exec (.sqDb acc p n d) s = .next (s.wrapUp (t.respond .okay 0)) :=
  State.write_carried_eq hc ((s.writeReg_sqDb p n d).trans ht)

/-- A carried CQ_DB comes to the completion doorbell of its ring. -/
theorem exec_cqDb_carried {t : State} (hc : s.Carries acc (RegId.cqDb.target p n)) (ht : s.cqDoorbell p n (fld d 16 0) = t) :
    exec (.cqDb acc p n d) s = .next (s.wrapUp (t.respond .okay 0)) :=
  State.write_carried_eq hc ((s.writeReg_cqDb p n d).trans ht)

end Sys2Proof.Machine

open Sys2Proof.Machine in
/-- Settles O16: a carried doorbell is the ring's doorbell operation (`exec_sqDb_carried`, `exec_cqDb_carried`), whose three outcomes
are the clauses for each kind of ring. The port carries doorbells in the safe state as well (log entry 10). -/
theorem ringDoorbells : Obligations.RingDoorbells := by
  unfold Obligations.RingDoorbells
  intro s acc p n d
  refine ⟨?sqAccepted, ?sqOverrun, ?sqIgnored, ?cqAccepted, ?cqOverrun, ?cqIgnored⟩
  case sqAccepted => exact fun hc hst ht hd => exec_sqDb_carried hc (State.sqDoorbell_accepted hst ⟨ht, hd⟩)
  case sqOverrun => exact fun hc hst hfit => exec_sqDb_carried hc (State.sqDoorbell_overrun hst hfit)
  case sqIgnored => exact fun hc h1 h4 => exec_sqDb_carried hc (State.sqDoorbell_ignored (not_or.mpr ⟨h1, h4⟩) _)
  case cqAccepted => exact fun hc hst ht hd => exec_cqDb_carried hc (State.cqDoorbell_accepted hst ⟨ht, hd⟩)
  case cqOverrun => exact fun hc hst hfit => exec_cqDb_carried hc (State.cqDoorbell_overrun hst hfit)
  case cqIgnored => exact fun hc h1 h2 => exec_cqDb_carried hc (State.cqDoorbell_ignored (not_or.mpr ⟨h1, h2⟩) _)

end

section
/-!
PROOFS. Branches, jumps, subroutine calls, RTS and RTE (R200, R201, R207): the effect of each on a Lockkeeper that has come to its
instruction, as a change of the running context or a halt.
-/
namespace Sys2Proof.Machine

/-! ### Replacing an entry or a context by what its old value gives -/

/-- What a replacement does to the entry that stands at its place is all it does. -/
theorem modAt_congr {α : Type} {f g : α → α} {d : α} {n : Nat} {xs : List α} (h : f (xs.getD n d) = g (xs.getD n d)) :
    modAt f n xs = modAt g n xs := by
  induction xs generalizing n with
  | nil => simp
  | cons x xs ih =>
    cases n with
    | zero => exact congrArg (· :: xs) h
    | succ n => exact congrArg (x :: ·) (ih h)

theorem Lk.updCtx_congr {l : Lk} {c : Nat} {f g : Ctx → Ctx} (h : f (l.ctx c) = g (l.ctx c)) : l.updCtx c f = l.updCtx c g :=
  congrArg (fun xs => { l with ctxs := xs }) (modAt_congr h)

theorem State.updCtx_putLk (s : State) (n : Nat) (l : Lk) (c : Nat) (f : Ctx → Ctx) :
    (s.putLk n l).updCtx n c f = s.putLk n (l.updCtx c f) :=
  s.updLk_putLk n _ l

namespace State.AtInstr

variable {s : State} {n c : Nat} {l : Lk} {w : W16} {i : LkInstr}

/-- A Lockkeeper command at its instruction answers what executing the instruction gives. -/
theorem run_eq (h : s.AtInstr n l c w i) {u : State} (hu : (s.putLk n l).lkExecute n c w i = u) :
    s.run (fun s => s.runLk n i) = .next (s.wrapUp u) :=
  next_congr (h.runLk.trans hu)

/-! ### Branches (R200) -/

/-- A branch on a condition of the running context moves that context alone. -/
theorem branch (h : s.AtInstr n l c w i) (o : Byte) (taken : Ctx → Bool) :
    (s.putLk n l).branch n c o (taken (((s.putLk n l).lk n).ctx c)) =
      s.putLk n (l.updCtx c (fun x => { x with pc := x.pc + 1 + (if taken x then o.signExtend 16 else 0) })) := by
  rw [h.lk_putLk, State.branch, State.updCtx_putLk]
  exact congrArg (s.putLk n) (Lk.updCtx_congr rfl)

/-! ### Jumps and calls (R201) -/

/-- A jump goes to its target; one that pushes, with room on the stack, leaves the return address there. -/
theorem jump (h : s.AtInstr n l c w i) (push : Bool) (hroom : push = true → ¬ 16 ≤ (l.ctx c).stack.length) (words : Nat) (t : W16) :
    (s.putLk n l).jump n c words push t =
      s.putLk n (l.updCtx c (fun x =>
        { x with stack := if push then (x.pc + BitVec.ofNat 16 words) :: x.stack else x.stack, pc := t })) := by
  rw [State.jump, h.lk_putLk, if_neg (not_and.mpr hroom), State.updCtx_putLk]

theorem jump_stackFull (h : s.AtInstr n l c w i) (hfull : 16 ≤ (l.ctx c).stack.length) (words : Nat) (t : W16) :
    (s.putLk n l).jump n c words true t = (s.putLk n l).haltLk n c .stack := by
  rw [State.jump, h.lk_putLk, if_pos ⟨rfl, hfull⟩]

/-- An indexed jump that reads a sound word jumps to it. -/
theorem jumpX (h : s.AtInstr n l c w i) (push : Bool) (hroom : push = true → ¬ 16 ≤ (l.ctx c).stack.length) {a v : W16}
    (hread : (s.putLk n l).lkRead n c (a + (l.ctx c).x).toNat = .ok v) (hsound : l.flaws (dataKey c (a + (l.ctx c).x).toNat) = []) :
    (s.putLk n l).jumpX n c push a =
      s.putLk n (l.updCtx c (fun x => { x with stack := if push then (x.pc + 2) :: x.stack else x.stack, pc := v })) := by
  simp only [State.jumpX, h.lk_putLk, if_neg (not_and.mpr hroom), hread, h.noteWords hsound]
  exact h.jump push hroom 2 v

theorem rts_pop (h : s.AtInstr n l c w i) {v : W16} {rest : List W16} (hs : (l.ctx c).stack = v :: rest) :
    (s.putLk n l).rts n c = s.putLk n (l.updCtx c (fun x => { x with stack := rest, pc := v })) := by
  simp only [State.rts, h.lk_putLk, hs, State.updCtx_putLk]

theorem rts_stackEmpty (h : s.AtInstr n l c w i) (hs : (l.ctx c).stack = []) :
    (s.putLk n l).rts n c = (s.putLk n l).haltLk n c .stack := by
  simp only [State.rts, h.lk_putLk, hs]

/-! ### Return from emulation (R207) -/

theorem rte_active (h : s.AtInstr n l c w i) (ha : (l.ctx c).emuStat.getLsbD 4 = true) :
    (s.putLk n l).rte n c = s.putLk n (l.updCtx c (fun x =>
      { x with fN := x.emuStat.getLsbD 3, fZ := x.emuStat.getLsbD 2, fC := x.emuStat.getLsbD 1, fV := x.emuStat.getLsbD 0,
               emuStat := x.emuStat &&& 0xFFEF, pc := x.emuPc })) := by
  rw [State.rte, h.lk_putLk, if_pos ha, State.updCtx_putLk]
  rfl

theorem rte_inactive (h : s.AtInstr n l c w i) (ha : (l.ctx c).emuStat.getLsbD 4 = false) :
    (s.putLk n l).rte n c = (s.putLk n l).haltLk n c .emuState := by
  rw [State.rte, h.lk_putLk, ha]
  rfl

end State.AtInstr

end Sys2Proof.Machine

open Sys2Proof.Machine in
/-- Settles O12: a command at its instruction executes it (`State.AtInstr.run_eq`). A branch moves the running context by its
condition, a jump by its stack's room and its target, and RTS and RTE by the stack and ACTIVE: one lemma for each outcome. -/
theorem branchesAndJumps : Obligations.BranchesAndJumps := by
  unfold Obligations.BranchesAndJumps
  constructor
  case left =>
    intro s lk l c w o
    refine ⟨?beq, ?bne, ?bcs, ?bcc, ?bmi, ?bpl, ?bvs, ?bvc, ?bra⟩
    case beq => exact fun h => h.run_eq (h.branch o fun x => x.fZ)
    case bne => exact fun h => h.run_eq (h.branch o fun x => !x.fZ)
    case bcs => exact fun h => h.run_eq (h.branch o fun x => x.fC)
    case bcc => exact fun h => h.run_eq (h.branch o fun x => !x.fC)
    case bmi => exact fun h => h.run_eq (h.branch o fun x => x.fN)
    case bpl => exact fun h => h.run_eq (h.branch o fun x => !x.fN)
    case bvs => exact fun h => h.run_eq (h.branch o fun x => x.fV)
    case bvc => exact fun h => h.run_eq (h.branch o fun x => !x.fV)
    case bra => exact fun h => h.run_eq (h.branch o fun _ => true)
  case right =>
    intro s lk l c w t v rest
    refine ⟨?jmp, ?jsr, ?jmpX, ?jsrX, ?rts, ?rte, ?jsrFull, ?rtsEmpty, ?rteInactive⟩
    case jmp => exact fun h => h.run_eq (h.jump false nofun 2 t)
    case jsr => exact fun h hroom => h.run_eq (h.jump true (fun _ => Nat.not_le.mpr hroom) 2 t)
    case jmpX => exact fun h hread hsound => h.run_eq (h.jumpX false nofun hread hsound)
    case jsrX => exact fun h hroom hread hsound => h.run_eq (h.jumpX true (fun _ => Nat.not_le.mpr hroom) hread hsound)
    case rts => exact fun h hs => h.run_eq (h.rts_pop hs)
    case rte => exact fun h ha => h.run_eq (h.rte_active ha)
    case jsrFull => exact fun h hfull => h.run_eq (h.jump_stackFull hfull 2 t)
    case rtsEmpty => exact fun h hs => h.run_eq (h.rts_stackEmpty hs)
    case rteInactive => exact fun h ha => h.run_eq (h.rte_inactive ha)

end

section
/-!
PROOFS. The commands of LC_CTRL (R441, R444 to R448, R451, R452, R554, R555): while BUSY stands a carried write of LC_CTRL or LC_TOKEN
changes nothing; without it, GO runs the command that CMD names, and each command ends by the first of its checks that fails, or starts.
-/
namespace Sys2Proof.Machine

variable {s : State} {acc : Access} {d : W32}

/-! ### Writes of LC_CTRL and LC_TOKEN -/

/-- Every register of the key store, the life cycle and the tamper monitors is written by their part of the map (R9). -/
theorem State.writeReg_keyWindow (s : State) {x : RegRef} (hlo : 0x010000 ≤ x.addr) (hhi : x.addr < 0x040000) (d : W32) :
    s.writeReg x d = s.writeKeys x d := by
  simp only [State.writeReg, Nat.not_lt.mpr hlo, hhi, if_true, if_false]

theorem lcToken_addr (n : Nat) : RegId.lcToken.addr n 0 = 0x020020 + n * 4 := rfl

/-- The address of LC_CTRL names it. -/
theorem targetOf_lcCtrl : targetOf 0x20004 = RegId.lcCtrl.target 0 0 := by decide

/-- The address of each token word names it. -/
theorem targetOf_lcToken : ∀ n : Fin 8, targetOf (0x20020 + 4 * n.val) = RegId.lcToken.target n 0 := by decide

theorem State.writeReg_lcCtrl_busy (hb : s.regB .lcStatus 31 = true) (d : W32) : s.writeReg { id := .lcCtrl } d = s :=
  (s.writeReg_keyWindow (by decide) (by decide) d).trans (if_pos hb)

theorem State.writeReg_lcCtrl_go (hb : s.regB .lcStatus 31 = false) (hgo : bitOf d 31 = true) :
    s.writeReg { id := .lcCtrl } d = (s.store { id := .lcCtrl } d).lcCommand := by
  rw [s.writeReg_keyWindow (by decide) (by decide) d]
  simp only [State.writeKeys, hb, hgo, if_true, Bool.false_eq_true, if_false]

theorem State.writeReg_lcToken_busy (hb : s.regB .lcStatus 31 = true) (n : Fin 8) (d : W32) :
    s.writeReg { id := .lcToken, i := n } d = s := by
  have ha := lcToken_addr n
  exact (s.writeReg_keyWindow (by simp only [RegRef.addr]; omega) (by simp only [RegRef.addr]; omega) d).trans (if_pos hb)

/-- A write to the address of a register is a write to it by its name. -/
theorem State.portWrite_eq_write {a : Nat} {r : RegId} {i j : Nat} (ha : portAddr a = true) (ht : targetOf a = r.target i j) :
    s.portWrite acc a d = s.write acc d r i j := by
  simp only [State.portWrite, ha, if_true, ht, State.write]

/-! ### What the commands do -/

/-- Each command of LC_CTRL is a write of that register, and so is a write to its address. -/
theorem exec_lcCtrl (s : State) (acc : Access) (d : W32) :
    ∀ c ∈ [Instr.transition acc d, .repair acc d, .debugUnlock acc d, .rootCreate acc d, .progDigest acc d, .attest acc d,
      .registerWrite acc 0x20004 d], exec c s = .next (s.wrapUp (s.write acc d .lcCtrl)) := by
  simp only [List.forall_mem_cons]
  refine ⟨rfl, rfl, rfl, rfl, rfl, rfl, ?_, nofun⟩
  exact State.next_congr (State.portWrite_eq_write (by decide) targetOf_lcCtrl)

/-- A carried write of GO outside BUSY ends by what its command does. -/
theorem State.write_lcCtrl_go {t : State} (hc : s.Carries acc (RegId.lcCtrl.target 0 0)) (hb : s.regB .lcStatus 31 = false)
    (hgo : bitOf d 31 = true) (ht : (s.store { id := .lcCtrl } d).lcCommand = t) :
    (Host.Outcome.next (s.wrapUp (s.write acc d .lcCtrl)) : Host.Outcome State Fault Refusal) = .next (s.wrapUp (t.respond .okay 0)) :=
  State.write_carried_eq hc ((State.writeReg_lcCtrl_go hb hgo).trans ht)

/-! ### TRANSITION (R446, R555) -/

theorem State.lcCommand_transition (h : s.regF .lcCtrl 3 0 = 1) : s.lcCommand = s.transition (s.regF .lcCtrl 10 8) := by
  simp only [State.lcCommand, h]

theorem State.transition_fails {target res : Nat} (h : s.transitionFails target = some res) : s.transition target = s.lcRefused res := by
  simp only [State.transition, h]

/-- A transition that keeps the secrets programs the copies at once. -/
theorem State.transition_programs {target : Nat} (h : s.transitionFails target = none) (hr : target ≠ lcReturn) (hd : target ≠ lcDecom) :
    s.transition target = (s.setB .lcStatus 31 true).programCopies target := by
  simp only [State.transition, h, hr, hd, or_self, if_false]

/-- RETURN and DECOMMISSIONED zeroize first. -/
theorem State.transition_zeroizes {target : Nat} (h : s.transitionFails target = none) (ht : target = lcReturn ∨ target = lcDecom)
    (hz : s.tamper.zeroize = none) :
    s.transition target = (s.setB .lcStatus 31 true).zeroizeBegin { transition := true } := by
  have hz' : (s.setB .lcStatus 31 true).tamper.zeroize = none := hz
  simp only [State.transition, h, ht, if_true, hz']

/-! ### REPAIR (R448) -/

theorem State.lcCommand_repair (h : s.regF .lcCtrl 3 0 = 2) : s.lcCommand = s.repair := by
  simp only [State.lcCommand, h]

theorem State.repair_programs (hlc : s.lc < 6) (hlag : [0, 1, 2].filter (fun i => copyLags (codeword s.lc) (s.otpWord i)) ≠ []) :
    s.repair = (s.setB .lcStatus 31 true).program .repair
      (([0, 1, 2].filter (fun i => copyLags (codeword s.lc) (s.otpWord i))).map (fun i => (i, codeword s.lc))) :=
  if_neg (not_or.mpr ⟨Nat.not_le.mpr hlc, mt List.isEmpty_iff.mp hlag⟩)

theorem State.repair_refused (h : 6 ≤ s.lc ∨ [0, 1, 2].filter (fun i => copyLags (codeword s.lc) (s.otpWord i)) = []) :
    s.repair = s.lcRefused 4 :=
  if_pos (h.imp_right List.isEmpty_iff.mpr)

/-! ### DEBUG_UNLOCK (R451, R555) -/

theorem State.lcCommand_debugUnlock (h : s.regF .lcCtrl 3 0 = 3) : s.lcCommand = s.debugUnlock := by
  simp only [State.lcCommand, h]

/-- With tries left and a digest programmed, the token decides. -/
theorem State.debugUnlock_judged (hopen : s.regB .lcStatus 20 = false) (hdig : allZero (s.otpBytes 0x060 8) = false) :
    s.debugUnlock = if s.tokenMatches (some 0x060) 7 then (s.setB .lcStatus 19 true).lcEnds 0 else s.lcRefused 2 := by
  simp only [State.debugUnlock, hopen, hdig, Bool.false_eq_true, if_false]

/-! ### ROOT_CREATE (R441) -/

theorem State.lcCommand_rootCreate (h : s.regF .lcCtrl 3 0 = 4) : s.lcCommand = s.rootCreate (s.regF .lcCtrl 15 12) := by
  simp only [State.lcCommand, h]

/-- A root is drawn into the first empty field of its pair, and its seal word after it. -/
theorem State.rootCreate_programs {index f : Nat} {t : State} {b : Bytes} (hi : index < 2)
    (hlc : s.lc = (if index == 1 then lcProvisioned else lcFactory)) (hrng : s.rngState = rngReady)
    (hroot : s.rootField (index == 1) = none)
    (hf : [if index == 1 then 2 else 0, (if index == 1 then 2 else 0) + 1].find? (fun f => allZero (s.otpBytes (0x100 + 8 * f) 8)) = some f)
    (hdraw : s.draw 8 0 32 = (t, b)) :
    s.rootCreate index = (t.setB .lcStatus 31 true).program .rootCreate
      (otpWords (0x100 + 8 * f) (fit 32 b) ++ [(0x120 + f, 0xFFFFFFFF)]) := by
  simp only [State.rootCreate, Nat.not_le.mpr hi, if_false, ← hlc, hrng, hroot, hf, hdraw, ne_eq, not_true_eq_false,
    Option.isSome_none, Bool.false_eq_true]

/-! ### PROG_DIGEST (R452) -/

theorem State.lcCommand_progDigest (h : s.regF .lcCtrl 3 0 = 5) : s.lcCommand = s.progDigest (s.regF .lcCtrl 15 12) := by
  simp only [State.lcCommand, h]

/-- PROVISIONED programs every field of R452 but the two that FACTORY alone programs. -/
theorem progDigest_provisionedFields {index : Nat} (hi : index < 7) (h0 : index ≠ 0) (h2 : index ≠ 2) :
    [1, 3, 4, 5, 6].contains index = true := by
  simp only [List.contains_iff_mem, List.mem_cons, List.not_mem_nil]
  omega

theorem State.progDigest_programs {index : Nat} (hi : index < 7)
    (hlc : s.lc = lcFactory ∨ (s.lc = lcProvisioned ∧ index ≠ 0 ∧ index ≠ 2)) (hz : allZero (s.otpBytes (digestField index) 8) = true) :
    s.progDigest index = (s.setB .lcStatus 31 true).program .progDigest (otpWords (digestField index) s.token) := by
  have hallowed : (s.lc == lcFactory || (s.lc == lcProvisioned && [1, 3, 4, 5, 6].contains index)) = true := by
    rcases hlc with hf | ⟨hp, h0, h2⟩
    · simp only [hf, beq_self_eq_true, Bool.true_or]
    · simp only [hp, beq_self_eq_true, progDigest_provisionedFields hi h0 h2, Bool.and_self, Bool.or_true]
  simp only [State.progDigest, Nat.not_le.mpr hi, hallowed, hz, Bool.not_true, Bool.false_eq_true, if_false]

/-! ### ATTEST (R451) -/

theorem State.lcCommand_attest (h : s.regF .lcCtrl 3 0 = 6) : s.lcCommand = s.attest := by
  simp only [State.lcCommand, h]

theorem State.attest_responds {root : Bytes} (hdbg : s.pins.dbgEn = false) (hroot : s.rootFor .attest = some root) :
    s.attest =
      let resp := kmac256 (kmac256 root s.deviceId 256 "P3 ATTEST") (s.token ++ toLe 1 s.lc ++ s.deviceId) 256 "P3 RETURN ATTEST"
      ((numsFrom 0 8).foldl (fun t n => t.setReg .lcAttestResp (BitVec.ofNat 32 (le32 resp (4 * n))) n) s).lcEnds 0 := by
  simp only [State.attest, hdbg, Bool.false_eq_true, if_false, hroot]

/-- With dbg_en high, or without a device root, there is nothing to attest with. -/
theorem State.attest_refused (h : s.pins.dbgEn = true ∨ s.rootFor .attest = none) : s.attest = s.lcRefused 4 := by
  have hnone : (if s.pins.dbgEn then none else s.rootFor .attest) = none := ite_eq_left_iff.mpr fun hdbg => h.resolve_left hdbg
  simp only [State.attest, hnone]

end Sys2Proof.Machine

open Sys2Proof.Machine in
/-- Settles O52: every command of LC_CTRL is a write of that register (`exec_lcCtrl`), which BUSY turns into nothing
(`State.writeReg_lcCtrl_busy`) and which otherwise runs the command that CMD names (`State.write_lcCtrl_go`): one lemma for each
outcome of a command. The refusal of an ATTEST without a root follows R450 and R451. -/
theorem lifeCycleCommands : Obligations.LifeCycleCommands := by
  unfold Obligations.LifeCycleCommands
  intro s t acc n d res f root b u cmd target index owner lag busy isOpen resp ends hc
  refine ⟨?ctrlBusy, ?tokenBusy, fun hgo hb => ?go⟩
  case ctrlBusy =>
    exact fun hb c hmem => (exec_lcCtrl s acc d c hmem).trans (State.write_carried_eq hc (State.writeReg_lcCtrl_busy hb d))
  case tokenBusy =>
    intro hb hct
    have ha : portAddr (0x20020 + 4 * n.val) = true := by simp only [portAddr, Bool.and_eq_true, decide_eq_true_eq]; omega
    exact (State.next_congr (State.portWrite_eq_write ha (targetOf_lcToken n))).trans
      (State.write_carried_eq hct (State.writeReg_lcToken_busy hb n d))
  case go =>
    have run {t : State} (ht : u.lcCommand = t) := State.write_lcCtrl_go hc hb hgo ht
    refine ⟨?fails, ?programs, ?zeroizes, ?repair, ?repairRefused, ?unlock, ?tokenWrong, ?rootCreate, ?progDigest, ?attest, ?attestRefused⟩
    case fails => exact fun hcmd hf => run ((State.lcCommand_transition hcmd).trans (State.transition_fails hf))
    case programs => exact fun hcmd hf hr hd => run ((State.lcCommand_transition hcmd).trans (State.transition_programs hf hr hd))
    case zeroizes => exact fun hcmd hf ht hz => run ((State.lcCommand_transition hcmd).trans (State.transition_zeroizes hf ht hz))
    case repair => exact fun hcmd hlc hlag => run ((State.lcCommand_repair hcmd).trans (State.repair_programs hlc hlag))
    case repairRefused => exact fun hcmd h => run ((State.lcCommand_repair hcmd).trans (State.repair_refused h))
    case unlock =>
      exact fun hcmd ho hd hm => run ((State.lcCommand_debugUnlock hcmd).trans ((State.debugUnlock_judged ho hd).trans (if_pos hm)))
    case tokenWrong =>
      exact fun hcmd ho hd hm => run ((State.lcCommand_debugUnlock hcmd).trans
        ((State.debugUnlock_judged ho hd).trans (if_neg (Bool.not_eq_true _ ▸ hm))))
    case rootCreate =>
      exact fun hcmd hi hlc hrng hroot hf hdraw =>
        run ((State.lcCommand_rootCreate hcmd).trans (State.rootCreate_programs hi hlc hrng hroot hf hdraw))
    case progDigest => exact fun hcmd hi hlc hz => run ((State.lcCommand_progDigest hcmd).trans (State.progDigest_programs hi hlc hz))
    case attest => exact fun hcmd hdbg hroot => run ((State.lcCommand_attest hcmd).trans (State.attest_responds hdbg hroot))
    case attestRefused => exact fun hcmd h => run ((State.lcCommand_attest hcmd).trans (State.attest_refused h))

end

section
/-!
PROOFS. Who may use which window of the register port (R541 to R543): the window of an address, what the requester needs in it, and,
once the phase admits every access, that the fourth step alone decides whether the access is refused.
-/
namespace Sys2Proof.Machine

variable {s : State} {acc : Access} {write : Bool} {a p : Nat}

/-! ### The window of an address (R541) -/

/-- The windows of P0 in every life-cycle state: management, broadcast and group, individual engines. -/
def Window.managed (w : Window) : Prop := w = .mgt ∨ w = .group ∨ w = .engines

theorem windowOf_managed (h : a < 0x100000 ∨ (0x500000 ≤ a ∧ a < 0x700000)) : ∃ w, windowOf a = some w ∧ w.managed := by
  unfold windowOf Window.managed
  rcases h with hlow | ⟨hlo, hhi⟩
  · exact ⟨.mgt, if_pos hlow, .inl rfl⟩
  · have h1 : ¬ a < 0x100000 := by omega
    have h5 : ¬ a < 0x500000 := by omega
    by_cases h6 : a < 0x600000
    · exact ⟨.group, by simp only [h1, h5, h6, if_true, if_false], .inr (.inl rfl)⟩
    · exact ⟨.engines, by simp only [h1, h5, h6, hhi, if_true, if_false], .inr (.inr rfl)⟩

theorem windowOf_partition (hlo : 0x100000 + 0x10000 * p ≤ a) (hhi : a < 0x110000 + 0x10000 * p) (hp : p < 64) :
    windowOf a = some (.part p) := by
  have h1 : ¬ a < 0x100000 := by omega
  have h5 : a < 0x500000 := by omega
  have hdiv : (a - 0x100000) / 0x10000 = p := by omega
  simp only [windowOf, h1, h5, hdiv, if_true, if_false]

theorem windowOf_test (hlo : 0x700000 ≤ a) (hhi : a < 0x800000) : windowOf a = some .test := by
  have h1 : ¬ a < 0x100000 := by omega
  have h5 : ¬ a < 0x500000 := by omega
  have h6 : ¬ a < 0x600000 := by omega
  have h7 : ¬ a < 0x700000 := by omega
  simp only [windowOf, h1, h5, h6, h7, hhi, if_true, if_false]

/-! ### Step 3 in READY (R76, R542) -/

/-- READY admits every access to step 4. -/
theorem State.phaseAdmits_ready (h : s.phase = phReady) (write : Bool) (t : Target) : s.phaseAdmits write t = true := by
  simp only [State.phaseAdmits, h, if_true, ite_self]

/-- In READY an access to a mapped window, not from the debug port, is refused by step 4 or not at all: an empty address is
unmapped. -/
theorem State.judge_ne_refused_iff {t : Target} {w : Window} (hready : s.phase = phReady) (hdbg : acc.dbg = false)
    (hw : windowOf t.addr = some w) : s.judge acc write t ≠ .refused ↔ s.mayUse acc write t = true := by
  have hmapped : windowOf t.addr ≠ none := by simp only [hw, ne_eq, reduceCtorEq, not_false_eq_true]
  simp only [State.judge, if_neg hmapped, hdbg, State.phaseAdmits_ready hready, Bool.false_and, Bool.not_true, Bool.false_eq_true, if_false]
  cases s.mayUse acc write t with
  | false => simp only [Bool.not_false, if_true, ne_eq, not_true_eq_false, Bool.false_eq_true]
  | true => cases t.occupied <;> decide

/-! ### Step 4, by window (R543) -/

theorem State.mayUse_managed {t : Target} {w : Window} (hw : windowOf t.addr = some w) (hm : w.managed) :
    s.mayUse acc write t = true ↔ acc.ptn.val = 0 ∧ acc.priv = true := by
  rcases hm with rfl | rfl | rfl <;> simp only [State.mayUse, hw, Bool.and_eq_true, decide_eq_true_eq]

theorem State.mayUse_test {t : Target} (hw : windowOf t.addr = some .test) :
    s.mayUse acc write t = true ↔ (acc.ptn.val = 0 ∧ acc.priv = true) ∧ (s.lc = lcBlank ∨ s.lc = lcFactory) := by
  simp only [State.mayUse, hw, Bool.and_eq_true, Bool.or_eq_true, decide_eq_true_eq]

theorem State.mayUse_partition {t : Target} (hw : windowOf t.addr = some (.part p)) :
    s.mayUse acc write t = true ↔ s.enabled p = true ∧ acc.ptn.val = p ∧ (write = true → s.mayWritePart acc p t.reg = true) := by
  simp only [State.mayUse, hw, Bool.and_eq_true, Bool.or_eq_true, Bool.not_eq_true', decide_eq_true_eq, and_assoc]
  cases write <;> simp only [Bool.false_eq_true, reduceCtorEq, false_or, true_or, false_imp_iff, true_imp_iff]

/-! ### Writes to a partition window, by register (R543) -/

/-- The rows of the register map give the doorbells to every requester of the partition and the key stage to its key writers. -/
theorem RegId.row_part (r : RegId) :
    r.row.part =
      if r = .sqDb ∨ r = .cqDb then .doorbell
      else if r = .keyStage ∨ r = .keyStageAttr ∨ r = .keyCommit then .keyStage
      else .privileged := by
  cases r <;> rfl

theorem State.mayWritePart_doorbell {x : Option RegRef} (h : x.map (·.id) = some .sqDb ∨ x.map (·.id) = some .cqDb) :
    s.mayWritePart acc p x = true := by
  cases x with
  | none => simp only [Option.map_none, reduceCtorEq, or_self] at h
  | some r =>
    simp only [Option.map_some, Option.some.injEq] at h
    simp only [State.mayWritePart, RegId.row_part, if_pos h]

theorem State.mayWritePart_keyStage {x : Option RegRef}
    (h : x.map (·.id) = some .keyStage ∨ x.map (·.id) = some .keyStageAttr ∨ x.map (·.id) = some .keyCommit) :
    s.mayWritePart acc p x = (acc.priv && s.keyWrite p) := by
  cases x with
  | none => simp only [Option.map_none, reduceCtorEq, or_self] at h
  | some r =>
    simp only [Option.map_some, Option.some.injEq] at h
    have hdb : ¬(r.id = .sqDb ∨ r.id = .cqDb) := by rcases h with h | h | h <;> rw [h] <;> decide
    simp only [State.mayWritePart, RegId.row_part, if_neg hdb, if_pos h]

theorem State.mayWritePart_other {x : Option RegRef}
    (h : x.map (·.id) ∉ [some .sqDb, some .cqDb, some .keyStage, some .keyStageAttr, some .keyCommit]) :
    s.mayWritePart acc p x = acc.priv := by
  cases x with
  | none => rfl
  | some r =>
    simp only [Option.map_some, List.mem_cons, Option.some.injEq, List.not_mem_nil, or_false, not_or] at h
    obtain ⟨hsq, hcq, hstage⟩ := h
    simp only [State.mayWritePart, RegId.row_part, if_neg (not_or.mpr ⟨hsq, hcq⟩), if_neg (not_or.mpr ⟨hstage.1, not_or.mpr hstage.2⟩)]

end Sys2Proof.Machine

open Sys2Proof.Machine in
/-- Settles O27: in READY only step 4 refuses (`State.judge_ne_refused_iff`), and step 4 asks in each window for what R543's table
says (`State.mayUse_managed`, `State.mayUse_test`, `State.mayUse_partition`), a partition's writes by the kind of the register
(`State.mayWritePart_doorbell`, `_keyStage`, `_other`). Step 4 is the same in the safe state, so the premise is not used. -/
theorem accessRights : Obligations.AccessRights := by
  unfold Obligations.AccessRights
  intro s acc a p x hready _ hdbg hx p0 reads writes window own
  have judged {w : Window} (hw : windowOf a = some w) (write : Bool) :
      s.judge acc write (targetOf a) ≠ .refused ↔ s.mayUse acc write (targetOf a) = true :=
    State.judge_ne_refused_iff hready hdbg hw
  have inWindow : window → windowOf a = some (.part p) := fun ⟨hlo, hhi, hp⟩ => windowOf_partition hlo hhi hp
  have partWrites (h : window) : writes ↔ own (s.mayWritePart acc p x = true) := by
    rw [← hx]
    exact (judged (inWindow h) true).trans ((State.mayUse_partition (inWindow h)).trans (by simp only [own, targetOf, true_imp_iff]))
  refine ⟨?managed, ?test, ?partReads, ?doorbells, ?keyStage, ?others⟩
  case managed =>
    intro h
    obtain ⟨w, hw, hm⟩ := windowOf_managed h
    exact ⟨(judged hw false).trans (State.mayUse_managed hw hm), (judged hw true).trans (State.mayUse_managed hw hm)⟩
  case test =>
    intro hlo hhi
    have hw := windowOf_test hlo hhi
    exact ⟨(judged hw false).trans (State.mayUse_test hw), (judged hw true).trans (State.mayUse_test hw)⟩
  case partReads =>
    intro h
    exact (judged (inWindow h) false).trans ((State.mayUse_partition (inWindow h)).trans (by
      simp only [own, Bool.false_eq_true, false_imp_iff]))
  case doorbells =>
    intro h hid
    simpa only [State.mayWritePart_doorbell hid] using partWrites h
  case keyStage =>
    intro h hid
    simpa only [State.mayWritePart_keyStage hid, Bool.and_eq_true] using partWrites h
  case others =>
    intro h hid
    simpa only [State.mayWritePart_other hid] using partWrites h

end

section
/-!
PROOFS. The encoding of Lockkeeper instructions (R195 to R199): the fields of a word that was put together, decoding of what was encoded,
and the word that an instruction was decoded from.
-/
namespace Sys2Proof.Machine

/-! ### Fields of a word that was put together -/

@[simp] theorem wf_class_add_byte {k : Nat} (h0 : k % 256 = 0) (b : Byte) : wf (BitVec.ofNat 16 (k + b.toNat)) 15 12 = k / 0x1000 % 16 := by
  simp only [wf, BitVec.toNat_ofNat]; omega

@[simp] theorem wf_group_add_byte {k : Nat} (h0 : k % 256 = 0) (b : Byte) : wf (BitVec.ofNat 16 (k + b.toNat)) 11 8 = k / 0x100 % 16 := by
  simp only [wf, BitVec.toNat_ofNat]; omega

@[simp] theorem ofNat_add_byte {k : Nat} (h0 : k % 256 = 0) (b : Byte) : BitVec.ofNat 8 ((k + b.toNat) % 65536) = b := by
  apply BitVec.eq_of_toNat_eq
  simp only [BitVec.toNat_ofNat]; omega

/-- Bit 8 of a word is the parity of its high byte. -/
theorem getLsbD_eight (w : W16) : w.getLsbD 8 = decide (w.toNat / 256 % 2 = 1) := by
  simp only [BitVec.getLsbD, Nat.testBit_eq_decide_div_mod_eq, Nat.reducePow]

/-- The mode of an operand form, as bits [11:9] of the first word (R196). -/
def LkOperand.mode : LkOperand → Nat
  | .short _ _ => 0 | .long _ _ => 1 | .page _ _ => 2 | .ctrl _ _ => 3 | .abs _ _ => 4 | .absX _ _ => 5 | .absY _ _ => 6 | .ptrY _ _ => 7

/-- H and the byte of an operand form; a form with an extension word has no byte. -/
def LkOperand.low : LkOperand → Nat
  | .short b h | .page b h | .ctrl b h | .ptrY b h => b2n h * 256 + b.toNat
  | .long _ h | .abs _ h | .absX _ h | .absY _ h => b2n h * 256

theorem LkOperand.bits_fst (o : LkOperand) : o.bits.1 = 0x200 * o.mode + o.low := by
  cases o <;> simp only [LkOperand.bits, LkOperand.mode, LkOperand.low] <;> omega

theorem LkOperand.low_lt (o : LkOperand) : o.low < 0x200 := by
  have h2 (h : Bool) : b2n h ≤ 1 := by cases h <;> decide
  cases o <;> simp only [LkOperand.low] <;> rename_i b h <;> have := h2 h <;> omega

theorem LkOperand.mode_lt (o : LkOperand) : o.mode < 8 := by
  cases o <;> simp only [LkOperand.mode] <;> omega

/-- The first word of an operand form carries its class, its mode, and H with the byte. -/
theorem LkOperand.word_fields (o : LkOperand) {cls : Nat} (hcls : cls < 16) :
    let w := BitVec.ofNat 16 (cls * 0x1000 + o.bits.1)
    wf w 15 12 = cls ∧ wf w 11 9 = o.mode ∧ w.toNat % 0x200 = o.low := by
  have hl := o.low_lt
  have hm := o.mode_lt
  simp only [wf, BitVec.toNat_ofNat, o.bits_fst]
  omega

theorem byte_of_low {w : W16} {h : Bool} {b : Byte} (hl : w.toNat % 0x200 = b2n h * 256 + b.toNat) : BitVec.ofNat 8 w.toNat = b := by
  apply BitVec.eq_of_toNat_eq
  rw [BitVec.toNat_ofNat]; omega

theorem flag_of_low {w : W16} {h : Bool} {x : Nat} (hl : w.toNat % 0x200 = b2n h * 256 + x) (hx : x < 256) : w.getLsbD 8 = h := by
  rw [getLsbD_eight]
  cases h with
  | false => simp only [b2n, Bool.false_eq_true, if_false] at hl; simp only [decide_eq_false_iff_not]; omega
  | true => simp only [b2n, if_true] at hl; simp only [decide_eq_true_eq]; omega

/-- The words of an operand form are read back as the form. -/
theorem lkOperand_lkWords (o : LkOperand) {cls : Nat} (hcls : cls < 16) (ext : W16) :
    lkOperand ((lkWords cls o.bits).headD 0) ((lkWords cls o.bits).getD 1 ext) = o := by
  obtain ⟨-, hmode, hlow⟩ := o.word_fields hcls
  simp only [lkWords, List.headD_cons]
  generalize BitVec.ofNat 16 (cls * 0x1000 + o.bits.1) = w at *
  simp only [lkOperand, hmode]
  cases o with
  | short b h | page b h | ctrl b h | ptrY b h => simp only [LkOperand.mode, byte_of_low hlow, flag_of_low hlow b.isLt]
  | long x h | abs x h | absX x h | absY x h => 
    simp only [LkOperand.low] at hlow
    simp only [LkOperand.mode, flag_of_low (hlow.trans (Nat.add_zero _).symm) (by decide)]; rfl

/-! ### Decoding what was encoded -/

theorem wf_class_lkWords (o : LkOperand) {cls : Nat} (hcls : cls < 16) : wf ((lkWords cls o.bits).headD 0) 15 12 = cls :=
  (o.word_fields hcls).1

theorem wf_mode_lkWords (o : LkOperand) {cls : Nat} (hcls : cls < 16) : wf ((lkWords cls o.bits).headD 0) 11 9 = o.mode :=
  (o.word_fields hcls).2.1

/-- ST X and ST Y take every form but LONG, whose mode is 0 (R199). -/
theorem wellFormed_stX (o : LkOperand16) : (LkInstr.stX o).wellFormed = true ↔ o.bits.1 / 0x100 ≠ 0 := by
  cases o with
  | long x => simp [LkInstr.wellFormed, LkOperand16.bits]
  | page b | ctrl b => exact iff_of_true rfl (by simp only [LkOperand16.bits]; omega)
  | abs x => simp [LkInstr.wellFormed, LkOperand16.bits]

theorem wellFormed_stY (o : LkOperand16) : (LkInstr.stY o).wellFormed = true ↔ o.bits.1 / 0x100 ≠ 0 := by
  have hXY : (LkInstr.stY o).wellFormed = (LkInstr.stX o).wellFormed := by cases o <;> rfl
  rw [hXY, wellFormed_stX]

/-- The words of class 0x3, by direction and register (R197). -/
theorem lkDecode_class3 (o : LkOperand16) {k : Nat} (hk : k < 4) (ext : W16) :
    lkDecode ((lkWords 3 (0x400 * k + o.bits.1, o.bits.2)).headD 0) ((lkWords 3 (0x400 * k + o.bits.1, o.bits.2)).getD 1 ext) =
      match k with
      | 0 => some (.ldX o) | 1 => some (.ldY o)
      | 2 => if o.bits.1 / 0x100 = 0 then none else some (.stX o) | _ => if o.bits.1 / 0x100 = 0 then none else some (.stY o) := by
  have hlt : o.bits.1 < 0x400 := by cases o <;> simp only [LkOperand16.bits] <;> omega
  have hw : (BitVec.ofNat 16 (3 * 0x1000 + (0x400 * k + o.bits.1))).toNat = 0x3000 + 0x400 * k + o.bits.1 := by
    rw [BitVec.toNat_ofNat]; omega
  simp only [lkWords, List.headD_cons]
  generalize BitVec.ofNat 16 (3 * 0x1000 + (0x400 * k + o.bits.1)) = w at *
  have hcls : wf w 15 12 = 3 := by simp only [wf]; omega
  have hreg : wf w 11 10 = k := by simp only [wf]; omega
  have hmode : wf w 9 8 = o.bits.1 / 0x100 := by simp only [wf]; omega
  have hlow : wf w 7 0 = o.bits.1 % 0x100 := by simp only [wf]; omega
  have hbyte (b : Byte) (hb : o.bits.1 % 0x100 = b.toNat) : BitVec.ofNat 8 w.toNat = b := by
    apply BitVec.eq_of_toNat_eq; rw [BitVec.toNat_ofNat]; omega
  have ho : lkOperand16 w ((w :: o.bits.2.toList).getD 1 ext) = some o := by
    cases o with
    | long x | abs x => simp [lkOperand16, hmode, hlow, LkOperand16.bits]
    | page b =>
      have hm : wf w 9 8 = 1 := by simp only [hmode, LkOperand16.bits]; omega
      simp only [lkOperand16, hm, hbyte b (by simp only [LkOperand16.bits]; omega)]
    | ctrl b =>
      have hm : wf w 9 8 = 2 := by simp only [hmode, LkOperand16.bits]; omega
      simp only [lkOperand16, hm, hbyte b (by simp only [LkOperand16.bits]; omega)]
  simp only [lkDecode, hcls, ho, hreg, hmode]
  match k, hk with
  | 0, _ | 1, _ | 2, _ | 3, _ => rfl

/-- The words of shifts, by operation (R197). -/
theorem lkDecode_shift (c : LkCount) {k : Nat} (hk : k < 5) (ext : W16) :
    lkDecode (BitVec.ofNat 16 (0xC000 + 0x200 * k + c.bits)) ext =
      match k with
      | 0 => some (.shl c) | 1 => some (.shr c) | 2 => some (.asr c) | 3 => some (.rol c) | _ => some (.ror c) := by
  have hbits : c.bits ≤ 0x100 ∧ c.bits / 32 % 8 = 0 := by
    cases c with
    | imm n => have := n.isLt; simp only [LkCount.bits]; omega
    | fromX => decide
  have hw : (BitVec.ofNat 16 (0xC000 + 0x200 * k + c.bits)).toNat = 0xC000 + 0x200 * k + c.bits := by
    rw [BitVec.toNat_ofNat]; omega
  generalize BitVec.ofNat 16 (0xC000 + 0x200 * k + c.bits) = w at *
  have hcls : wf w 15 12 = 0xC := by simp only [wf]; omega
  have hop : wf w 11 9 = k := by simp only [wf]; omega
  have hz : wf w 7 5 = 0 := by simp only [wf]; omega
  have hcount : (if w.getLsbD 8 then LkCount.fromX else .imm (BitVec.ofNat 5 w.toNat)) = c := by
    rw [getLsbD_eight]
    cases c with
    | imm n =>
      have := n.isLt
      simp only [LkCount.bits] at hw
      have hn : BitVec.ofNat 5 w.toNat = n := by apply BitVec.eq_of_toNat_eq; rw [BitVec.toNat_ofNat]; omega
      simp only [hn, ite_eq_right_iff, decide_eq_true_eq]; omega
    | fromX =>
      simp only [LkCount.bits] at hw
      simp only [ite_eq_left_iff, decide_eq_true_eq]; omega
  simp only [lkDecode, hcls, hz, hcount, hop, ne_eq, not_true_eq_false, if_false]
  match k, hk with
  | 0, _ | 1, _ | 2, _ | 3, _ | 4, _ => rfl

/-- A command slot's number as the byte of a word leaves the fields above it. -/
theorem wf_add_slot {k : Nat} (hk : k % 0x100 = 0) (n : Fin 4) :
    wf (BitVec.ofNat 16 (k + n.val)) 15 12 = k / 0x1000 % 16 ∧ wf (BitVec.ofNat 16 (k + n.val)) 11 8 = k / 0x100 % 16 ∧
      wf (BitVec.ofNat 16 (k + n.val)) 7 0 = n.val := by
  simp only [wf, BitVec.toNat_ofNat]; omega

theorem lkDecode_lkEncode (i : LkInstr) (ext : W16) (hw : i.wellFormed = true) :
    lkDecode ((lkEncode i).headD 0) ((lkEncode i).getD 1 ext) = some i := by
  cases i with
  | ldA o | addA o | adcA o | subA o | sbcA o | andA o | orA o | xorA o | cmpA o =>
    simp only [lkDecode, lkEncode, wf_class_lkWords, lkOperand_lkWords, Nat.reduceLT]
  | stA o =>
    have hmode : 2 ≤ o.mode := by cases o <;> simp_all [LkInstr.wellFormed, LkOperand.mode]
    simp only [lkDecode, lkEncode, wf_class_lkWords, wf_mode_lkWords, lkOperand_lkWords, Nat.reduceLT, hmode, if_true]
  | ldX o => exact lkDecode_class3 o (k := 0) (by decide) ext
  | ldY o => exact lkDecode_class3 o (k := 1) (by decide) ext
  | stX o => exact (lkDecode_class3 o (k := 2) (by decide) ext).trans (if_neg ((wellFormed_stX o).mp hw))
  | stY o => exact (lkDecode_class3 o (k := 3) (by decide) ext).trans (if_neg ((wellFormed_stY o).mp hw))
  | nop | endCtx | yield | rts | rte | clrC | setC | clrV | movXA | movAX | movYA | movAY | movYX | movXY | incX | decX | incY | decY => rfl
  | cmpX b | cmpY b | addX b | addY b | trap b | beq b | bne b | bcs b | bcc b | bmi b | bpl b | bvs b | bvc b | bra b =>
    simp [lkDecode, lkEncode]
  | shl c => exact lkDecode_shift c (k := 0) (by decide) ext
  | shr c => exact lkDecode_shift c (k := 1) (by decide) ext
  | asr c => exact lkDecode_shift c (k := 2) (by decide) ext
  | rol c => exact lkDecode_shift c (k := 3) (by decide) ext
  | ror c => exact lkDecode_shift c (k := 4) (by decide) ext
  | jmp a | jsr a | jmpX a | jsrX a => simp [lkDecode, lkEncode, wf]
  | issue k | waite k | polle k => simp [lkDecode, lkEncode, wf_add_slot]

theorem LkOperand.length_lkWords (o : LkOperand) (cls : Nat) : (lkWords cls o.bits).length = o.words := by cases o <;> rfl

theorem length_lkEncode (i : LkInstr) : (lkEncode i).length = i.words := by
  cases i with
  | ldA o | stA o | addA o | adcA o | subA o | sbcA o | andA o | orA o | xorA o | cmpA o => exact o.length_lkWords _
  | ldX o | ldY o | stX o | stY o => cases o <;> rfl
  | _ => rfl

/-! ### The word that an instruction was decoded from -/

/-- The instruction is well formed, and its words are those it was read from, but for the bits that R195 and R196 leave free. -/
def LkInstr.ReadFrom (i : LkInstr) (w ext : W16) : Prop :=
  i.wellFormed = true ∧ (lkEncode i = [w, ext].take i.words ∨ (wf w 15 12 = 0xC ∧ w.getLsbD 8 = true ∧ lkEncode i = [w &&& 0xFFE0]) ∨
    (1 ≤ wf w 15 12 ∧ wf w 15 12 ≤ 0xB ∧ wf w 15 12 ≠ 3 ∧ wf w 11 9 ∈ [1, 4, 5, 6] ∧ lkEncode i = [w &&& 0xFF00, ext]))

theorem toNat_and_FF00 (w : W16) : (w &&& 0xFF00).toNat = w.toNat / 0x100 * 0x100 := by
  have h : w &&& (0xFF00 : W16) = w >>> 8 <<< 8 := by
    ext i hi
    interval_cases i <;> simp
  have := w.isLt
  rw [h]
  simp only [BitVec.toNat_shiftLeft, BitVec.toNat_ushiftRight, Nat.shiftLeft_eq, Nat.shiftRight_eq_div_pow]
  omega

theorem toNat_and_FFE0 (w : W16) : (w &&& 0xFFE0).toNat = w.toNat / 0x20 * 0x20 := by
  have h : w &&& (0xFFE0 : W16) = w >>> 5 <<< 5 := by
    ext i hi
    interval_cases i <;> simp
  have := w.isLt
  rw [h]
  simp only [BitVec.toNat_shiftLeft, BitVec.toNat_ushiftRight, Nat.shiftLeft_eq, Nat.shiftRight_eq_div_pow]
  omega

theorem word_eq {w : W16} {n : Nat} (h : w.toNat = n) : BitVec.ofNat 16 n = w := by
  rw [← h, BitVec.ofNat_toNat, BitVec.setWidth_eq]

/-- A word is its class, its group and its byte. -/
theorem word_parts (w : W16) : w.toNat = 0x1000 * wf w 15 12 + 0x100 * wf w 11 8 + wf w 7 0 := by
  simp only [wf]; omega

theorem wf_byte_eq (w : W16) : wf w 7 0 = (BitVec.ofNat 8 w.toNat).toNat := by
  simp only [wf, BitVec.toNat_ofNat]; omega

/-- Nothing of the word of a one-word instruction is free. -/
theorem LkInstr.readFrom_word {i : LkInstr} {w ext v : W16} (hi : i.wellFormed = true) (hl : i.words = 1)
    (he : lkEncode i = [v]) (hv : w.toNat = v.toNat) : i.ReadFrom w ext :=
  ⟨hi, .inl (by rw [hl, he, BitVec.eq_of_toNat_eq hv]; rfl)⟩

theorem b2n_getLsbD_eight (w : W16) : b2n (w.getLsbD 8) = w.toNat / 0x100 % 2 := by
  rw [getLsbD_eight]
  by_cases h : w.toNat / 0x100 % 2 = 1
  · simp only [h, decide_true, b2n, if_true]
  · simp only [h, decide_false, b2n, Bool.false_eq_true, if_false]; omega

/-- The words of the operand form that a word was read as: with an extension word, the byte is free. -/
theorem lkWords_lkOperand {w : W16} {cls : Nat} (hcls : wf w 15 12 = cls) (ext : W16) :
    lkWords cls (lkOperand w ext).bits = [w, ext].take (lkOperand w ext).words ∨
      (wf w 11 9 ∈ [1, 4, 5, 6] ∧ lkWords cls (lkOperand w ext).bits = [w &&& 0xFF00, ext]) := by
  have hw : w.toNat = 0x1000 * cls + 0x200 * wf w 11 9 + w.toNat % 0x200 := by simp only [← hcls, wf]; omega
  have hm : wf w 11 9 < 8 := Nat.mod_lt _ (by decide)
  have hbit := b2n_getLsbD_eight w
  have hand : BitVec.ofNat 16 (w.toNat / 0x100 * 0x100) = w &&& 0xFF00 := word_eq (toNat_and_FF00 w)
  simp only [lkOperand]
  generalize wf w 11 9 = m at *
  obtain hshort | hlong : (m = 0 ∨ m = 2 ∨ m = 3 ∨ m = 7) ∨ (m = 1 ∨ m = 4 ∨ m = 5 ∨ m = 6) := by omega
  · left
    rcases hshort with rfl | rfl | rfl | rfl
    all_goals
      simp only [LkOperand.bits, lkWords, LkOperand.words, hbit, Option.toList, List.take]
      rw [word_eq]
      rw [BitVec.toNat_ofNat]; omega
  · right
    rcases hlong with rfl | rfl | rfl | rfl
    all_goals
      refine ⟨by decide, ?_⟩
      simp only [LkOperand.bits, lkWords, hbit, Option.toList]
      exact congrArg (· :: [ext]) ((congrArg (BitVec.ofNat 16) (by omega)).trans hand)

/-- An instruction of a class that takes an operand form is read from its word and, where the form has one, the extension word. -/
theorem LkInstr.readFrom_operand {w ext : W16} {i : LkInstr} {cls : Nat} (hcls : wf w 15 12 = cls) (hi : i.wellFormed = true)
    (h1 : 1 ≤ cls) (hB : cls ≤ 0xB) (h3 : cls ≠ 3) (hl : i.words = (lkOperand w ext).words)
    (he : lkEncode i = lkWords cls (lkOperand w ext).bits) : i.ReadFrom w ext := by
  refine ⟨hi, ?_⟩
  rw [hl, he, hcls]
  exact (lkWords_lkOperand hcls ext).imp_right fun ⟨hm, hw⟩ => .inr ⟨h1, hB, h3, hm, hw⟩

/-- The words of the class 0x3 operand form that a word was read as. -/
theorem lkWords_lkOperand16 {w ext : W16} {o : LkOperand16} {k : Nat} (hcls : wf w 15 12 = 3) (hk : wf w 11 10 = k)
    (ho : lkOperand16 w ext = some o) :
    lkWords 3 (0x400 * k + o.bits.1, o.bits.2) = [w, ext].take o.words ∧ o.bits.1 / 0x100 = wf w 9 8 := by
  have hw : w.toNat = 0x3000 + 0x400 * k + 0x100 * wf w 9 8 + wf w 7 0 := by
    rw [← hk]; simp only [wf] at hcls ⊢; omega
  have hm : wf w 9 8 < 4 := Nat.mod_lt _ (by decide)
  have hb := wf_byte_eq w
  have hlt : wf w 7 0 < 0x100 := Nat.mod_lt _ (by decide)
  simp only [lkOperand16] at ho
  generalize wf w 9 8 = m at *
  generalize wf w 7 0 = b at *
  obtain hchecked | hfree : (m = 0 ∨ m = 3) ∨ (m = 1 ∨ m = 2) := by omega
  · rcases hchecked with rfl | rfl
    all_goals
      obtain ⟨hz, ho⟩ := Option.ite_none_right_eq_some.mp ho
      obtain rfl := Option.some.inj ho
      refine ⟨?_, by simp [LkOperand16.bits]⟩
      simp only [LkOperand16.bits, lkWords, LkOperand16.words, List.take, Option.toList]
      rw [word_eq]; omega
  · rcases hfree with rfl | rfl
    all_goals
      obtain rfl := Option.some.inj ho
      refine ⟨?_, by simp only [LkOperand16.bits]; omega⟩
      simp only [LkOperand16.bits, lkWords, LkOperand16.words, List.take, Option.toList]
      rw [word_eq]; omega

/-- Classes 0x0 and 0xD: the word is the instruction's constant, with its byte where it has one. -/
theorem LkInstr.readFrom_class0 {w ext : W16} {i : LkInstr} (hc : wf w 15 12 = 0) (h : lkDecode w ext = some i) : i.ReadFrom w ext := by
  have hw := word_parts w
  have hb := wf_byte_eq w
  simp only [lkDecode, hc] at h
  repeat' split at h
  all_goals cases h <;> exact readFrom_word rfl rfl rfl (by bv_omega)

theorem LkInstr.readFrom_classD {w ext : W16} {i : LkInstr} (hc : wf w 15 12 = 0xD) (h : lkDecode w ext = some i) : i.ReadFrom w ext := by
  have hw := word_parts w
  have hb := wf_byte_eq w
  simp only [lkDecode, hc] at h
  split at h
  all_goals cases h <;> exact readFrom_word rfl rfl rfl (by bv_omega)

/-- Class 0x2: ST A, whose operand form is no immediate. -/
theorem LkInstr.readFrom_class2 {w ext : W16} {i : LkInstr} (hc : wf w 15 12 = 2) (h : lkDecode w ext = some i) : i.ReadFrom w ext := by
  simp only [lkDecode, hc] at h
  obtain ⟨hm, h⟩ := Option.ite_none_right_eq_some.mp h
  cases h
  have hwf : (LkInstr.stA (lkOperand w ext)).wellFormed = true := by
    simp only [lkOperand]
    split
    case h_1 h0 => omega
    case h_2 h1 => omega
    all_goals rfl
  exact readFrom_operand hc hwf (by decide) (by decide) (by decide) rfl rfl

/-- Class 0x3: LD and ST of X and Y. -/
theorem LkInstr.readFrom_class3 {w ext : W16} {i : LkInstr} (hc : wf w 15 12 = 3) (h : lkDecode w ext = some i) : i.ReadFrom w ext := by
  simp only [lkDecode, hc] at h
  split at h
  case h_1 o hk ho => cases h; exact ⟨rfl, .inl (lkWords_lkOperand16 hc hk ho).1⟩
  case h_2 o hk ho => cases h; exact ⟨rfl, .inl (lkWords_lkOperand16 hc hk ho).1⟩
  case h_3 o hk ho =>
    obtain ⟨hm, h⟩ := Option.ite_none_left_eq_some.mp h
    obtain ⟨hw, hbits⟩ := lkWords_lkOperand16 hc hk ho
    cases h
    exact ⟨(wellFormed_stX o).mpr (hbits ▸ hm), .inl hw⟩
  case h_4 o hk ho =>
    obtain ⟨hm, h⟩ := Option.ite_none_left_eq_some.mp h
    obtain ⟨hw, hbits⟩ := lkWords_lkOperand16 hc hk ho
    cases h
    exact ⟨(wellFormed_stY o).mpr (hbits ▸ hm), .inl hw⟩
  case h_5 => cases h

/-- Class 0xC: a shift by X leaves its count bits free. -/
theorem lkWords_shift {w : W16} {k : Nat} (hc : wf w 15 12 = 0xC) (hz : wf w 7 5 = 0) (hk : wf w 11 9 = k) (c : LkCount)
    (h : (if w.getLsbD 8 then LkCount.fromX else .imm (BitVec.ofNat 5 w.toNat)) = c) :
    BitVec.ofNat 16 (0xC000 + 0x200 * k + c.bits) = w ∨
      (w.getLsbD 8 = true ∧ BitVec.ofNat 16 (0xC000 + 0x200 * k + c.bits) = w &&& 0xFFE0) := by
  have hw : w.toNat = 0xC000 + 0x200 * k + 0x100 * (w.toNat / 0x100 % 2) + w.toNat % 0x20 := by
    simp only [wf] at hc hz hk; omega
  by_cases hx : w.getLsbD 8 = true
  · right
    refine ⟨hx, ?_⟩
    rw [if_pos hx] at h
    subst h
    rw [getLsbD_eight, decide_eq_true_eq] at hx
    apply word_eq
    rw [toNat_and_FFE0]
    simp only [LkCount.bits]; omega
  · left
    rw [if_neg hx] at h
    subst h
    rw [getLsbD_eight, decide_eq_true_eq] at hx
    apply word_eq
    simp only [LkCount.bits, BitVec.toNat_ofNat]; omega

theorem LkInstr.readFrom_classC {w ext : W16} {i : LkInstr} (hc : wf w 15 12 = 0xC) (h : lkDecode w ext = some i) : i.ReadFrom w ext := by
  simp only [lkDecode, hc] at h
  obtain ⟨hz, h⟩ := Option.ite_none_left_eq_some.mp h
  split at h
  case h_6 => cases h
  all_goals
    next hk =>
      cases h
      exact ⟨rfl, (lkWords_shift hc (not_not.mp hz) hk _ rfl).imp (congrArg fun x => [x])
        fun ⟨hx, e⟩ => .inl ⟨hc, hx, congrArg (fun x => [x]) e⟩⟩

theorem LkInstr.readFrom_classE {w ext : W16} {i : LkInstr} (hc : wf w 15 12 = 0xE) (h : lkDecode w ext = some i) : i.ReadFrom w ext := by
  have hw := word_parts w
  simp only [lkDecode, hc] at h
  split at h
  case h_8 => cases h
  case h_1 | h_2 | h_3 | h_4 =>
    obtain ⟨hz, h⟩ := Option.ite_none_right_eq_some.mp h
    cases h
    refine ⟨rfl, .inl (congrArg (fun x => [x, ext]) (BitVec.eq_of_toNat_eq ?_))⟩
    bv_omega
  case h_5 | h_6 | h_7 =>
    split at h <;> cases h
    exact readFrom_word rfl rfl rfl (by bv_omega)

theorem LkInstr.readFrom_lkDecode {w ext : W16} {i : LkInstr} (h : lkDecode w ext = some i) : i.ReadFrom w ext := by
  obtain ⟨c, hc⟩ : ∃ c, wf w 15 12 = c := ⟨_, rfl⟩
  have hlt : c < 16 := hc ▸ Nat.mod_lt _ (by decide)
  obtain rfl | rfl | rfl | rfl | rfl | rfl | rfl | hoperand :
      c = 0 ∨ c = 2 ∨ c = 3 ∨ c = 12 ∨ c = 13 ∨ c = 14 ∨ c = 15 ∨
        (c = 1 ∨ c = 4 ∨ c = 5 ∨ c = 6 ∨ c = 7 ∨ c = 8 ∨ c = 9 ∨ c = 10 ∨ c = 11) := by
    omega
  · exact readFrom_class0 hc h
  · exact readFrom_class2 hc h
  · exact readFrom_class3 hc h
  · exact readFrom_classC hc h
  · exact readFrom_classD hc h
  · exact readFrom_classE hc h
  · simp only [lkDecode, hc] at h
    cases h
  · rcases hoperand with rfl | rfl | rfl | rfl | rfl | rfl | rfl | rfl | rfl
    all_goals
      simp only [lkDecode, hc] at h
      cases h
      exact readFrom_operand hc rfl (by decide) (by decide) (by decide) rfl rfl

end Sys2Proof.Machine

open Sys2Proof.Machine in
/-- Settles O6: an encoded word's fields are those it was put together from (`lkDecode_lkEncode`, by operand form, class and group);
a decoded word is put together again from the fields it was read by, class by class (`LkInstr.readFrom_lkDecode`), where a shift by X
leaves its count bits free (log entry 76) and a form with an extension word its byte. -/
theorem lkDecodeOfEncode : Obligations.LkDecodeOfEncode :=
  ⟨fun i ext hw => ⟨lkDecode_lkEncode i ext hw, length_lkEncode i⟩, fun _ _ _ h => LkInstr.readFrom_lkDecode h⟩

end

section
/-!
PROOFS. Steps, commands and reset: every command is carried out by State.run, so it has a next state, leaves the queue alone and leaves no
unit named for containment (R508, R509); what ends every command still drops a stale entry of the key cache in a state that
State.Settled admits; the reset values (R546) and the words written out from R195 to R199.
-/
namespace Sys2Proof.Machine

/-- Every command is carried out by what it does to the state, and by what ends every command. -/
theorem exec_eq_run (c : Instr) (s : State) : ∃ f : State → State, exec c s = s.run f := by
  unfold exec
  cases c with
  | _ => exact ⟨_, rfl⟩

/-- The block after reset, with a key cache entry whose load or import is no request any more. -/
def staleLoad : State := { State.reset with ckc := { State.reset.ckc with entries := [(0, { loading := some 0 })] } }

/-- State.Settled does not ask that State.finishLoads leave the state as it is. -/
theorem staleLoad_settled : staleLoad.Settled staleLoad := by decide +kernel

/-- The entry of a load that ended otherwise than OK goes (R346, R352, R356). -/
theorem staleLoad_dropped : (staleLoad.wrapUp staleLoad).ckc.entries = [] := by decide +kernel

end Sys2Proof.Machine

open Sys2Proof.Machine in
/-- Settles O1: a step is by definition the front command over the queue's rest, and idles on an empty queue (log entry 1). -/
theorem stepTakesTheFrontCommand : Obligations.StepTakesTheFrontCommand := by
  unfold Obligations.StepTakesTheFrontCommand
  intro s c rest
  refine ⟨fun h => ?front, fun h => ?empty⟩
  case front => simp only [step, h]
  case empty => simp only [step, h]

open Sys2Proof.Machine in
/-- Settles O2: every command is carried out by State.run (`exec_eq_run`), and what ends it keeps the queue and contains every named
unit. -/
theorem everyCommandCompletes : Obligations.EveryCommandCompletes := by
  unfold Obligations.EveryCommandCompletes
  intro c s
  obtain ⟨f, hf⟩ := exec_eq_run c s
  exact ⟨s.wrapUp (f s), hf, State.wrapUp_pending s (f s), State.wrapUp_toContain s (f s)⟩

open Sys2Proof.Machine in
/-- Refutes O3: `State.wrapUp` also runs `State.finishLoads` (and `State.idleKilled` and `State.parityCheck`), of which `State.Settled`
says nothing. In the reset state with a key cache entry that waits for request 0, which does not exist, each thing that `State.Settled`
lists changes nothing, and `State.wrapUp` drops the entry. -/
theorem not_settledStateStands : ¬ Obligations.SettledStateStands := by
  unfold Obligations.SettledStateStands
  intro h
  have hstands := congrArg (fun s => s.ckc.entries) (h staleLoad staleLoad staleLoad_settled)
  rw [staleLoad_dropped] at hstands
  exact absurd hstands (by decide)

open Sys2Proof.Machine in
/-- Settles O4: the step of an empty queue changes nothing, and every other is a command, after which nothing is named (O2). -/
theorem stepsLeaveNothingToContain : Obligations.StepsLeaveNothingToContain := by
  unfold Obligations.StepsLeaveNothingToContain
  intro s t hs ht
  unfold step at ht
  split at ht
  next => cases ht; exact hs
  next c rest hq =>
    obtain ⟨u, hu, -, hnone⟩ := everyCommandCompletes c { s with pending := rest }
    rw [hu] at ht
    cases ht
    exact hnone

open Sys2Proof.Machine in
/-- Settles O5, by evaluating each group of registers. The initial keep domain and OTP are log entry 68. -/
theorem resetValues : Obligations.ResetValues := by
  unfold Obligations.ResetValues
  refine ⟨?state, ?named, ?partitions, ?rings, ?map, ?tamperSources, ?tamperParams, ?idle⟩
  case state => decide +kernel
  case named => decide +kernel
  case partitions => decide +kernel
  case rings => decide +kernel
  case map => decide +kernel
  case tamperSources => decide +kernel
  case tamperParams => decide +kernel
  case idle => decide +kernel

open Sys2Proof.Machine in
/-- Settles O7, by evaluating the decoder on the words written out. -/
theorem lkWordsDecode : Obligations.LkWordsDecode := by
  unfold Obligations.LkWordsDecode
  refine ⟨?encoded, ?reserved⟩
  case encoded => decide
  case reserved => decide

end

section
/-!
PROOFS. The Lockkeeper instructions that change the running context alone (R197, R198): moves, counts and flags of X and Y, the value
operands of A, X and Y, and the shifts.
-/
namespace Sys2Proof.Machine

/-! ### Flags of results of another width (R198) -/

theorem msb_setWidth_16 (a : W32) : (a.setWidth 16).msb = a.getLsbD 15 := by
  simp [BitVec.msb_eq_getLsbD_last]

theorem msb_setWidth_32 (x : W16) : (x.setWidth 32).msb = false := by
  simp [BitVec.msb_eq_getLsbD_last]

theorem setWidth_32_beq_zero (x : W16) : (x.setWidth 32 == 0) = (x == 0) := by
  have h : x.setWidth 32 = 0 ↔ x = 0 := by bv_omega
  simp only [Bool.beq_eq_decide_eq, h]

theorem sub_beq_zero {n : Nat} (x y : BitVec n) : (x - y == 0) = (x == y) := by
  have h : x - y = 0 ↔ x = y := sub_eq_zero
  simp only [Bool.beq_eq_decide_eq, h]

/-! ### Sums and differences (R198) -/

theorem lkAdd_noCarry (a v : W32) :
    lkAdd a v false = (a + v, decide (2 ^ 32 ≤ a.toNat + v.toNat), a.msb == v.msb && (a + v).msb != a.msb) := by
  simp [lkAdd, b2n]

theorem lkAdd_carry (a v : W32) (cin : Bool) :
    lkAdd a v cin = (a + v + (if cin then 1 else 0), decide (2 ^ 32 ≤ a.toNat + v.toNat + (if cin then 1 else 0)),
      a.msb == v.msb && (a + v + (if cin then 1 else 0)).msb != a.msb) := by
  cases cin <;> rfl

theorem lkSub_noBorrow (a v : W32) :
    lkSub a v true = (a - v, decide (v.toNat ≤ a.toNat), a.msb != v.msb && (a - v).msb != a.msb) := by
  simp [lkSub, b2n]

theorem lkSub_borrow (a v : W32) (cin : Bool) :
    lkSub a v cin = (a - v - (if cin then 0 else 1), decide (v.toNat + (if cin then 0 else 1) ≤ a.toNat),
      a.msb != v.msb && (a - v - (if cin then 0 else 1)).msb != a.msb) := by
  cases cin <;> rfl

/-! ### Shifts (R197, R198) -/

/-- A shift's count is below 32. -/
theorem LkCount.value_lt (k : LkCount) (x : Ctx) : k.value x < 32 := by
  cases k with
  | imm n => exact n.isLt
  | fromX => exact Nat.mod_lt _ (by decide)

theorem LkCount.value_eq (k : LkCount) (x : Ctx) :
    k.value x = (match k with | .imm i => i.toNat | .fromX => x.x.toNat % 32) := by
  cases k <;> rfl

/-- The context after a shift by `n`; a count of zero leaves A and C. -/
theorem Ctx.shift_eq (x : Ctx) (k : LkShift) (n : Nat) :
    x.shift k n =
      let p := if n = 0 then (x.a, x.fC) else lkShift k x.a n
      { x with a := p.1, fZ := p.1 == 0, fN := p.1.msb, fC := p.2, fV := false } := by
  by_cases hn : n = 0
  · simp only [Ctx.shift, hn, if_true, Ctx.zn32]
  · simp only [Ctx.shift, hn, if_false, Ctx.zn32]

theorem lkShift_rol (a : W32) {n : Nat} (hn : n < 32) : lkShift .rol a n = ((a <<< n) ||| (a >>> (32 - n)), a.getLsbD (32 - n)) := by
  simp only [lkShift, BitVec.rotateLeft_eq_rotateLeftAux_of_lt hn, BitVec.rotateLeftAux]

theorem lkShift_ror (a : W32) {n : Nat} (hn : n < 32) : lkShift .ror a n = ((a >>> n) ||| (a <<< (32 - n)), a.getLsbD (n - 1)) := by
  simp only [lkShift, BitVec.rotateRight_eq_rotateRightAux_of_lt hn, BitVec.rotateRightAux]

/-! ### Steps of a context -/

namespace State.AtInstr

variable {s : State} {n c : Nat} {l : Lk} {w : W16} {i : LkInstr}

/-- A shift by the count of the running context changes that context alone. -/
theorem run_shift (h : s.AtInstr n l c w i) {sh : LkShift} {k : LkCount} {m : Nat} {f : W32 → W32 × Bool}
    (hi : (s.putLk n l).lkExecute n c w i = (s.putLk n l).ctxStep n c 1 (fun x => x.shift sh (k.value x)))
    (hm : k.value (l.ctx c) = m) (hf : m < 32 → ∀ a, lkShift sh a m = f a) :
    s.run (fun s => s.runLk n i) =
      .next (s.wrapUp (s.putLk n (l.updCtx c (fun _ =>
        let x := l.ctx c
        let p := if m = 0 then (x.a, x.fC) else f x.a
        { x with a := p.1, fZ := p.1 == 0, fN := p.1.msb, fC := p.2, fV := false, pc := x.pc + 1 })))) := by
  refine h.run_eq (hi.trans ((h.ctxStep 1 _).trans (congrArg (s.putLk n) (Lk.updCtx_congr ?_))))
  have hlt : m < 32 := hm ▸ k.value_lt (l.ctx c)
  simp only [hm, Ctx.shift_eq, hf hlt]
  rfl

/-- The Lockkeeper is at its instruction also once a free value has been drawn. -/
theorem drawn (h : s.AtInstr n l c w i) : s.drawn.AtInstr n l c w i := h

/-- An instruction with a value operand whose place loads, from sound words, steps its context with the value; an operand that is a
time draws a free value (R194). -/
theorem aluStep (h : s.AtInstr n l c w i) {op : LkOperand} {p : OpPlace} {v : W32} (hp : (s.putLk n l).lkPlace n c op = .ok p)
    (hv : (s.putLk n l).lkLoadAt n c p = .ok v) (hs : l.flaws (op.keys ++ p.keys c) = []) (f : Ctx → W32 → Ctx) :
    (s.putLk n l).aluStep n c op f =
      ((if p.readsTime then s.drawn else s).putLk n l).ctxStep n c op.words (fun x => f x v) := by
  simp only [State.aluStep, hp, hv]
  cases p.readsTime with
  | false => simp only [Bool.false_eq_true, if_false, h.noteWords hs]
  | true => simp only [if_true]; exact congrArg (fun t : State => t.ctxStep n c op.words fun x => f x v) (h.drawn.noteWords hs)

theorem load16 (h : s.AtInstr n l c w i) {op : LkOperand16} {v : W32} (hv : (s.putLk n l).lkLoadAt n c (lkPlace16 op) = .ok v)
    (hs : l.flaws ((lkPlace16 op).keys c) = []) (f : Ctx → W16 → Ctx) :
    (s.putLk n l).load16 n c op f =
      ((if (lkPlace16 op).readsTime then s.drawn else s).putLk n l).ctxStep n c op.words
        (fun x => (f x (v.setWidth 16)).zn16 (v.setWidth 16)) := by
  simp only [State.load16, hv]
  cases (lkPlace16 op).readsTime with
  | false => simp only [Bool.false_eq_true, if_false, h.noteWords hs]
  | true =>
    simp only [if_true]
    exact congrArg (fun t : State => t.ctxStep n c op.words fun x => (f x (v.setWidth 16)).zn16 (v.setWidth 16)) (h.drawn.noteWords hs)

/-- An instruction that steps its context by `f`, which is `g` and leaves the pc, answers the context so changed and past the
instruction; `t` says whether it drew a free value. -/
theorem run_ctxStep_drawn (h : s.AtInstr n l c w i) {t : Bool} {k : Nat} {f g : Ctx → Ctx}
    (hi : (s.putLk n l).lkExecute n c w i = ((if t then s.drawn else s).putLk n l).ctxStep n c k f) (hfg : ∀ x, f x = g x)
    (hpc : ∀ x, (g x).pc = x.pc) :
    s.run (fun s => s.runLk n i) =
      .next (s.wrapUp ((if t then s.drawn else s).putLk n (l.updCtx c (fun x => { g x with pc := x.pc + BitVec.ofNat 16 k })))) := by
  have hstep : (fun x => { f x with pc := (f x).pc + BitVec.ofNat 16 k }) = fun x => { g x with pc := x.pc + BitVec.ofNat 16 k } :=
    funext fun x => by rw [hfg, hpc]
  have ht : (if t then s.drawn else s).AtInstr n l c w i := by
    cases t
    · exact h
    · exact h.drawn
  exact h.run_eq (hi.trans ((ht.ctxStep k f).trans (by rw [hstep])))

theorem run_ctxStep (h : s.AtInstr n l c w i) {k : Nat} {f g : Ctx → Ctx}
    (hi : (s.putLk n l).lkExecute n c w i = (s.putLk n l).ctxStep n c k f) (hfg : ∀ x, f x = g x) (hpc : ∀ x, (g x).pc = x.pc) :
    s.run (fun s => s.runLk n i) =
      .next (s.wrapUp (s.putLk n (l.updCtx c (fun x => { g x with pc := x.pc + BitVec.ofNat 16 k })))) :=
  h.run_ctxStep_drawn (t := false) hi hfg hpc

end State.AtInstr

end Sys2Proof.Machine

open Sys2Proof.Machine in
/-- Settles O8: each instruction steps its context (`State.AtInstr.run_ctxStep`), and its flags are those of its 16- or 32-bit result. -/
theorem contextRegisterInstructions : Obligations.ContextRegisterInstructions := by
  unfold Obligations.ContextRegisterInstructions
  intro s lk l c w b
  refine ⟨?nop, ?clrC, ?setC, ?clrV, ?movXA, ?movAX, ?movYA, ?movAY, ?movYX, ?movXY, ?incX, ?decX, ?incY, ?decY, ?cmpX, ?cmpY, ?addX,
    ?addY⟩
  case nop => exact fun h => h.run_ctxStep rfl (fun _ => rfl) (fun _ => rfl)
  case clrC => exact fun h => h.run_ctxStep rfl (fun _ => rfl) (fun _ => rfl)
  case setC => exact fun h => h.run_ctxStep rfl (fun _ => rfl) (fun _ => rfl)
  case clrV => exact fun h => h.run_ctxStep rfl (fun _ => rfl) (fun _ => rfl)
  case movXA => exact fun h => h.run_ctxStep rfl (fun x => by simp only [Ctx.zn16, msb_setWidth_16]) (fun _ => rfl)
  case movAX => exact fun h => h.run_ctxStep rfl (fun x => by simp only [Ctx.zn32, msb_setWidth_32, setWidth_32_beq_zero]) (fun _ => rfl)
  case movYA => exact fun h => h.run_ctxStep rfl (fun x => by simp only [Ctx.zn16, msb_setWidth_16]) (fun _ => rfl)
  case movAY => exact fun h => h.run_ctxStep rfl (fun x => by simp only [Ctx.zn32, msb_setWidth_32, setWidth_32_beq_zero]) (fun _ => rfl)
  case movYX => exact fun h => h.run_ctxStep rfl (fun x => by simp only [Ctx.zn16, BitVec.msb_eq_getLsbD_last]) (fun _ => rfl)
  case movXY => exact fun h => h.run_ctxStep rfl (fun x => by simp only [Ctx.zn16, BitVec.msb_eq_getLsbD_last]) (fun _ => rfl)
  case incX => exact fun h => h.run_ctxStep rfl (fun _ => rfl) (fun _ => rfl)
  case decX => exact fun h => h.run_ctxStep rfl (fun _ => rfl) (fun _ => rfl)
  case incY => exact fun h => h.run_ctxStep rfl (fun _ => rfl) (fun _ => rfl)
  case decY => exact fun h => h.run_ctxStep rfl (fun _ => rfl) (fun _ => rfl)
  case cmpX => exact fun h => h.run_ctxStep rfl (fun x => by simp only [Ctx.cmp16, Ctx.zn16, sub_beq_zero]) (fun _ => rfl)
  case cmpY => exact fun h => h.run_ctxStep rfl (fun x => by simp only [Ctx.cmp16, Ctx.zn16, sub_beq_zero]) (fun _ => rfl)
  case addX => exact fun h => h.run_ctxStep rfl (fun _ => rfl) (fun _ => rfl)
  case addY => exact fun h => h.run_ctxStep rfl (fun _ => rfl) (fun _ => rfl)

open Sys2Proof.Machine in
/-- Settles O9: an operand whose place loads from sound words steps the context with its value (`State.AtInstr.aluStep`, `load16`), and
C and V are those of R198 (`lkAdd_carry`, `lkSub_borrow`). -/
theorem operandInstructions : Obligations.OperandInstructions := by
  unfold Obligations.OperandInstructions
  refine ⟨fun s lk l c w op p v hp hv hs => ?values, fun s lk l c w op v hv hs => ?loads⟩
  case values =>
    refine ⟨?ldA, ?addA, ?adcA, ?subA, ?sbcA, ?andA, ?orA, ?xorA, ?cmpA⟩
    case ldA => exact fun h => h.run_ctxStep_drawn (h.aluStep hp hv hs _) (fun _ => rfl) (fun _ => rfl)
    case addA => exact fun h => h.run_ctxStep_drawn (h.aluStep hp hv hs _) (fun x => by rw [lkAdd_noCarry]; rfl) (fun _ => rfl)
    case adcA => exact fun h => h.run_ctxStep_drawn (h.aluStep hp hv hs _) (fun x => by rw [lkAdd_carry]; rfl) (fun _ => rfl)
    case subA => exact fun h => h.run_ctxStep_drawn (h.aluStep hp hv hs _) (fun x => by rw [lkSub_noBorrow]; rfl) (fun _ => rfl)
    case sbcA => exact fun h => h.run_ctxStep_drawn (h.aluStep hp hv hs _) (fun x => by rw [lkSub_borrow]; rfl) (fun _ => rfl)
    case andA => exact fun h => h.run_ctxStep_drawn (h.aluStep hp hv hs _) (fun _ => rfl) (fun _ => rfl)
    case orA => exact fun h => h.run_ctxStep_drawn (h.aluStep hp hv hs _) (fun _ => rfl) (fun _ => rfl)
    case xorA => exact fun h => h.run_ctxStep_drawn (h.aluStep hp hv hs _) (fun _ => rfl) (fun _ => rfl)
    case cmpA => exact fun h => h.run_ctxStep_drawn (h.aluStep hp hv hs _) (fun x => by rw [lkSub_noBorrow]; rfl) (fun _ => rfl)
  case loads =>
    refine ⟨?ldX, ?ldY⟩
    case ldX => exact fun h => h.run_ctxStep_drawn (h.load16 hv hs fun x v => { x with x := v }) (fun _ => rfl) (fun _ => rfl)
    case ldY => exact fun h => h.run_ctxStep_drawn (h.load16 hv hs fun x v => { x with y := v }) (fun _ => rfl) (fun _ => rfl)

open Sys2Proof.Machine in
/-- Settles O11: a shift takes its count from the instruction or from X, and a rotation below 32 is two shifts. -/
theorem shiftInstructions : Obligations.ShiftInstructions := by
  unfold Obligations.ShiftInstructions
  intro s lk l c w k n next
  have hn : k.value (l.ctx c) = n := k.value_eq (l.ctx c)
  refine ⟨?shl, ?shr, ?asr, ?rol, ?ror⟩
  case shl => exact fun h => h.run_shift (f := fun a => (a <<< n, a.getLsbD (32 - n))) rfl hn fun _ _ => rfl
  case shr => exact fun h => h.run_shift (f := fun a => (a >>> n, a.getLsbD (n - 1))) rfl hn fun _ _ => rfl
  case asr => exact fun h => h.run_shift (f := fun a => (a.sshiftRight n, a.getLsbD (n - 1))) rfl hn fun _ _ => rfl
  case rol => exact fun h => h.run_shift (f := fun a => ((a <<< n) ||| (a >>> (32 - n)), a.getLsbD (32 - n))) rfl hn fun hlt a => lkShift_rol a hlt
  case ror => exact fun h => h.run_shift (f := fun a => ((a >>> n) ||| (a <<< (32 - n)), a.getLsbD (n - 1))) rfl hn fun hlt a => lkShift_ror a hlt

end

section
/-!
PROOFS. The stores of Lockkeeper instructions (R187 to R191, R194, R196): the words put into plain data memory, and the stores that act.
-/
namespace Sys2Proof.Machine

theorem ofNat_toNat_16 (a : W32) : BitVec.ofNat 16 a.toNat = a.setWidth 16 := rfl

theorem ofNat_high_16 (a : W32) : BitVec.ofNat 16 (a.toNat / 2 ^ 16) = (a >>> 16).setWidth 16 := by
  apply BitVec.eq_of_toNat_eq
  simp only [BitVec.toNat_ofNat, BitVec.toNat_setWidth, BitVec.toNat_ushiftRight, Nat.shiftRight_eq_div_pow]

theorem setWidth_32_16 (x : W16) : (x.setWidth 32).setWidth 16 = x := by
  rw [BitVec.setWidth_setWidth_of_le x (by decide), BitVec.setWidth_eq]

/-! ### Words written (R187, R188) -/

/-- Data memory with a word put at `b`. -/
def Lk.putWord (l : Lk) (b : Nat) (v : W16) : Lk := { l with data := setKey 0 l.data b v, bad := dropKey (0x4000 + b) l.bad }

theorem State.lkWrite_plain (s : State) (n c : Nat) (l : Lk) {a : Nat} (ha : a < 0x1C00) (v : W16) :
    (s.putLk n l).lkWrite n c a v = s.putLk n (l.putWord a v) := by
  simp only [State.lkWrite, ha, if_true, State.updLk_putLk, Lk.putWord]

theorem State.lkWrite_go (s : State) (n c : Nat) (l : Lk) {v : W16} (hv : v.getLsbD 0 = true) :
    (s.putLk n l).lkWrite n c 0x7F02 v = s.putLk n { l with go := true } := by
  simp only [State.lkWrite, hv, if_true, State.updLk_putLk]
  rfl

theorem State.lkWrite_heartbeat (s : State) (n c : Nat) (l : Lk) (v : W16) :
    (s.putLk n l).lkWrite n c 0x7F03 v = s.putLk n { l with heart := 0 } := by
  simp only [State.lkWrite, State.updLk_putLk]
  rfl

/-- A word of the descriptor window is that of its frame and offset. -/
theorem State.lkWrite_frmDone (s : State) (n c : Nat) (f : Fin 32) (v : W16) :
    s.lkWrite n c (0x4030 + 64 * f.val) v = s.writeFrmDone n c f v := by
  have hlo : ¬ 0x4030 + 64 * f.val < 0x1C00 := by omega
  have hwin : 0x4000 ≤ 0x4030 + 64 * f.val ∧ 0x4030 + 64 * f.val < 0x4800 := by omega
  have hoff : (0x4030 + 64 * f.val) % 64 = 0x30 := by omega
  have hf : (0x4030 + 64 * f.val - 0x4000) / 64 = f.val := by omega
  simp only [State.lkWrite, hlo, hwin, hoff, hf, and_self, if_true, if_false]
  rfl

theorem State.lkWrite_frmAdmit (s : State) (n c : Nat) (f : Fin 32) (v : W16) :
    s.lkWrite n c (0x4033 + 64 * f.val) v = s.writeFrmAdmit n c f v := by
  have hlo : ¬ 0x4033 + 64 * f.val < 0x1C00 := by omega
  have hwin : 0x4000 ≤ 0x4033 + 64 * f.val ∧ 0x4033 + 64 * f.val < 0x4800 := by omega
  have hoff : (0x4033 + 64 * f.val) % 64 = 0x33 := by omega
  have hf : (0x4033 + 64 * f.val - 0x4000) / 64 = f.val := by omega
  simp only [State.lkWrite, hlo, hwin, hoff, hf, and_self, if_true, if_false]
  rfl

/-! ### Stores -/

/-- A 16-bit store to an address that may be stored to writes its word. -/
theorem State.storeStep_16 (s : State) (n c words : Nat) (v : W32) {a : Nat} (ha : lkStorable a = true) :
    s.storeStep n c words v (.word a true) = (s.lkWrite n c a (v.setWidth 16)).advance n c words := by
  simp only [State.storeStep, State.lkStoreAt, ha, Bool.not_true, Bool.false_eq_true, false_and, or_self, if_false, true_or, if_true,
    ofNat_toNat_16]

theorem lkStorable_plain {a : Nat} (ha : a < 0x1C00) : lkStorable a = true := by
  simp only [lkStorable, ha, decide_true, Bool.true_or]

theorem lkStorable_frame {a : Nat} (hlo : 0x4000 ≤ a) (hhi : a < 0x4800) : lkStorable a = true := by
  simp only [lkStorable, hlo, hhi, decide_true, Bool.and_self, Bool.or_true, Bool.true_or]

namespace State.AtInstr

variable {s : State} {n c : Nat} {l : Lk} {w : W16} {i : LkInstr}

/-- Past its instruction, from a Lockkeeper that still runs. -/
theorem advance_putLk (h : s.AtInstr n l c w i) {m : Lk} (hm : m.state = l.state) (k : Nat) :
    (s.putLk n m).advance n c k = s.putLk n (m.updCtx c (fun x => { x with pc := x.pc + BitVec.ofNat 16 k })) := by
  have hlk : (s.putLk n m).lk n = m := s.lk_updLk _ h.lt
  simp only [State.advance, hlk, hm, h.not_halted, if_false, State.updCtx_putLk]

/-- Words stored to plain data memory: one, or the low and then the high one (R187, R188). -/
theorem storeStep_plain (h : s.AtInstr n l c w i) {a : Nat} {half : Bool} (ha : a < 0x1C00) (hb : half = true ∨ a + 1 < 0x1C00)
    (words : Nat) (v : W32) :
    (s.putLk n l).storeStep n c words v (.word a half) =
      s.putLk n ((if half then l.putWord a (v.setWidth 16)
        else (l.putWord a (v.setWidth 16)).putWord (a + 1) ((v >>> 16).setWidth 16)).updCtx c
          (fun x => { x with pc := x.pc + BitVec.ofNat 16 words })) := by
  cases half with
  | true =>
    rw [State.storeStep_16 _ n c words v (lkStorable_plain ha), State.lkWrite_plain s n c l ha]
    exact h.advance_putLk (by rfl) words
  | false =>
    have hb : a + 1 < 0x1C00 := hb.resolve_left Bool.false_ne_true
    have hmod : (a + 1) % 2 ^ 16 = a + 1 := by omega
    have hrun : ((s.putLk n (l.putWord a (v.setWidth 16))).lk n).state ≠ .halted := by
      rw [show (s.putLk n (l.putWord a (v.setWidth 16))).lk n = l.putWord a (v.setWidth 16) from s.lk_updLk _ h.lt]
      exact h.not_halted
    simp only [State.storeStep, State.lkStoreAt, hmod, lkStorable_plain ha, lkStorable_plain hb, Bool.not_true, Bool.false_eq_true,
      and_false, or_self, if_false, ofNat_toNat_16, ofNat_high_16, State.lkWrite_plain s n c l ha, hrun,
      State.lkWrite_plain s n c (l.putWord a (v.setWidth 16)) hb]
    exact h.advance_putLk (by rfl) words

/-- ST A with a place, from sound words, stores A there. -/
theorem lkExecute_stA {op : LkOperand} (h : s.AtInstr n l c w (.stA op)) {p : OpPlace} (hp : (s.putLk n l).lkPlace n c op = .ok p)
    (hs : l.flaws op.keys = []) :
    (s.putLk n l).lkExecute n c w (.stA op) = (s.putLk n l).storeStep n c op.words (l.ctx c).a p := by
  simp only [State.lkExecute, hp, h.noteWords hs, h.lk_putLk]

/-! ### The stores that act (R184, R190, R191, R194) -/

/-- The command of a store that acts is carried out where the instruction stores a word that the command accepts. -/
theorem runStore (h : s.AtInstr n l c w i) {a : Nat} {ok : W16 → Bool} {v : W16} (hv : (s.putLk n l).storedWord n c i a = some v)
    (hok : ok v = true) : s.runStore n a ok = (s.putLk n l).lkExecute n c w i := by
  have hv' : (s.updLk n (fun _ => l)).storedWord n c i a = some v := hv
  simp only [State.runStore, h.chosen, h.current, h.fetched, hv', hok, if_true]
  exact h.runLk

/-- A 16-bit store of A writes the low half of A at its place. -/
theorem storedWord_stA {op : LkOperand} (h : s.AtInstr n l c w (.stA op)) {a : Nat}
    (hp : (s.putLk n l).lkPlace n c op = .ok (.word a true)) :
    (s.putLk n l).storedWord n c (.stA op) a = some ((l.ctx c).a.setWidth 16) := by
  simp only [State.storedWord, hp, OpPlace.covers, if_true, h.lk_putLk, ofNat_toNat_16]

/-- A 16-bit store of A that a command names: it writes the word, and the context goes on past it. -/
theorem run_actingStore {op : LkOperand} (h : s.AtInstr n l c w (.stA op)) (hs : l.flaws op.keys = []) {a : Nat} {ok : W16 → Bool}
    {u : State} (hp : (s.putLk n l).lkPlace n c op = .ok (.word a true)) (ha : lkStorable a = true)
    (hok : ok ((l.ctx c).a.setWidth 16) = true) (hu : (s.putLk n l).lkWrite n c a ((l.ctx c).a.setWidth 16) = u) :
    s.run (fun s => s.runStore n a ok) = .next (s.wrapUp (u.advance n c op.words)) := by
  refine next_congr ((h.runStore (h.storedWord_stA hp) hok).trans ?_)
  rw [h.lkExecute_stA hp hs, State.storeStep_16 _ n c op.words _ ha, hu]

/-- FRM_DONE of a frame of the context that is neither issued nor completed, once its completion can be carried out. -/
theorem writeFrmDone (h : s.AtInstr n l c w i) {f : Nat} {v : W16} {t : State} (hvalid : (l.frame f).valid = true)
    (hctx : (l.frame f).ctx = some c) (hk : (l.frame f).killed = false) (hc : (l.frame f).completed = false)
    (hi : (l.frame f).issued = false) (hs : l.flaws (l.heldKeys c) = [])
    (ht : (s.putLk n l).frmDone n (l.frame f) (frmResult n (l.frame f) v) = some t) :
    (s.putLk n l).writeFrmDone n c f v = t := by
  simp only [State.writeFrmDone, h.lk_putLk, h.noteWords hs, hvalid, hctx, hk, hc, hi, ht, Bool.not_true, Bool.false_eq_true, ne_eq,
    not_true_eq_false, or_self, if_false]

/-- FRM_ADMIT of such a frame, once its reservations can be made. -/
theorem writeFrmAdmit (h : s.AtInstr n l c w i) {f : Nat} {v : W16} {r : Req} {t : State} (hv : v.getLsbD 0 = true)
    (hvalid : (l.frame f).valid = true) (hctx : (l.frame f).ctx = some c) (hk : (l.frame f).killed = false)
    (hc : (l.frame f).completed = false) (hi : (l.frame f).issued = false) (had : (l.frame f).admitted = false)
    (hs : l.flaws (l.heldKeys c) = []) (hr : (s.putLk n l).findReq (l.frame f).req = some r) (ht : (s.putLk n l).admitWith r = some t) :
    (s.putLk n l).writeFrmAdmit n c f v = (t.updLk n Lk.releaseFrames).ctxWaits n c .ready := by
  simp only [State.writeFrmAdmit, h.lk_putLk, h.noteWords hs, hvalid, hctx, hk, hc, hi, had, hr, ht, hv, Bool.not_true,
    Bool.false_eq_true, ne_eq, not_true_eq_false, or_self, if_false]

end State.AtInstr

end Sys2Proof.Machine

open Sys2Proof.Machine in
/-- Settles O10: a store from sound words writes its place's words (`State.AtInstr.storeStep_plain`); a command of a store that acts
runs the instruction that stores such a word (`State.AtInstr.runStore`), and the write does what LKC_GO, LKC_HEARTBEAT, FRM_DONE and
FRM_ADMIT do. -/
theorem storeInstructions : Obligations.StoreInstructions := by
  unfold Obligations.StoreInstructions
  refine ⟨?plain, ?named, ?acting⟩
  case plain =>
    intro s lk l c w op op16 a half next put ha hb hs
    refine ⟨fun hp h => ?stA, fun hp h => ?stX, fun hp h => ?stY⟩
    case stA => exact h.run_eq ((h.lkExecute_stA hp hs).trans (h.storeStep_plain ha hb op.words _))
    case stX =>
      refine h.run_eq ?_
      simp only [State.lkExecute, hp, h.lk_putLk]
      exact (h.storeStep_plain ha (.inl rfl) op16.words _).trans (by rw [setWidth_32_16]; rfl)
    case stY =>
      refine h.run_eq ?_
      simp only [State.lkExecute, hp, h.lk_putLk]
      exact (h.storeStep_plain ha (.inl rfl) op16.words _).trans (by rw [setWidth_32_16]; rfl)
  case named =>
    intro s lk l c w i f v h
    refine ⟨?go, ?heartbeat, ?frmDone, ?frmAdmit⟩
    case go => exact fun hv hbit => State.next_congr (h.runStore hv hbit)
    case heartbeat => exact fun hv => State.next_congr (h.runStore hv rfl)
    case frmDone => exact fun hv => State.next_congr (h.runStore hv (beq_self_eq_true v))
    case frmAdmit => exact fun hv => State.next_congr (h.runStore hv (beq_self_eq_true v))
  case acting =>
    intro s lk l c w op f r t s' a h hs
    have hlow : a.getLsbD 0 = (l.ctx c).a.getLsbD 0 := by simp [a]
    refine ⟨?go, ?heartbeat, ?frmDone, ?frmAdmit⟩
    case go =>
      intro hp hbit
      rw [← hlow] at hbit
      exact (h.run_actingStore hs hp (by decide) hbit (State.lkWrite_go s lk c l hbit)).trans (State.next_congr (h.advance_putLk (by rfl) _))
    case heartbeat =>
      intro hp
      exact (h.run_actingStore hs hp (by decide) rfl (State.lkWrite_heartbeat s lk c l _)).trans
        (State.next_congr (h.advance_putLk (by rfl) _))
    case frmDone =>
      intro hp hvalid hctx hk hc hi hheld ht
      exact h.run_actingStore hs hp (lkStorable_frame (by omega) (by omega)) (beq_self_eq_true a)
        ((State.lkWrite_frmDone s' lk c f a).trans (h.writeFrmDone hvalid hctx hk hc hi hheld ht))
    case frmAdmit =>
      intro hp hbit hvalid hctx hk hc hi had hheld hr ht
      rw [← hlow] at hbit
      exact h.run_actingStore hs hp (lkStorable_frame (by omega) (by omega)) (beq_self_eq_true a)
        ((State.lkWrite_frmAdmit s' lk c f a).trans (h.writeFrmAdmit hbit hvalid hctx hk hc hi had hheld hr ht))

end

section
/-!
PROOFS. Traps (R205, R206), the engine group ISSUE, WAITE and POLLE (R202, R203), YIELD and END (R204).
-/
namespace Sys2Proof.Machine

/-! ### Traps (R205, R206) -/

/-- A trap with the emulation handler there and not at work saves the context's place and goes to the handler. -/
theorem State.trap_saves {t : State} {n c : Nat} {l : Lk} (hl : t.lk n = l) (hen : l.emuEn = true)
    (hact : (l.ctx c).emuStat.getLsbD 4 = false) (w : W16) (isTrap : Bool) (num : Nat) :
    t.trap n c w isTrap num = t.updCtx n c (fun x => { x with
      emuPc := x.pc + 1, emuWord := w, emuNext := l.nextWord (x.pc.toNat + 1),
      emuStat := BitVec.ofNat 16 (x.flagBits + 0x10 + b2n isTrap * 0x20 + num % 256 * 256), pc := 0x0010 }) := by
  subst hl
  simp only [State.trap, hen, hact, Bool.not_true, Bool.false_eq_true, if_false]

theorem State.trap_noHandler {t : State} {n : Nat} (hen : (t.lk n).emuEn = false) (c : Nat) (w : W16) (isTrap : Bool) (num : Nat) :
    t.trap n c w isTrap num = t.haltLk n c .noHandler := by
  simp only [State.trap, hen, Bool.not_false, if_true]

theorem State.trap_double {t : State} {n c : Nat} (hen : (t.lk n).emuEn = true) (hact : ((t.lk n).ctx c).emuStat.getLsbD 4 = true)
    (w : W16) (isTrap : Bool) (num : Nat) : t.trap n c w isTrap num = t.haltLk n c .doubleTrap := by
  simp only [State.trap, hen, hact, Bool.not_true, Bool.false_eq_true, if_true, if_false]

/-- A reserved word without a bad symbol traps. -/
theorem State.runReserved_traps {s : State} {n c : Nat} {l : Lk} {w : W16} (hr : s.lkRuns n = true) (hl : (s.lk n).dispatch = l)
    (hc : l.cur = some c) (hf : l.fetchInstr (l.ctx c).pc.toNat = .ok (w, none)) (hs : l.flaws [(l.ctx c).pc.toNat] = []) :
    s.runReserved n = (s.putLk n l).trap n c w false 0 := by
  have hlk : (s.putLk n l).lk n = l := s.lk_updLk _ (State.lkRuns_lt hr)
  have hn : (s.putLk n l).noteWord n (l.ctx c).pc.toNat = s.putLk n l := (s.putLk n l).noteWords_sound (ks := [_]) (by rw [hlk]; exact hs)
  simp only [State.putLk] at hn ⊢
  simp only [State.runReserved, hr, hl, hc, hf, hn, Bool.not_true, Bool.false_eq_true, if_false]

/-! ### Command slots -/

namespace State.AtInstr

variable {s : State} {n c : Nat} {l : Lk} {w : W16} {i : LkInstr}

/-- A change of the running context and then past the instruction, which leaves the pc to the latter. -/
theorem updCtx_advance (h : s.AtInstr n l c w i) (k : Nat) (g : Ctx → Ctx) :
    ((s.putLk n l).updCtx n c g).advance n c k =
      s.putLk n (l.updCtx c (fun x => { g x with pc := (g x).pc + BitVec.ofNat 16 k })) := h.ctxStep k g

/-- ISSUE from sound words, by the slot and the frame it names (R202, R210). -/
theorem issue_sound (h : s.AtInstr n l c w i) {k f : Nat} {sl : Slot} (hsl : (l.ctx c).slots.getD k {} = sl)
    (hf : sl.cmdFrame.toNat % 32 = f) (hs : l.flaws (issueKeys c k ++ frameKeys f) = []) :
    (s.putLk n l).issue n c k =
      match Unit.ofCommand (sl.cmdUnit.toNat / 256) with
      | none => .error .badCmd
      | some u =>
        if sl.state = 1 ∨ sl.state = 2 ∨ (!(l.frame f).valid) = true ∨ (l.frame f).ctx ≠ some c then .error .badCmd
        else if (l.frame f).killed = true ∨ (l.frame f).completed = true then
          .ok (((s.putLk n l).updSlot n c k
            (fun y => { y with state := 3, result := BitVec.ofNat 32 (l.frame f).doneStatus })).setC n c true)
        else if (!(l.frame f).admitted) = true ∨ (l.frame f).issued = true then .error .frameState
        else
          match s.findReq (l.frame f).req with
          | none => .error .frameState
          | some r =>
            if (s.freeLane u).isNone = true ∧ (!(classLanes u).isEmpty) = true then .ok ((s.putLk n l).setC n c false)
            else .ok ((s.putLk n l).acceptIssue n c k f r u (sl.cmdUnit.toNat % 256) (s.freeLane u) (sl.cmdFrame.getLsbD 15)) := by
  obtain ⟨hslot, -⟩ := (l.flaws_append _ _).mp hs
  have hnote : (s.putLk n l).noteWords n (issueKeys c k ++ if (l.frame f).ctx = some c then frameKeys f else []) = s.putLk n l := by
    apply h.noteWords
    split
    · exact hs
    · exact (l.flaws_append _ _).mpr ⟨hslot, rfl⟩
  simp only [State.issue, h.lk_putLk, hsl, hf, Lk.lost_sound hslot, hnote, Bool.false_eq_true, if_false]
  rfl

theorem run_issue_ok {k : Fin 4} (h : s.AtInstr n l c w (.issue k)) {t : State} (he : (s.putLk n l).issue n c k = .ok t) :
    s.run (fun s => s.runLk n (.issue k)) = .next (s.wrapUp (t.advance n c 1)) :=
  h.run_eq (by simp only [State.lkExecute, he])

theorem run_issue_error {k : Fin 4} (h : s.AtInstr n l c w (.issue k)) {e : Halt} (he : (s.putLk n l).issue n c k = .error e) :
    s.run (fun s => s.runLk n (.issue k)) = .next (s.wrapUp ((s.putLk n l).haltLk n c e)) :=
  h.run_eq (by simp only [State.lkExecute, he])

/-- WAITE and POLLE from sound words go by the state of the slot (R203, R210). -/
theorem waitSlot_done (h : s.AtInstr n l c w i) {k : Nat} (hs : l.flaws (resultKeys c k) = []) (wait : Bool)
    (hst : (s.putLk n l).slotState n c k = 3) : (s.putLk n l).waitSlot n c k wait = ((s.putLk n l).takeSlot n c k).advance n c 1 := by
  simp only [State.waitSlot, h.lk_putLk, Lk.lost_sound hs, h.noteWords hs, hst, Bool.false_eq_true, if_false]

theorem waitSlot_free (h : s.AtInstr n l c w i) {k : Nat} (hs : l.flaws (resultKeys c k) = []) (wait : Bool)
    (hst : (s.putLk n l).slotState n c k = 0) : (s.putLk n l).waitSlot n c k wait = (s.putLk n l).haltLk n c .badCmd := by
  simp only [State.waitSlot, h.lk_putLk, Lk.lost_sound hs, h.noteWords hs, hst, Bool.false_eq_true, if_false]

theorem waitSlot_busy (h : s.AtInstr n l c w i) {k st : Nat} (hs : l.flaws (resultKeys c k) = []) (wait : Bool) (hbusy : st ∈ [1, 2])
    (hst : (s.putLk n l).slotState n c k = st) :
    (s.putLk n l).waitSlot n c k wait =
      if wait then (s.putLk n l).updLk n (fun l => l.switch c (.waitSlot k)) else ((s.putLk n l).setC n c false).advance n c 1 := by
  simp only [List.mem_cons, List.not_mem_nil, or_false] at hbusy
  rcases hbusy with rfl | rfl
  · simp only [State.waitSlot, h.lk_putLk, Lk.lost_sound hs, h.noteWords hs, hst, Bool.false_eq_true, if_false]
  · simp only [State.waitSlot, h.lk_putLk, Lk.lost_sound hs, h.noteWords hs, hst, Bool.false_eq_true, if_false]

/-- END of the context, past its own word: it is IDLE and its frames that were not issued end (R204). -/
theorem endCtx_advance (h : s.AtInstr n l c w i) :
    ((s.putLk n l).advance n c 1).endCtx n c =
      ((((l.heldBy c).filter (fun e => !e.2.issued && !e.2.completed && !e.2.killed)).foldl (fun t e =>
        let t := t.endReq e.2.req .engineFault .lockkeeper n
        ((t.recordEvent srcLkTrap (lkDomain n) t.pick).1).drawn)
        (((s.putLk n l).freeSlots n (· == c)).updLk n (fun _ => ((l.updCtx c (fun x =>
          { x with pc := x.pc + 1, stack := [], slots := x.slots.map Slot.free })).leave (· == c)).switch c .idle))).updLk n
        Lk.releaseFrames).checkDrained n := by
  have hlk (m : Lk) : (s.putLk n m).lk n = m := s.lk_updLk _ h.lt
  have hfree (m : Lk) : (s.putLk n m).freeSlots n (· == c) = (s.freeSlots n (· == c)).putLk n m := rfl
  rw [h.advance_putLk (by rfl)]
  simp only [State.endCtx, hlk, hfree, State.updLk_putLk, Lk.updCtx_updCtx]
  rfl

/-- Taking the result of a slot sets A, Z and C of the running context and frees the slot. -/
theorem takeSlot_advance (h : s.AtInstr n l c w i) {k : Nat} {sl : Slot} (hsl : (l.ctx c).slots.getD k {} = sl) :
    ((s.putLk n l).takeSlot n c k).advance n c 1 = s.putLk n (l.updCtx c (fun x =>
      { x with a := sl.result, fZ := fld sl.result 7 0 == 0, fC := true, slots := modAt Slot.free k x.slots, pc := x.pc + 1 })) := by
  simp only [State.takeSlot, h.lk_putLk, hsl]
  exact h.updCtx_advance 1 _

end State.AtInstr

end Sys2Proof.Machine

open Sys2Proof.Machine in
/-- Settles O13: with EMU_EN set and ACTIVE clear the trap saves its words and goes on at 0x0010, else it halts; a reserved word too. -/
theorem emulationTraps : Obligations.EmulationTraps := by
  unfold Obligations.EmulationTraps
  intro s lk l c w k x saved
  refine ⟨?trap, ?noHandler, ?double, ?reserved⟩
  case trap =>
    intro h hen hact
    have hk : k.toNat % 256 = k.toNat := Nat.mod_eq_of_lt k.isLt
    refine h.run_eq ((State.trap_saves (h.lk_putLk l) hen hact w true k.toNat).trans ((State.updCtx_putLk ..).trans ?_))
    simp only [saved, hk, b2n, if_true, Nat.one_mul, Nat.add_assoc, Nat.mul_comm]
  case noHandler =>
    exact fun h hen => h.run_eq (State.trap_noHandler (by rw [h.lk_putLk]; exact hen) c w true k.toNat)
  case double =>
    exact fun h hen hact => h.run_eq (State.trap_double (by rw [h.lk_putLk]; exact hen) (by rw [h.lk_putLk]; exact hact) w true k.toNat)
  case reserved =>
    intro hr hl hc hf hs hen hact
    have hlk : (s.putLk lk l).lk lk = l := s.lk_updLk _ (State.lkRuns_lt hr)
    refine State.next_congr ((State.runReserved_traps hr hl hc hf hs).trans
      ((State.trap_saves hlk hen hact w false 0).trans ((State.updCtx_putLk ..).trans ?_)))
    rfl

open Sys2Proof.Machine in
/-- Settles O14: the outcomes of ISSUE, WAITE and POLLE by the words of slot and frame, and what YIELD and END do. -/
theorem engineInstructions : Obligations.EngineInstructions := by
  unfold Obligations.EngineInstructions
  intro s lk l c w k r u s' sl f fr next slot taken halted ready offered issuable waits
  refine ⟨?accepted, ?noLane, ?ended, ?badCmd, ?notReady, ?waiteDone, ?polleDone, ?waiteBusy, ?polleBusy, ?waiteFree, ?polleFree, ?yields,
    ?ends⟩
  case accepted =>
    rintro ⟨⟨⟨h, hs⟩, hu, h1, h2, hv, hc⟩, hk, hd, ha, hi, hr⟩ hlane
    have hfree : ¬((s.freeLane u).isNone = true ∧ (!(classLanes u).isEmpty) = true) := by
      rcases hlane with hl | hl
      · simp [Option.isSome_iff_ne_none.mp hl]
      · simp [hl]
    refine h.run_issue_ok ((h.issue_sound (sl := sl) (f := f) rfl rfl hs).trans ?_)
    simp only [fr] at hv hc hk hd ha hi hr
    simp only [hu, h1, h2, hv, hc, hk, hd, ha, hi, hr, hfree, Bool.not_true, Bool.false_eq_true, ne_eq, not_true_eq_false, or_self,
      if_false]
    rfl
  case noLane =>
    rintro ⟨⟨⟨h, hs⟩, hu, h1, h2, hv, hc⟩, hk, hd, ha, hi, hr⟩ hnone hlanes
    have hfull : (s.freeLane u).isNone = true ∧ (!(classLanes u).isEmpty) = true := by simp [hnone, hlanes]
    refine (h.run_issue_ok ((h.issue_sound (sl := sl) (f := f) rfl rfl hs).trans ?_)).trans (State.next_congr (h.updCtx_advance 1 _))
    simp only [fr] at hv hc hk hd ha hi hr
    simp only [hu, h1, h2, hv, hc, hk, hd, ha, hi, hr, hfull, Bool.not_true, Bool.false_eq_true, ne_eq, not_true_eq_false, or_self,
      and_self, if_true, if_false]
    rfl
  case ended =>
    rintro ⟨⟨h, hs⟩, hu, h1, h2, hv, hc⟩ hover
    refine (h.run_issue_ok (t := (s'.updSlot lk c k (fun y =>
      { y with state := 3, result := BitVec.ofNat 32 fr.doneStatus })).setC lk c true)
      ((h.issue_sound (sl := sl) (f := f) rfl rfl hs).trans ?_)).trans (State.next_congr ?_)
    · simp only [fr] at hv hc hover
      simp only [hu, h1, h2, hv, hc, hover, Bool.not_true, Bool.false_eq_true, ne_eq, not_true_eq_false, or_self, if_true, if_false]
      rfl
    · simp only [State.updSlot, State.setC, s', State.updLk_putLk, Lk.updCtx_updCtx]
      exact (h.advance_putLk (by rfl) 1).trans (congrArg _ (Lk.updCtx_updCtx ..))
  case badCmd =>
    rintro ⟨h, hs⟩ hbad
    refine h.run_issue_error ((h.issue_sound (sl := sl) (f := f) rfl rfl hs).trans ?_)
    simp only [fr] at hbad
    cases hu : Unit.ofCommand (sl.cmdUnit.toNat / 256) with
    | none => rfl
    | some v =>
      simp only [hu, reduceCtorEq, false_or] at hbad
      simp only [Bool.not_eq_true', hbad, if_true]
  case notReady =>
    rintro ⟨⟨h, hs⟩, hu, h1, h2, hv, hc⟩ hk hd hbad
    refine h.run_issue_error ((h.issue_sound (sl := sl) (f := f) rfl rfl hs).trans ?_)
    simp only [fr] at hv hc hk hd hbad
    simp only [hu, h1, h2, hv, hc, hk, hd, hbad, Bool.not_true, Bool.not_eq_true', Bool.false_eq_true, ne_eq, not_true_eq_false, or_self,
      if_true, if_false]
  case waiteDone => exact fun ⟨h, hs, hst⟩ => h.run_eq ((h.waitSlot_done hs true hst).trans (h.takeSlot_advance rfl))
  case polleDone => exact fun ⟨h, hs, hst⟩ => h.run_eq ((h.waitSlot_done hs false hst).trans (h.takeSlot_advance rfl))
  case waiteBusy =>
    exact fun st hbusy ⟨h, hs, hst⟩ => h.run_eq ((h.waitSlot_busy hs true hbusy hst).trans (State.updLk_putLk ..))
  case polleBusy => exact fun st hbusy ⟨h, hs, hst⟩ => h.run_eq ((h.waitSlot_busy hs false hbusy hst).trans (h.updCtx_advance 1 _))
  case waiteFree => exact fun ⟨h, hs, hst⟩ => h.run_eq (h.waitSlot_free hs true hst)
  case polleFree => exact fun ⟨h, hs, hst⟩ => h.run_eq (h.waitSlot_free hs false hst)
  case yields =>
    intro h
    refine h.run_eq ?_
    simp only [State.lkExecute, h.advance_putLk rfl, State.updLk_putLk]
    rfl
  case ends =>
    exact fun h => h.run_eq h.endCtx_advance

end

section
/-!
PROOFS. A register write that the port carries, by the part of the map that its register lies in (R9, R542), and the management of
Lockkeepers (R208 to R215).
-/
namespace Sys2Proof.Machine

/-! ### Carried writes, by the part of the map -/

section

variable {s t : State} {acc : Access} {r : RegId} {i j : Nat} {d : W32}

theorem State.write_mgt (hc : s.Carries acc (r.target i j)) (ha : r.addr i j < 0x010000) (ht : s.writeMgt { id := r, i := i, j := j } d = t) :
    (Host.Outcome.next (s.wrapUp (s.write acc d r i j)) : Host.Outcome State Fault Refusal) = .next (s.wrapUp (t.respond .okay 0)) :=
  State.write_carried_eq hc ((if_pos ha).trans ht)

theorem State.write_keys (hc : s.Carries acc (r.target i j)) (hlo : 0x010000 ≤ r.addr i j) (hhi : r.addr i j < 0x040000)
    (ht : s.writeKeys { id := r, i := i, j := j } d = t) :
    (Host.Outcome.next (s.wrapUp (s.write acc d r i j)) : Host.Outcome State Fault Refusal) = .next (s.wrapUp (t.respond .okay 0)) :=
  State.write_carried_eq hc ((s.writeReg_keyWindow (x := { id := r, i := i, j := j }) hlo hhi d).trans ht)

theorem State.write_units (hc : s.Carries acc (r.target i j)) (hlo : 0x040000 ≤ r.addr i j) (hhi : r.addr i j < 0x080000)
    (ht : s.writeUnits { id := r, i := i, j := j } d = t) :
    (Host.Outcome.next (s.wrapUp (s.write acc d r i j)) : Host.Outcome State Fault Refusal) = .next (s.wrapUp (t.respond .okay 0)) := by
  refine State.write_carried_eq hc (Eq.trans ?_ ht)
  have h1 : ¬ r.addr i j < 0x010000 := by omega
  have h2 : ¬ r.addr i j < 0x040000 := by omega
  simp only [State.writeReg, RegRef.addr, h1, h2, hhi, if_true, if_false]

theorem State.write_path (hc : s.Carries acc (r.target i j)) (hlo : 0x080000 ≤ r.addr i j)
    (hpart : r.addr i j < 0x100000 ∨ 0x500000 ≤ r.addr i j) (ht : s.writePath { id := r, i := i, j := j } d = t) :
    (Host.Outcome.next (s.wrapUp (s.write acc d r i j)) : Host.Outcome State Fault Refusal) = .next (s.wrapUp (t.respond .okay 0)) := by
  refine State.write_carried_eq hc (Eq.trans ?_ ht)
  have h1 : ¬ r.addr i j < 0x010000 := by omega
  have h2 : ¬ r.addr i j < 0x040000 := by omega
  have h3 : ¬ r.addr i j < 0x080000 := by omega
  have h4 : ¬(0x100000 ≤ r.addr i j ∧ r.addr i j < 0x500000) := by omega
  simp only [State.writeReg, RegRef.addr, h1, h2, h3, h4, if_false]

theorem State.write_part (hc : s.Carries acc (r.target i j)) (hlo : 0x100000 ≤ r.addr i j) (hhi : r.addr i j < 0x500000)
    (ht : s.writePart { id := r, i := i, j := j } d = t) :
    (Host.Outcome.next (s.wrapUp (s.write acc d r i j)) : Host.Outcome State Fault Refusal) = .next (s.wrapUp (t.respond .okay 0)) :=
  State.write_carried_eq hc ((s.writeReg_partitionWindow (x := { id := r, i := i, j := j }) hlo hhi d).trans ht)

end

/-! ### LK_CTRL (R214, R215) -/

section

variable {s t : State} {acc : Access} {d : W32}

theorem lkCtrl_addr : ∀ n : Fin 8, 0x080000 ≤ RegId.lkCtrl.addr n 0 ∧ RegId.lkCtrl.addr n 0 < 0x100000 := by decide

/-- A carried write of LK_CTRL does what its bits ask for. -/
theorem State.write_lkCtrl {lk : Fin 8} (hc : s.Carries acc (RegId.lkCtrl.target lk 0))
    (ht : (s.store { id := .lkCtrl, i := lk } d).lkCtrl lk d = t) :
    (Host.Outcome.next (s.wrapUp (s.write acc d .lkCtrl lk)) : Host.Outcome State Fault Refusal) = .next (s.wrapUp (t.respond .okay 0)) :=
  State.write_path hc (lkCtrl_addr lk).1 (.inl (lkCtrl_addr lk).2) ht

theorem State.lkCtrl_drain {n : Nat} (h1 : bitOf d 1 = true) (h2 : bitOf d 2 = false) (h3 : bitOf d 3 = false) :
    s.lkCtrl n d = s.lkDrain n := by simp only [State.lkCtrl, h1, h2, h3, if_true, Bool.false_eq_true, if_false]

theorem State.lkCtrl_restart {n : Nat} (h1 : bitOf d 1 = false) (h2 : bitOf d 2 = true) (h3 : bitOf d 3 = false) :
    s.lkCtrl n d = s.lkRestartCmd n := by simp only [State.lkCtrl, h1, h2, h3, if_true, Bool.false_eq_true, if_false]

theorem State.lkCtrl_clone {n : Nat} (h1 : bitOf d 1 = false) (h2 : bitOf d 2 = false) (h3 : bitOf d 3 = true) :
    s.lkCtrl n d = s.lkClone n (s.regF .lkCtrl 6 4 n) := by simp only [State.lkCtrl, h1, h2, h3, if_true, Bool.false_eq_true, if_false]

@[simp] theorem State.lk_store (x : RegRef) (d : W32) (n : Nat) : (s.store x d).lk n = s.lk n := by
  simp only [State.lk, State.store_lks]

@[simp] theorem State.domOn_store (x : RegRef) (d : W32) (n : Nat) : (s.store x d).domOn n = s.domOn n := by
  simp only [State.domOn, State.domState, State.store_power]

theorem State.lkDrain_running {n : Nat} (h : (s.lk n).state = .running) :
    s.lkDrain n = (s.updLk n (fun l => { l with state := .draining })).checkDrained n := if_pos h

theorem State.lkRestartCmd_on {n : Nat} (h : (s.lk n).state = .drained ∨ (s.lk n).state = .halted) (hon : s.domOn (lkDomain n) = true) :
    s.lkRestartCmd n = s.updLk n (fun l => l.released.dispatch) := by
  rcases h with h | h <;> simp [State.lkRestartCmd, h, hon, State.lkRestart]

theorem State.lkClone_on {n src : Nat} (h : (s.lk n).state = .drained ∨ (s.lk n).state = .halted)
    (hs : (s.lk src).state = .running ∨ (s.lk src).state = .drained) (hne : src ≠ n) (hon : s.domOn (lkDomain n) = true) :
    s.lkClone n src = s.updLk n (fun l => { l with state := .loading, cloneFrom := some src }) := by
  simp [State.lkClone, h, hs, hne, hon]

theorem State.lkCloneDone_copies {n src : Nat} (hsrc : (s.lk n).cloneFrom = some src) (hst : (s.lk n).state = .loading)
    (hw : (s.lk n).onWake ≠ some none) : s.lkCloneDone n = s.updLk n (fun l => l.cloned (s.lk src)) := by
  simp only [State.lkCloneDone, hsrc, hst, hw, ne_eq, not_true_eq_false, if_false]

theorem State.heartExpire_halts {n c : Nat} {l : Lk} (hl : (s.lk n).dispatch = l) (hc : l.cur = some c) (hs : l.serves = true) :
    s.heartExpire n = (s.putLk n l).haltLk n c .heartbeat := by
  simp only [State.heartExpire, hl, hc, hs, if_true, State.putLk]

end

end Sys2Proof.Machine

open Sys2Proof.Machine in
/-- Settles O15: what a write of one trigger bit of LK_CTRL does, and the ends of clones, heartbeats, scrubs and drains. -/
theorem lockkeeperManagement : Obligations.LockkeeperManagement := by
  unfold Obligations.LockkeeperManagement
  intro s acc lk d c src l s'
  refine ⟨?drain, ?restart, ?clone, ?cloneDone, ?heartbeat, ?scrub, ?drainLimit⟩
  case drain =>
    intro hc h1 h2 h3 hst
    exact State.write_lkCtrl hc ((State.lkCtrl_drain h1 h2 h3).trans (State.lkDrain_running (by simpa using hst)))
  case restart =>
    intro hc h1 h2 h3 hst hon
    exact State.write_lkCtrl hc ((State.lkCtrl_restart h1 h2 h3).trans (State.lkRestartCmd_on (by simpa using hst) (by simpa using hon)))
  case clone =>
    intro hc h1 h2 h3 hst hsrc hne hrun hon
    subst hsrc
    exact State.write_lkCtrl hc ((State.lkCtrl_clone h1 h2 h3).trans
      (State.lkClone_on (by simpa using hst) (by simpa using hrun) hne (by simpa using hon)))
  case cloneDone => exact fun hsrc hst hw => State.next_congr (State.lkCloneDone_copies hsrc hst hw)
  case heartbeat => exact fun hl hc hs => State.next_congr (State.heartExpire_halts hl hc hs)
  case scrub => rfl
  case drainLimit =>
    intro hst fetched idle
    refine State.next_congr ?_
    simp only [State.lkDrainExpire, hst, ne_eq, not_true_eq_false, if_false]
    rfl

end

section
/-!
PROOFS. Enabling, stopping and resuming rings (R137, R140, R143).
-/
namespace Sys2Proof.Machine

variable {s t : State} {acc : Access} {d : W32}

theorem sqCtrl_addr (p : Fin 64) (n : Fin 16) : 0x100000 ≤ RegId.sqCtrl.addr p n ∧ RegId.sqCtrl.addr p n < 0x500000 := by
  simp only [RegId.addr, RegId.row]
  omega

theorem cqCtrl_addr (p : Fin 64) (n : Fin 16) : 0x100000 ≤ RegId.cqCtrl.addr p n ∧ RegId.cqCtrl.addr p n < 0x500000 := by
  simp only [RegId.addr, RegId.row]
  omega

theorem State.write_sqCtrl {p : Fin 64} {n : Fin 16} (hc : s.Carries acc (RegId.sqCtrl.target p n))
    (ht : s.sqCtrl p n (bitOf d 0) (bitOf d 1) = t) :
    (Host.Outcome.next (s.wrapUp (s.write acc d .sqCtrl p n)) : Host.Outcome State Fault Refusal) = .next (s.wrapUp (t.respond .okay 0)) :=
  State.write_part hc (sqCtrl_addr p n).1 (sqCtrl_addr p n).2 ht

theorem State.write_cqCtrl {p : Fin 64} {n : Fin 16} (hc : s.Carries acc (RegId.cqCtrl.target p n))
    (ht : s.cqCtrl p n (bitOf d 0) (bitOf d 1) (bitOf d 2) = t) :
    (Host.Outcome.next (s.wrapUp (s.write acc d .cqCtrl p n)) : Host.Outcome State Fault Refusal) = .next (s.wrapUp (t.respond .okay 0)) :=
  State.write_part hc (cqCtrl_addr p n).1 (cqCtrl_addr p n).2 ht

theorem State.sqCtrl_enable {p n : Nat} (hok : s.sqEnableOk p n = true) : s.sqCtrl p n true false = s.sqRun p n := by
  simp only [State.sqCtrl, hok, Bool.and_false, Bool.false_eq_true, if_true, if_false]

theorem State.sqCtrl_stop {p n : Nat} (hst : s.sqState p n = 1 ∨ s.sqState p n = 4) : s.sqCtrl p n false true = s.stopRing p n := by
  rcases hst with h | h <;> simp only [State.sqCtrl, h, Bool.false_and, Bool.false_eq_true, if_true, if_false]

theorem State.cqCtrl_enable {p n : Nat} (hok : s.cqEnableOk p n = true) (resume : Bool) : s.cqCtrl p n true false resume = s.cqRun p n := by
  simp only [State.cqCtrl, hok, Bool.and_false, Bool.false_eq_true, if_true, if_false]

theorem State.cqCtrl_disable {p n : Nat} (hst : s.cqState p n ≠ 2) (hn : s.cqNamed p n = false) (hw : s.cqWaits p n = false) (resume : Bool) :
    s.cqCtrl p n false true resume = s.setCqState p n 0 := by
  simp only [State.cqCtrl, hst, hn, hw, Bool.false_and, Bool.false_eq_true, or_self, if_true, if_false]

theorem State.cqCtrl_resume {p n : Nat} (hst : s.cqState p n = 2) (hr : s.retrying p n = false) :
    s.cqCtrl p n false false true =
      let s' : State := { s with retries := s.retries.map (fun r => if r.ptn = p ∧ r.cq = n then { r with wanted := true } else r) }
      s'.retryWrites s'.retries := by
  simp only [State.cqCtrl, State.cqResume, hst, hr, Bool.false_and, Bool.not_false, Bool.false_eq_true, and_self, if_true, if_false]

end Sys2Proof.Machine

open Sys2Proof.Machine in
/-- Settles O17: the conditions of ENABLE, and what STOP, DISABLE and RESUME do where they are not refused. -/
theorem ringControl : Obligations.RingControl := by
  unfold Obligations.RingControl
  intro s acc p n d
  refine ⟨?sqEnable, ?sqStop, ?sqBoth, ?cqEnable, ?cqDisable, ?cqResume⟩
  case sqEnable =>
    intro hc h0 h1 hst hmax h4 h16 hbase hcq hres
    have hok : s.sqEnableOk p n = true := by
      simp only [State.sqEnableOk, Bool.and_eq_true, Bool.or_eq_true, beq_iff_eq, decide_eq_true_eq, Bool.not_eq_true', List.any_eq_false]
      exact ⟨⟨⟨⟨⟨hst, hmax⟩, h4, h16⟩, hbase⟩, hcq⟩, hres⟩
    exact State.write_sqCtrl hc (by rw [h0, h1]; exact State.sqCtrl_enable hok)
  case sqStop => exact fun hc h0 h1 hst => State.write_sqCtrl hc (by rw [h0, h1]; exact State.sqCtrl_stop hst)
  case sqBoth => exact fun hc h0 h1 => State.write_sqCtrl hc (by rw [h0, h1]; rfl)
  case cqEnable =>
    intro hc h0 h1 hst hmax h4 h16 hbase
    have hok : s.cqEnableOk p n = true := by
      simp only [State.cqEnableOk, Bool.and_eq_true, beq_iff_eq, decide_eq_true_eq]
      exact ⟨⟨⟨hst, hmax⟩, h4, h16⟩, hbase⟩
    exact State.write_cqCtrl hc (by rw [h0, h1]; exact State.cqCtrl_enable hok _)
  case cqDisable => exact fun hc h0 h1 hst hn hw => State.write_cqCtrl hc (by rw [h0, h1]; exact State.cqCtrl_disable hst hn hw _)
  case cqResume =>
    intro hc h0 h1 h2 hst hnone
    have hr : s.retrying p n = false := by
      simp only [State.retrying, List.any_eq_false, Bool.and_eq_true, Bool.or_eq_true, decide_eq_true_eq, and_assoc]
      exact hnone
    exact State.write_cqCtrl hc (by rw [h0, h1, h2]; exact State.cqCtrl_resume hst hr)

end

section
/-!
PROOFS. The release of output cells (R226) in a state with two requests under one number, and the responses to bursts (R37, R38, R40, R41).
-/
namespace Sys2Proof.Machine

/-! ### Two requests under one number -/

/-- A posted request with number 0 whose output is `out`. -/
def postedReq (out : Bytes) : Req :=
  { id := 0, ptn := 0, ring := 0, index := 0, desc := {}, phase := .posted, result := some { status := .ok, out := out },
    bas := { outBanks := [0, 1] } }

/-- The block after reset with two posted requests of number 0, of which only the first has output. -/
def twoUnderOneNumber : State := { State.reset with reqs := [postedReq (zeros 200), postedReq []] }

/-- The block once the bursts of the first cell have been issued. -/
def firstCellIssued : State :=
  (twoUnderOneNumber.issueWrites (.output 0) 0 ((0 : W64).toNat + 0) (slice (postedReq (zeros 200)).output 0 128)).getD twoUnderOneNumber

/-- The bytes released of each request after a command. -/
def releasedAfter : Host.Outcome State Fault Refusal → List Nat
  | .next t => t.reqs.map (fun r => r.bas.released)
  | _ => []

/-- The command counts the bytes of the cell for both requests. -/
theorem released_twoUnderOneNumber : releasedAfter (exec (.outputCellRelease 0) twoUnderOneNumber) = [128, 128] := by decide +kernel

end Sys2Proof.Machine

open Sys2Proof.Machine in
/-- Refutes O18 by its clause on OUTPUT_CELL_RELEASE, which takes the length of the released cell from each request of the number anew:
with two requests under one number (which no reset leads to, and which the statement does not exclude) the model adds the first one's
128 bytes to both, the statement none to the second. -/
theorem not_completionsAndInterrupts : ¬ Obligations.CompletionsAndInterrupts := by
  unfold Obligations.CompletionsAndInterrupts
  intro h
  obtain ⟨-, -, -, -, -, release, -⟩ := h twoUnderOneNumber firstCellIssued State.reset 0 0 0
    (entryOf State.reset (postedReq []) { status := .ok }) (postedReq (zeros 200)) { status := .ok } { ptn := 0, vec := 0 }
  have hreleased := congrArg releasedAfter
    (release (by decide +kernel) (by decide +kernel) (by decide +kernel) (by decide +kernel) (by decide +kernel))
  rw [released_twoUnderOneNumber] at hreleased
  exact absurd hreleased (by decide +kernel)

end

section
/-!
PROOFS. The responses to bursts (R37, R38, R40, R41), the reset pins (R71, R74), and the commands of start-up (R78, R79, R87, R89).
-/
namespace Sys2Proof.Machine

/-! ### Responses to bursts -/

section

variable {s : State} {tag : Nat} {data : Bytes} {x : ReadXfer} {w : WriteXfer}

theorem State.endRead_found (hf : s.reads.find? (fun x => x.tag = tag) = some x) :
    s.endRead x = ({ s with reads := s.reads.filter (fun y => y.tag ≠ x.tag) } : State).returnCells x.held := by
  have ht : x.tag = tag := by simpa using List.find?_some hf
  simp only [State.endRead, ht, hf, Option.map_some, Option.getD_some]

theorem State.dmaRead_last (hf : s.reads.find? (fun x => x.tag = tag) = some x) (hd : x.dead = false)
    (hl : x.len ≤ x.got + (x.useful data).length) :
    s.dmaRead tag data false false =
      (({ s with reads := s.reads.filter (fun y => y.tag ≠ x.tag) } : State).returnCells x.held).readData x (x.useful data) false := by
  simp only [State.dmaRead, hf, hd, hl, ← State.endRead_found hf, decide_true, Bool.or_true, Bool.false_eq_true, if_true, if_false]

theorem State.dmaRead_more (hf : s.reads.find? (fun x => x.tag = tag) = some x) (hd : x.dead = false)
    (hl : x.got + (x.useful data).length < x.len) :
    s.dmaRead tag data false false =
      ({ s with reads := s.reads.map (fun y => if y.tag = tag then { y with got := x.got + (x.useful data).length } else y) } : State).readData
        x (x.useful data) false := by
  simp only [State.dmaRead, hf, hd, Nat.not_le.mpr hl, decide_false, Bool.or_false, Bool.false_eq_true, if_false]

theorem State.dmaWrote_ok (hf : s.writes.find? (fun w => w.tag = tag) = some w) (hd : w.dead = false) :
    s.dmaWrote tag false = (({ s with writes := s.writes.filter (fun y => y.tag ≠ w.tag) } : State).irqWrote tag none).writeDone w := by
  have ht : w.tag = tag := by simpa using List.find?_some hf
  simp only [State.dmaWrote, hf, hd, ht, Bool.false_eq_true, if_false]

theorem State.dmaWrote_err (hf : s.writes.find? (fun w => w.tag = tag) = some w) (hd : w.dead = false) :
    s.dmaWrote tag true =
      let t : State := { s with writes := s.writes.filter (fun y => y.tag ≠ w.tag) }
      ((t.irqWrote tag w.purpose.retry).event srcDmaFabric (t.unitDomain 6 w.engine) w.engine).writeFault w := by
  have ht : w.tag = tag := by simpa using List.find?_some hf
  simp only [State.dmaWrote, hf, hd, ht, Bool.false_eq_true, if_true, if_false]

theorem State.dmaTimeout_read (hf : s.reads.find? (fun x => x.tag = tag && !x.dead) = some x) :
    s.dmaTimeout false tag = (s.event srcDmaTimeout (s.unitDomain 6 x.engine) x.engine).readDead x := by
  simp only [State.dmaTimeout, hf, Bool.false_eq_true, if_false]

theorem State.dmaTimeout_write (hf : s.writes.find? (fun w => w.tag = tag && !w.dead) = some w) :
    s.dmaTimeout true tag = (s.event srcDmaTimeout (s.unitDomain 6 w.engine) w.engine).writeDead w := by
  simp only [State.dmaTimeout, hf, if_true]

end

/-! ### Reset pins -/

section

variable {s : State}

theorem State.recordLevel_pins (s : State) (level cause : Nat) : (s.recordLevel level cause).pins = s.pins := by
  have hfold (l : List Nat) (t : State) :
      (l.foldl (fun s p => s.setF .ptnStatus 31 16 (s.regF .ptnStatus 31 16 p + 1) p) t).pins = t.pins := by
    induction l generalizing t with
    | nil => rfl
    | cons p l ih => exact ih _
  exact hfold _ _

/-- The release of a reset begins start-up, unless the other one is still asserted (R74). -/
theorem State.coldRelease_starts (hc : s.pins.coldLow = true) (hw : s.pins.warmLow = false) :
    s.coldRelease = ({ s with pins := { s.pins with coldLow := false } } : State).startUp := by
  simp only [State.coldRelease, hc, hw, true_or, Bool.false_eq_true, if_true, if_false]

theorem State.warmRelease_starts (hw : s.pins.warmLow = true) (hc : s.pins.coldLow = false) :
    s.warmRelease = ({ s with pins := { s.pins with warmLow := false } } : State).startUp := by
  simp only [State.warmRelease, hc, hw, Bool.false_eq_true, if_true, if_false]

/-- A warm reset by what the block has asked for: nothing, level 3 or level 4 (R71, R479). -/
theorem State.warmAssert_unasked (hw : s.pins.warmLow = false) (h0 : s.pins.blkRstReq = 0) :
    s.warmAssert = let t := (s.recordLevel 1 6).resetTo false; { t with pins := { t.pins with warmLow := true } } := by
  have hp : (s.recordLevel 1 6).pins.blkRstReq = 0 := by rw [s.recordLevel_pins, h0]
  have hdeep : ((0 : Nat) == 2) = false := rfl
  simp only [State.warmAssert, hw, h0, hp, hdeep, Bool.false_eq_true, if_true, if_false]

theorem State.warmAssert_level3 (hw : s.pins.warmLow = false) (h1 : s.pins.blkRstReq = 1) :
    s.warmAssert = let t := s.resetTo false; { t with pins := { t.pins with warmLow := true } } := by
  have hdeep : ((1 : Nat) == 2) = false := rfl
  simp only [State.warmAssert, hw, h1, hdeep, Nat.one_ne_zero, Bool.false_eq_true, if_false]

theorem State.warmAssert_level4 (hw : s.pins.warmLow = false) (h2 : s.pins.blkRstReq = 2) :
    s.warmAssert = let t := (s.resetTo true).setB .fltEsc 24 true; { t with pins := { t.pins with warmLow := true } } := by
  have hdeep : ((2 : Nat) == 2) = true := rfl
  simp only [State.warmAssert, hw, h2, hdeep, OfNat.ofNat_ne_zero, Bool.false_eq_true, if_true, if_false]

end

/-! ### The manifest stream, RELOAD and MGT_SV_COMMIT -/

section

variable {s t : State} {acc : Access} {d : W32} {w : W64}

theorem State.mfsWord_more (hs : s.boot.streaming = true) (hlen : (s.boot.image ++ toLe 8 w.toNat).length < 256 ∨
      (s.boot.image ++ toLe 8 w.toNat).length < loadLen (s.boot.image ++ toLe 8 w.toNat)) :
    s.mfsWord w = { s with boot := { s.boot with image := s.boot.image ++ toLe 8 w.toNat } } := by
  have hnot : ¬(256 ≤ (s.boot.image ++ toLe 8 w.toNat).length ∧
    loadLen (s.boot.image ++ toLe 8 w.toNat) ≤ (s.boot.image ++ toLe 8 w.toNat).length) := by omega
  simp only [State.mfsWord, hs, hnot, Bool.not_true, Bool.false_eq_true, if_false]

theorem State.mfsWord_whole (hs : s.boot.streaming = true) (h256 : 256 ≤ (s.boot.image ++ toLe 8 w.toNat).length)
    (hlen : loadLen (s.boot.image ++ toLe 8 w.toNat) ≤ (s.boot.image ++ toLe 8 w.toNat).length) :
    s.mfsWord w = { s.setF .mgtStatus 3 0 phVerify with
      boot := { s.boot with image := s.boot.image ++ toLe 8 w.toNat, streaming := false } } := by
  simp only [State.mfsWord, hs, h256, hlen, and_self, Bool.not_true, Bool.false_eq_true, if_true, if_false]
  rfl

theorem State.verifyDone_badShadow (hp : s.phase = phVerify) (hb : s.boot.badShadow = true) : s.verifyDone = s.reject causeMemory none := by
  simp only [State.verifyDone, hp, hb, ne_eq, not_true_eq_false, if_true, if_false]

theorem State.verifyDone_fails {c : Nat} {i : Option Nat} (hp : s.phase = phVerify) (hb : s.boot.badShadow = false)
    (hf : s.imageFails s.boot.image false = some (c, i)) : s.verifyDone = s.reject c i := by
  simp only [State.verifyDone, hp, hb, hf, ne_eq, not_true_eq_false, Bool.false_eq_true, if_false]

theorem State.verifyDone_commits (hp : s.phase = phVerify) (hb : s.boot.badShadow = false)
    (hf : s.imageFails s.boot.image false = none) : s.verifyDone = s.commitImage s.boot.image := by
  simp only [State.verifyDone, hp, hb, hf, ne_eq, not_true_eq_false, Bool.false_eq_true, if_false]

theorem State.write_mgtReload (hc : s.Carries acc (RegId.mgtReload.target 0 0)) (h0 : bitOf d 0 = true) (hp : s.phase = phRejected) :
    (Host.Outcome.next (s.wrapUp (s.write acc d .mgtReload)) : Host.Outcome State Fault Refusal) =
      .next (s.wrapUp (s.startLoad.respond .okay 0)) :=
  State.write_mgt hc (by decide) (by simp only [State.writeMgt, h0, State.reload, hp, if_true])

theorem State.write_mgtSvCommit (hc : s.Carries acc (RegId.mgtSvCommit.target 0 0)) (h0 : bitOf d 0 = true) (hb : s.regB .mgtSvCommit 0 = false)
    {ws : List (Nat × W32)} (hw : s.floorWords (numsFrom 0x020 4) (min (s.reg .mgtImageSv).toNat 128 - s.svFloor) = ws) (hne : ws ≠ []) :
    (Host.Outcome.next (s.wrapUp (s.write acc d .mgtSvCommit)) : Host.Outcome State Fault Refusal) =
      .next (s.wrapUp (((s.setB .mgtSvCommit 0 true).program .svFloor ws).respond .okay 0)) :=
  State.write_mgt hc (by decide) (by
    simp only [State.writeMgt, h0, State.svCommit, hb, hw, List.isEmpty_iff, hne, Bool.false_eq_true, if_true, if_false])

end

end Sys2Proof.Machine

open Sys2Proof.Machine in
/-- Settles O19: a beat of a burst that runs, the end of a write, and the timeouts, by the transaction found under the tag. -/
theorem dmaResponses : Obligations.DmaResponses := by
  unfold Obligations.DmaResponses
  intro s tag wtag data x w done wrote
  refine ⟨?last, ?more, ?wrote, ?wroteErr, ?readTimeout, ?writeTimeout⟩
  case last => exact fun hf hd _ hl => State.next_congr (State.dmaRead_last hf hd hl)
  case more => exact fun hf hd _ hl => State.next_congr (State.dmaRead_more hf hd hl)
  case wrote => exact fun hf hd => State.next_congr (State.dmaWrote_ok hf hd)
  case wroteErr => exact fun hf hd => State.next_congr (State.dmaWrote_err hf hd)
  case readTimeout => exact fun hf => State.next_congr (State.dmaTimeout_read hf)
  case writeTimeout => exact fun hf => State.next_congr (State.dmaTimeout_write hf)

open Sys2Proof.Machine in
/-- Settles O20: the release and the fall of each reset pin by what stands on the pins. -/
theorem resetPins : Obligations.ResetPins := by
  unfold Obligations.ResetPins
  intro s fall
  refine ⟨?coldRelease, ?warmRelease, ?coldAssert, ?unasked, ?level3, ?level4⟩
  case coldRelease => exact fun hc hw => State.next_congr (State.coldRelease_starts hc hw)
  case warmRelease => exact fun hw hc => State.next_congr (State.warmRelease_starts hw hc)
  case coldAssert => exact fun hc => State.next_congr (if_neg (by rw [hc]; decide))
  case unasked => exact fun hw h0 => State.next_congr (State.warmAssert_unasked hw h0)
  case level3 => exact fun hw h1 => State.next_congr (State.warmAssert_level3 hw h1)
  case level4 => exact fun hw h2 => State.next_congr (State.warmAssert_level4 hw h2)

open Sys2Proof.Machine in
/-- Settles O21: what each word of the stream, its end, its verification, RELOAD and MGT_SV_COMMIT do. That a stream is whole at
IMAGE_LEN taken into its limits is log entry 28. -/
theorem startUpCommands : Obligations.StartUpCommands := by
  unfold Obligations.StartUpCommands
  intro s acc d w c i b floor rejected
  refine ⟨?more, ?whole, ?timeout, ?badShadow, ?fails, ?commits, ?reload, ?svCommit⟩
  case more => exact fun hs hl => State.next_congr (State.mfsWord_more hs hl)
  case whole => exact fun hs h256 hl => State.next_congr (State.mfsWord_whole hs h256 hl)
  case timeout => exact fun hs => State.next_congr (if_pos hs)
  case badShadow => exact fun hp hb => State.next_congr (State.verifyDone_badShadow hp hb)
  case fails => exact fun hp hb hf => State.next_congr (State.verifyDone_fails hp hb hf)
  case commits => exact fun hp hb hf => State.next_congr (State.verifyDone_commits hp hb hf)
  case reload => exact fun hc h0 hp => State.write_mgtReload hc h0 hp
  case svCommit => exact fun hc h0 hb hne => State.write_mgtSvCommit hc h0 hb rfl hne

end

section
/-!
PROOFS. Bits and fields of words and registers: what a field or a bit reads after one was set (R7, R10).
-/
namespace Sys2Proof.Machine

/-! ### Words -/

theorem testBit_fld (w : W32) (hi lo i : Nat) : (fld w hi lo).testBit i = (decide (i < hi + 1 - lo) && w.getLsbD (lo + i)) := by
  rw [fld, Nat.testBit_mod_two_pow, ← Nat.shiftRight_eq_div_pow, Nat.testBit_shiftRight, BitVec.testBit_toNat]

/-- The bits of a word with a field replaced: those of the value within the field, the old ones outside. -/
theorem getLsbD_setFld (w : W32) {hi lo : Nat} (v : Nat) {b : Nat} (hb : b < 32) :
    (setFld w hi lo v).getLsbD b = if lo ≤ b ∧ b ≤ hi then v.testBit (b - lo) else w.getLsbD b := by
  simp only [setFld, BitVec.getLsbD_or, BitVec.getLsbD_and, BitVec.getLsbD_not, BitVec.getLsbD_ofNat, hb, decide_true, Bool.true_and,
    Nat.testBit_mul_two_pow, Nat.testBit_two_pow_sub_one, Nat.testBit_mod_two_pow]
  by_cases hlo : lo ≤ b
  · by_cases hhi : b ≤ hi
    · have hin : b - lo < hi + 1 - lo := by omega
      simp [hlo, hhi, hin]
    · have hout : ¬ b - lo < hi + 1 - lo := by omega
      simp [hhi, hout]
  · simp [hlo]

theorem getLsbD_setBit (w : W32) {i b : Nat} (v : Bool) (hb : b < 32) : (setBit w i v).getLsbD b = if b = i then v else w.getLsbD b := by
  have hpow : (2 ^ i).testBit b = decide (b = i) := by rw [Nat.testBit_two_pow]; simp [eq_comm]
  by_cases h : b = i
  · subst h
    cases v <;> simp only [setBit, BitVec.getLsbD_or, BitVec.getLsbD_and, BitVec.getLsbD_not, BitVec.getLsbD_ofNat, hb, hpow,
      Bool.false_eq_true, if_true, if_false, decide_true, Bool.and_self, Bool.not_true, Bool.and_false, Bool.or_true]
  · cases v <;> simp only [setBit, BitVec.getLsbD_or, BitVec.getLsbD_and, BitVec.getLsbD_not, BitVec.getLsbD_ofNat, hb, hpow, h,
      Bool.false_eq_true, if_true, if_false, decide_true, decide_false, Bool.and_false, Bool.not_false, Bool.and_true, Bool.or_false]

/-- A field that has been set reads the value, as far as it fits. -/
theorem fld_setFld_same (w : W32) {hi lo : Nat} (hhi : hi < 32) (v : Nat) : fld (setFld w hi lo v) hi lo = v % 2 ^ (hi + 1 - lo) := by
  refine Nat.eq_of_testBit_eq fun i => ?_
  rw [testBit_fld, Nat.testBit_mod_two_pow]
  by_cases hi' : i < hi + 1 - lo
  · have hin : lo ≤ lo + i ∧ lo + i ≤ hi := by omega
    simp [hi', getLsbD_setFld w v (show lo + i < 32 by omega), hin]
  · simp [hi']

/-- A field apart from the one that is set stands. -/
theorem fld_setFld_apart (w : W32) {hi lo hi' lo' : Nat} (hhi : hi < 32) (h : hi < lo' ∨ hi' < lo) (v : Nat) :
    fld (setFld w hi' lo' v) hi lo = fld w hi lo := by
  refine Nat.eq_of_testBit_eq fun i => ?_
  rw [testBit_fld, testBit_fld]
  by_cases hk : i < hi + 1 - lo
  · have hout : ¬(lo' ≤ lo + i ∧ lo + i ≤ hi') := by omega
    simp only [getLsbD_setFld w v (show lo + i < 32 by omega), hout, if_false]
  · simp only [hk, decide_false, Bool.false_and]

theorem bitOf_setBit_apart (w : W32) {b i : Nat} (hb : b < 32) (h : b ≠ i) (v : Bool) : bitOf (setBit w i v) b = bitOf w b := by
  simp only [bitOf, getLsbD_setBit w v hb, h, if_false]

/-! ### Registers -/

namespace State

variable {s : State} {r x : RegId} {i j k l : Nat}

theorem regF_setReg (v : W32) (hi lo : Nat) : (s.setReg r v i j).regF r hi lo i j = fld v hi lo := by
  simp only [regF, reg_setReg]

theorem regF_setReg_other (h : r.addr i j ≠ x.addr k l) (v : W32) (hi lo : Nat) : (s.setReg x v k l).regF r hi lo i j = s.regF r hi lo i j := by
  simp only [regF, reg_setReg_other s h]

theorem regF_setF_other (h : r.addr i j ≠ x.addr k l) (hi lo v hi' lo' : Nat) :
    (s.setF x hi' lo' v k l).regF r hi lo i j = s.regF r hi lo i j := regF_setReg_other h _ _ _

theorem regF_setF_same {hi lo : Nat} (hhi : hi < 32) (v : Nat) : (s.setF r hi lo v i j).regF r hi lo i j = v % 2 ^ (hi + 1 - lo) := by
  simp only [setF, regF_setReg, fld_setFld_same _ hhi]

theorem regF_setF_apart {hi lo hi' lo' : Nat} (hhi : hi < 32) (h : hi < lo' ∨ hi' < lo) (v : Nat) :
    (s.setF r hi' lo' v i j).regF r hi lo i j = s.regF r hi lo i j := by
  simp only [setF, regF, reg_setReg, fld_setFld_apart _ hhi h]

theorem regB_setB_apart {b c : Nat} (hb : b < 32) (h : b ≠ c) (v : Bool) : (s.setB r c v i j).regB r b i j = s.regB r b i j := by
  simp only [regB, setB, reg_setReg, bitOf_setBit_apart _ hb h]

end State

end Sys2Proof.Machine

end

section
/-!
PROOFS. Staging an image, its verification, and its apply (R95 to R99, R214).
-/
namespace Sys2Proof.Machine

variable {s t : State} {acc : Access} {d : W32}

/-! ### MGT_STAGE -/

/-- GO with a length in range drops what is staged and awaits the fetch (R95). -/
theorem State.stageGo_fetches (hlo : 1 ≤ s.regF .mgtStageLen 17 0) (hhi : s.regF .mgtStageLen 17 0 ≤ 131072) :
    s.stageGo = (s.dropStage.setReg .mgtStageStatus 0).setF .mgtStageStatus 3 0 1 := by
  have hlen : s.stageDiscard.regF .mgtStageLen 17 0 = s.regF .mgtStageLen 17 0 :=
    State.regF_setReg_other (s := s.dropStage) (r := .mgtStageLen) (i := 0) (j := 0) (by decide) 0 17 0
  have hnot : ¬(s.regF .mgtStageLen 17 0 = 0 ∨ 131072 < s.regF .mgtStageLen 17 0) := by omega
  simp only [State.stageGo, hlen, hnot, if_false]
  rfl

/-! ### The verification of a staged image -/

theorem State.stageRead_sound (h : s.boot.stageBad = []) : s.stageRead = s := by
  simp only [State.stageRead, h, List.isEmpty_nil, if_true]

/-- An image with a word that is lost fails as its words are read (R234, R238). -/
theorem State.stageRead_lost {w : Nat} (h : s.boot.stageBad = [(w, true)]) : s.stageRead = s.stageFail 0x10 := by
  simp [State.stageRead, h]

theorem State.stageFail_status (s : State) (cause : Nat) : (s.stageFail cause).regF .mgtStageStatus 3 0 = 4 := by
  rw [State.stageFail, State.regF_setF_apart (by decide) (by decide), State.regF_setF_same (by decide)]
  rfl

theorem State.stageVerified_lost {w : Nat} (hst : s.regF .mgtStageStatus 3 0 = 2) (hu : s.boot.stageUnits.length = 2)
    (hb : s.boot.stageBad = [(w, true)]) : s.stageVerified = ({ s with boot := { s.boot with stageUnits := [] } } : State).stageFail 0x10 := by
  have hread : ({ s with boot := { s.boot with stageUnits := [] } } : State).stageRead =
    ({ s with boot := { s.boot with stageUnits := [] } } : State).stageFail 0x10 := State.stageRead_lost hb
  simp only [State.stageVerified, hst, hu, hread, State.stageFail_status, ne_eq, not_true_eq_false, or_self, if_false]
  rfl

theorem State.stageVerified_fails {c : Nat} {sec : Option Nat} (hst : s.regF .mgtStageStatus 3 0 = 2) (hu : s.boot.stageUnits.length = 2)
    (hb : s.boot.stageBad = []) (hf : ({ s with boot := { s.boot with stageUnits := [] } } : State).imageFails s.boot.stage true = some (c, sec)) :
    s.stageVerified = ({ s with boot := { s.boot with stageUnits := [] } } : State).stageFail c := by
  have hread : ({ s with boot := { s.boot with stageUnits := [] } } : State).stageRead =
    { s with boot := { s.boot with stageUnits := [] } } := State.stageRead_sound hb
  have hst' : ({ s with boot := { s.boot with stageUnits := [] } } : State).regF .mgtStageStatus 3 0 = 2 := hst
  simp only [State.stageVerified, hst, hu, hread, hst', hf, ne_eq, not_true_eq_false, or_self, if_false]

theorem State.stageVerified_valid (hst : s.regF .mgtStageStatus 3 0 = 2) (hu : s.boot.stageUnits.length = 2)
    (hb : s.boot.stageBad = []) (hf : ({ s with boot := { s.boot with stageUnits := [] } } : State).imageFails s.boot.stage true = none) :
    s.stageVerified = (({ s with boot := { s.boot with stageUnits := [] } } : State).setF .mgtStageStatus 3 0 3).setF .mgtStageStatus 23 16
      (imgCount s.boot.stage) := by
  have hread : ({ s with boot := { s.boot with stageUnits := [] } } : State).stageRead =
    { s with boot := { s.boot with stageUnits := [] } } := State.stageRead_sound hb
  have hst' : ({ s with boot := { s.boot with stageUnits := [] } } : State).regF .mgtStageStatus 3 0 = 2 := hst
  simp only [State.stageVerified, hst, hu, hread, hst', hf, ne_eq, not_true_eq_false, or_self, if_false]

/-! ### MGT_APPLY -/

/-- A carried write of MGT_APPLY with GO. -/
theorem State.write_mgtApply (hc : s.Carries acc (RegId.mgtApply.target 0 0)) (h31 : bitOf d 31 = true) (ht : s.applyGo (fld d 5 0) = t) :
    (Host.Outcome.next (s.wrapUp (s.write acc d .mgtApply)) : Host.Outcome State Fault Refusal) = .next (s.wrapUp (t.respond .okay 0)) :=
  State.write_mgt hc (by decide) ((if_pos h31).trans ht)

/-- While no apply runs and the staged image's words are sound, GO goes by the stage's state and by the section named (R98). -/
theorem State.applyGo_idle (hb : s.regF .mgtApplyStatus 1 0 ≠ 1) (hbad : s.boot.stageBad = []) (index : Nat) :
    s.applyGo index =
      let named := (s.setF .mgtApplyStatus 13 8 index).setF .mgtApplyStatus 23 16 0
      if s.regF .mgtStageStatus 3 0 ≠ 3 then named.applyEnds 2 3
      else ((imageSections s.boot.stage)[index]?).elim (named.applyEnds 3 3) (named.applySection (imageSections s.boot.stage)) := by
  have hread : ((s.setF .mgtApplyStatus 13 8 index).setF .mgtApplyStatus 23 16 0).stageRead =
    (s.setF .mgtApplyStatus 13 8 index).setF .mgtApplyStatus 23 16 0 := State.stageRead_sound hbad
  have hst : ((s.setF .mgtApplyStatus 13 8 index).setF .mgtApplyStatus 23 16 0).regF .mgtStageStatus 3 0 = s.regF .mgtStageStatus 3 0 := by
    rw [State.regF_setF_other (by decide), State.regF_setF_other (by decide)]
  simp only [State.applyGo, hb, hread, hst, if_false]
  split
  · rfl
  · show (match (imageSections s.boot.stage)[index]? with | none => _ | some x => _) = _
    cases (imageSections s.boot.stage)[index]? <;> rfl

/-! ### LK_LOAD -/

@[simp] theorem Lk.dispatch_after (l : Lk) : l.dispatch.after = l.after := by
  unfold Lk.dispatch
  split
  · rfl
  · split <;> rfl

/-- A Lockkeeper that a section waits for exists. -/
theorem State.lk_lt_of_load {n : Nat} {e : Bool} {b : Bytes} (h : (s.lk n).after = .load e b) : n < s.lks.length := by
  rcases Nat.lt_or_ge n s.lks.length with hlt | hge
  · exact hlt
  · simp [State.lk, List.getD_eq_getElem?_getD, List.getElem?_eq_none hge] at h

/-- A Lockkeeper that is LOADING takes its section and restarts; the apply goes on with the next (R99, R214). -/
theorem State.lkLoadCmd_loads {n : Nat} {j : ApplyJob} {e : Bool} {b : Bytes} (hj : s.boot.job = some j) (hk : j.kind ≤ 2)
    (hl : j.left.head? = some n) (ha : (s.lk n).after = .load e b) (hst : (s.lk n).state = .loading) (hcl : (s.lk n).cloneFrom = none)
    (hon : s.domOn (lkDomain n) = true) :
    s.lkLoadCmd n = (((s.updLk n (fun l => l.withSection e b)).updLk n (fun l => l.released.dispatch)).applyPass j false).applyLk := by
  have hload : s.lkLoad n = (s.updLk n (fun l => l.withSection e b)).updLk n (fun l => l.released.dispatch) := by
    simp only [State.lkLoad, ha, hst, hcl, hon, reduceCtorEq, false_and, and_self, if_true, if_false, State.lkRestart]
  have hafter : ((s.lkLoad n).lk n).after = .nothing := by
    rw [hload, State.updLk_updLk, State.lk_updLk _ _ (State.lk_lt_of_load ha), Lk.dispatch_after]
    rfl
  have hcond : ¬(2 < j.kind ∨ j.left.head? ≠ some n) := by simp [hl]; omega
  simp only [State.lkLoadCmd, hj, hcond, hafter, if_true, if_false]
  rw [hload]

end Sys2Proof.Machine

open Sys2Proof.Machine in
/-- Settles O22: GO and DISCARD of MGT_STAGE, the ends of a verification, MGT_APPLY by what is staged, and LK_LOAD. -/
theorem stagingAndApply : Obligations.StagingAndApply := by
  unfold Obligations.StagingAndApply
  intro s acc d lk c sec j e b x stage apply named xs verified
  refine ⟨?go, ?discard, ?lost, ?fails, ?valid, ?busy, ?notValid, ?noSection, ?applies, ?lkLoad⟩
  case go =>
    intro hc h0 h1 hlo hhi
    exact State.write_mgt hc (by decide) (by simp only [State.writeMgt, h0, h1, Bool.false_eq_true, if_true, if_false]
                                             exact State.stageGo_fetches hlo hhi)
  case discard =>
    intro hc h0 h1
    exact State.write_mgt hc (by decide) (by simp only [State.writeMgt, h0, h1, Bool.false_eq_true, if_true, if_false]; rfl)
  case lost => exact fun w hst hu hb => State.next_congr (State.stageVerified_lost hst hu hb)
  case fails => exact fun hst hu hb hf => State.next_congr (State.stageVerified_fails hst hu hb hf)
  case valid => exact fun hst hu hb hf => State.next_congr (State.stageVerified_valid hst hu hb hf)
  case busy => exact fun hc h31 hb => State.write_mgtApply hc h31 (if_pos hb)
  case notValid => exact fun hc h31 hb hst hbad => State.write_mgtApply hc h31 ((State.applyGo_idle hb hbad _).trans (if_pos hst))
  case noSection =>
    intro hc h31 hb hst hbad hlen
    refine State.write_mgtApply hc h31 ((State.applyGo_idle hb hbad _).trans ((if_neg (not_not.mpr hst)).trans ?_))
    rw [List.getElem?_eq_none hlen]
    rfl
  case applies =>
    intro hc h31 hb hst hbad hx
    refine State.write_mgtApply hc h31 ((State.applyGo_idle hb hbad _).trans ((if_neg (not_not.mpr hst)).trans ?_))
    rw [hx]
    rfl
  case lkLoad => exact fun hj hk hl ha hst hcl hon => State.next_congr (State.lkLoadCmd_loads hj hk hl ha hst hcl hon)

end

section
/-!
PROOFS. The register port: carried writes and aliases (R532, R533), writes by field types (R10, R12), latched halves and RNG_DATA (R402,
R538, R553), the access log (R544, R552) and the partition table (R457).
-/
namespace Sys2Proof.Machine

variable {s t : State} {acc : Access} {a : Nat} {d : W32}

/-! ### Carried writes -/

theorem State.writeAt_register {x : RegRef} (ha : aliasAt a = none) (hr : regAt a = some x) : s.writeAt (targetOf a) d = s.writeReg x d := by
  simp only [State.writeAt, targetOf, ha, hr]

theorem State.writeAt_alias {y : Alias} (ha : aliasAt a = some y) :
    s.writeAt (targetOf a) d = (s.aliasTargets y).foldl (fun s n => s.writeReg { id := y.id, i := n } d) s := by
  simp only [State.writeAt, targetOf, ha]

/-- A carried write to an address ends with OKAY. -/
theorem State.portWrite_carried_eq (hp : portAddr a = true) (hc : s.Carries acc (targetOf a)) (ht : s.writeAt (targetOf a) d = t) :
    (Host.Outcome.next (s.wrapUp (s.portWrite acc a d)) : Host.Outcome State Fault Refusal) = .next (s.wrapUp (t.respond .okay 0)) :=
  State.next_congr ((State.portWrite_carried hp hc d).trans (by rw [ht]))

/-! ### Writes by field types -/

theorem getLsbD_written (old d wr w1c : W32) {b : Nat} (hb : b < 32) :
    (written old d wr w1c).getLsbD b =
      if w1c.getLsbD b && d.getLsbD b then false else if wr.getLsbD b then d.getLsbD b else old.getLsbD b := by
  simp only [written, BitVec.getLsbD_and, BitVec.getLsbD_or, BitVec.getLsbD_not, hb, decide_true, Bool.true_and]
  cases w1c.getLsbD b <;> cases d.getLsbD b <;> cases wr.getLsbD b <;> cases old.getLsbD b <;> rfl

/-- After State.store a register holds the word written by its row's masks, or, where it is locked, by those of its W1C bits alone. -/
theorem State.reg_store (s : State) (x : RegRef) (d : W32) :
    (s.store x d).reg x.id x.i x.j =
      written (s.reg x.id x.i x.j) d (if s.locked x.id then 0 else x.id.row.setBits &&& 0xFFFFFFFF) (BitVec.ofNat 32 x.id.row.w1c) := by
  simp only [State.store, State.storeMasked, State.reg_setReg]

theorem RegRow.getLsbD_setBits (w : RegRow) {b : Nat} (hb : b < 32) :
    (w.setBits &&& 0xFFFFFFFF).getLsbD b = (w.wr.testBit b && !w.wo.testBit b) := by
  have hall : (0xFFFFFFFF : W32).getLsbD b = true := by
    have : (0xFFFFFFFF : W32) = BitVec.allOnes 32 := by decide
    rw [this, BitVec.getLsbD_allOnes, decide_eq_true hb]
  simp only [RegRow.setBits, BitVec.getLsbD_and, BitVec.getLsbD_not, BitVec.getLsbD_ofNat, hb, hall, decide_true, Bool.true_and, Bool.and_true]

/-! ### Reads -/

/-- An accepted read of a register. -/
theorem State.readTarget_register {tg : Target} {x : RegRef} (hf : s.pins.fabRun = true) (hj : s.judge acc false tg = .okay)
    (ha : tg.alias_ = none) (hr : tg.reg = some x) : s.readTarget acc tg = s.readOne x := by
  simp only [State.readTarget, hf, State.readNow, hj, ha, hr, if_true]

theorem State.portRead_register {x : RegRef} (hf : s.pins.fabRun = true) (hp : portAddr a = true) (ha : aliasAt a = none)
    (hr : regAt a = some x) (hj : s.judge acc false (targetOf a) = .okay) : s.portRead acc a = s.readOne x := by
  simp only [State.portRead, hp, if_true]
  exact State.readTarget_register hf hj ha hr

/-- A register with a latched half is neither such a half nor one of the RNG's. -/
theorem latchedHalf_plain {r h : RegId} (hl : latchedHalf r = some h) : r ≠ .rngData ∧ r ≠ .rngRaw ∧ isLatched r = false := by
  unfold latchedHalf at hl
  split at hl
  case h_8 => cases hl
  all_goals exact ⟨by decide, by decide, rfl⟩

theorem isLatched_ne_rngData {r : RegId} (h : isLatched r = true) : r ≠ .rngData := by
  rintro rfl
  exact absurd h (by decide)

/-- A read of a low half latches its high half (R538, R553). -/
theorem State.readOne_low {x : RegRef} {h : RegId} (hl : latchedHalf x.id = some h) :
    s.readOne x = { (if readsFree x.id then s.drawn else s) with
      port := { s.port with rsp := .okay, rdata := s.readReg x, earlier := [], latchHi := s.readReg { x with id := h } } } := by
  obtain ⟨hdata, hraw, hlat⟩ := latchedHalf_plain hl
  simp only [State.readOne, hdata, hraw, hlat, hl, Bool.false_eq_true, if_false]
  split <;> rfl

theorem State.readOne_high {x : RegRef} (h : isLatched x.id = true) :
    s.readOne x = { s with port := { s.port with rsp := .okay, rdata := s.port.latchHi, earlier := [] } } := by
  simp only [State.readOne, isLatched_ne_rngData h, h, if_true, if_false]
  rfl

/-- A word of RNG_DATA is given once; the eighth read clears VALID (R402). -/
theorem State.rngDataRead_fresh {n : Nat} (hv : s.regB .rngDataStatus 0 = true) (hn : n ∉ s.rng.read) (hlen : s.rng.read.length < 7) :
    s.rngDataRead n = ({ s.setReg .rngData 0 n with rng := { s.rng with read := n :: s.rng.read } }, s.reg .rngData n) := by
  have hnot : ¬ 8 ≤ s.rng.read.length + 1 := by omega
  simp [State.rngDataRead, hv, hn, hnot]

theorem State.rngDataRead_last {n : Nat} (hv : s.regB .rngDataStatus 0 = true) (hn : n ∉ s.rng.read) (hlen : s.rng.read.length = 7) :
    s.rngDataRead n = (({ s.setReg .rngData 0 n with rng := { s.rng with read := n :: s.rng.read } } : State).setB .rngDataStatus 0 false,
      s.reg .rngData n) := by
  simp [State.rngDataRead, hv, hn, hlen]

theorem State.rngDataRead_underrun {n : Nat} (h : s.regB .rngDataStatus 0 = false ∨ n ∈ s.rng.read) :
    s.rngDataRead n = (s.setB .rngDataStatus 1 true, 0) := by
  rcases h with h | h <;> simp [State.rngDataRead, h]

theorem State.readTarget_rngData {n : Nat} {v : W32} (hf : s.pins.fabRun = true) (hj : s.judge acc false (RegId.rngData.target n 0) = .okay)
    (hr : s.rngDataRead n = (t, v)) : s.readTarget acc (RegId.rngData.target n 0) = t.respond .okay v := by
  rw [State.readTarget_register hf hj rfl rfl]
  simp only [State.readOne, if_true, hr]

/-! ### The access log -/

/-- What the access log keeps of an access that is turned away (R552), with the codes of the two refusals. -/
theorem State.logAccess_code {rsp : Rsp} {code : Nat} (hc : rsp = .refused ∧ code = 1 ∨ rsp = .unmapped ∧ code = 2) (s : State) (write : Bool) :
    s.logAccess acc write a rsp =
      if s.regB .mgtAccLogA 31 then s.setB .mgtAccLogA 30 true
      else (s.setReg .mgtAccLogA (BitVec.ofNat 32 (2 ^ 31 + code * 2 ^ 28 + b2n write * 2 ^ 27 + b2n acc.dbg * 2 ^ 26 + b2n acc.priv * 2 ^ 25 +
        acc.ptn.val))).setReg .mgtAccLogB (BitVec.ofNat 32 a) := by
  rcases hc with ⟨rfl, rfl⟩ | ⟨rfl, rfl⟩ <;> rfl

theorem rsp_ne_okay {rsp : Rsp} {code : Nat} (hc : rsp = .refused ∧ code = 1 ∨ rsp = .unmapped ∧ code = 2) : rsp ≠ .okay := by
  rcases hc with ⟨rfl, -⟩ | ⟨rfl, -⟩ <;> decide

/-- Where findReg finds a register, that one places itself at the address. -/
theorem findReg_indices {rs : List RegId} {x : RegRef} (h : findReg a rs = some x) : x.id.indices a = some (x.i, x.j) := by
  induction rs with
  | nil => cases h
  | cons r rs ih =>
    unfold findReg at h
    split at h
    next i j hi => cases h; exact hi
    next => exact ih h

/-- MGT_RCV_CTRL stands at 0x140C and nowhere else. -/
theorem regAt_mgtRcvCtrl {x : RegRef} (h : regAt a = some x) (hx : x.id = .mgtRcvCtrl) : a = 0x140C := by
  have hi := findReg_indices h
  rw [hx] at hi
  simp only [RegId.indices, RegId.row, if_true] at hi
  split at hi
  · cases hi
  · rw [Option.ite_none_right_eq_some] at hi
    obtain ⟨⟨h0, -⟩, -⟩ := hi
    omega

/-- A write that is no recovery request outside READY sets no CTRL_ERR beside its refusal. -/
theorem State.refusedGo_other (h : a ≠ 0x140C ∨ s.phase = phReady ∨ bitOf d 31 = false) : s.refusedGo acc (targetOf a) d = s := by
  refine if_neg ?_
  rintro ⟨hid, hgo, hph, -, -⟩
  rcases h with ha | hr | hb
  · obtain ⟨x, hx, hxid⟩ := Option.map_eq_some_iff.mp hid
    exact ha (regAt_mgtRcvCtrl hx hxid)
  · exact hph hr
  · exact absurd hgo (by simp [hb])

theorem targetOf_mgtRcvCtrl : targetOf 0x140C = RegId.mgtRcvCtrl.target 0 0 := by decide

/-- A recovery request of P0 outside READY sets CTRL_ERR (R76, R479; log entry 125). -/
theorem State.refusedGo_request (hph : s.phase ≠ phReady) (hgo : bitOf d 31 = true) (hp : acc.ptn.val = 0) (hpriv : acc.priv = true)
    (hdbg : acc.dbg = false) : s.refusedGo acc (targetOf 0x140C) d = s.setB .mgtRcvCtrl 30 true := by
  obtain ⟨w, hw, hm⟩ := windowOf_managed (a := 0x140C) (.inl (by decide))
  have huse : s.mayUse acc true (targetOf 0x140C) = true := (State.mayUse_managed hw hm).mpr ⟨hp, hpriv⟩
  refine if_pos ⟨?_, hgo, hph, huse, by simp [hdbg]⟩
  rw [targetOf_mgtRcvCtrl]
  rfl

/-! ### The partition table -/

theorem targetOf_mgtPtn : ∀ r ∈ [RegId.mgtPtnA, .mgtPtnB, .mgtPtnC], ∀ p : Fin 64,
    portAddr (r.addr p 0) = true ∧ targetOf (r.addr p 0) = r.target p 0 ∧ r.addr p 0 < 0x010000 := by
  decide +kernel

/-- While no apply of a table runs, its word is written or refused by the entry's checks (R102, R457). -/
theorem State.tableIdle (hjob : ∀ j, s.boot.job = some j → j.kind ≠ 4) : ((s.boot.job.map (fun j => j.kind == 4)).getD false) = false := by
  cases hj : s.boot.job with
  | none => rfl
  | some j => simp [hjob j hj]

theorem State.ptnWrite_applied {p word : Nat} (hjob : ∀ j, s.boot.job = some j → j.kind ≠ 4) (he : s.entryCode (s.entryWith p word d) = none) :
    s.ptnWrite p word d = s.applyEntry (s.entryWith p word d) := by
  simp only [State.ptnWrite, State.tableIdle hjob, Bool.false_eq_true, if_false, he]

theorem State.ptnWrite_refused {p word code : Nat} (hjob : ∀ j, s.boot.job = some j → j.kind ≠ 4)
    (he : s.entryCode (s.entryWith p word d) = some code) : s.ptnWrite p word d = s.ptnErr p code := by
  simp only [State.ptnWrite, State.tableIdle hjob, Bool.false_eq_true, if_false, he]

/-- A carried write to a word of the table that is not locked. -/
theorem State.portWrite_mgtPtn {p : Fin 64} {r : RegId} {word : Nat}
    (hr : r = .mgtPtnA ∧ word = 0 ∨ r = .mgtPtnB ∧ word = 1 ∨ r = .mgtPtnC ∧ word = 2)
    (hc : s.Carries acc (targetOf (r.addr p 0))) (hl : s.locked r = false) (ht : s.ptnWrite p word d = t) :
    (Host.Outcome.next (s.wrapUp (s.portWrite acc (r.addr p 0) d)) : Host.Outcome State Fault Refusal) = .next (s.wrapUp (t.respond .okay 0)) := by
  obtain ⟨hport, htarget, hlow⟩ := targetOf_mgtPtn r (by rcases hr with ⟨rfl, -⟩ | ⟨rfl, -⟩ | ⟨rfl, -⟩ <;> decide) p
  rw [State.portWrite_eq_write hport htarget]
  rw [htarget] at hc
  refine State.write_mgt hc hlow (Eq.trans ?_ ht)
  rcases hr with ⟨rfl, rfl⟩ | ⟨rfl, rfl⟩ | ⟨rfl, rfl⟩ <;> exact if_neg (by simp [hl])

end Sys2Proof.Machine

open Sys2Proof.Machine in
/-- Settles O23: a carried write does what its register says; a write to a broadcast or group address writes every
unit of its class, or those selected. -/
theorem carriedWrites : Obligations.CarriedWrites := by
  unfold Obligations.CarriedWrites
  intro s acc a d x y hp hc
  refine ⟨?register, ?broadcast, ?group⟩
  case register => exact fun ha hr => State.portWrite_carried_eq hp hc (State.writeAt_register ha hr)
  case broadcast =>
    intro ha hg
    exact State.portWrite_carried_eq hp hc ((State.writeAt_alias ha).trans (by simp only [State.aliasTargets, hg, Bool.false_eq_true, if_false]))
  case group =>
    intro ha hg
    exact State.portWrite_carried_eq hp hc ((State.writeAt_alias ha).trans (by simp only [State.aliasTargets, hg, if_true]))

open Sys2Proof.Machine in
/-- Settles O24: bit by bit, by the masks of the register's row and its lock. -/
theorem writesByFieldType : Obligations.WritesByFieldType := by
  unfold Obligations.WritesByFieldType
  intro s x d b hb
  rw [s.reg_store, getLsbD_written _ _ _ _ hb, BitVec.getLsbD_ofNat, decide_eq_true hb, Bool.true_and]
  cases hl : s.locked x.id with
  | true =>
    have h0 : (0 : BitVec 32).getLsbD b = false := BitVec.getLsbD_zero
    simp only [if_true, h0, Bool.false_eq_true, if_false, Bool.not_true, Bool.and_false]
  | false => simp only [Bool.false_eq_true, if_false, RegRow.getLsbD_setBits _ hb, Bool.not_false, Bool.and_true]

open Sys2Proof.Machine in
/-- Settles O25: the halves that a read latches, and RNG_DATA with VALID and UNDERRUN. -/
theorem portReads : Obligations.PortReads := by
  unfold Obligations.PortReads
  intro s acc a x h n hf
  refine ⟨?low, ?high, ?fresh, ?last, ?underrun⟩
  case low =>
    exact fun hp ha hr hj hl => State.next_congr ((State.portRead_register hf hp ha hr hj).trans (State.readOne_low hl))
  case high =>
    exact fun hp ha hr hj hl => State.next_congr ((State.portRead_register hf hp ha hr hj).trans (State.readOne_high hl))
  case fresh => exact fun hj hv hn hlen => State.next_congr (State.readTarget_rngData hf hj (State.rngDataRead_fresh hv hn hlen))
  case last => exact fun hj hv hn hlen => State.next_congr (State.readTarget_rngData hf hj (State.rngDataRead_last hv hn hlen))
  case underrun => exact fun hj hu => State.next_congr (State.readTarget_rngData hf hj (State.rngDataRead_underrun hu))

open Sys2Proof.Machine in
/-- Settles O26: an access that is turned away is logged with its code; CTRL_ERR of a refused recovery request is log entry 125. -/
theorem refusedAccessesAreLogged : Obligations.RefusedAccessesAreLogged := by
  unfold Obligations.RefusedAccessesAreLogged
  intro s acc a d code rsp hf hp hcode logged
  refine ⟨?read, ?write, ?request⟩
  case read =>
    rintro rfl
    refine State.next_congr ?_
    simp only [State.portRead, hp, if_true, State.readTarget_refused hf (rsp_ne_okay hcode), State.logAccess_code hcode]
    rfl
  case write =>
    rintro rfl hother
    refine State.next_congr ?_
    simp only [State.portWrite, hp, if_true, State.writeTarget_refused hf (rsp_ne_okay hcode), State.refusedGo_other hother,
      State.logAccess_code hcode]
    rfl
  case request =>
    rintro hj hph hgo hptn hpriv hdbg rfl rfl
    refine State.next_congr ?_
    simp only [State.portWrite, hp, if_true, State.writeTarget_refused hf (by rw [hj]; decide), State.refusedGo_request hph hgo hptn hpriv hdbg,
      hj, State.logAccess_code (.inl ⟨rfl, rfl⟩)]
    rfl

open Sys2Proof.Machine in
/-- Settles O28: the entry is applied, or the first check that it fails is reported (the order of the checks: log entry 46). -/
theorem partitionTableWrites : Obligations.PartitionTableWrites := by
  unfold Obligations.PartitionTableWrites
  intro s acc d p r word code hr hc hl hjob e
  refine ⟨?applied, ?refused⟩
  case applied => exact fun he => State.portWrite_mgtPtn hr hc hl (State.ptnWrite_applied hjob he)
  case refused =>
    intro he
    refine State.portWrite_mgtPtn hr hc hl ((State.ptnWrite_refused hjob he).trans ?_)
    simp only [State.ptnErr, Nat.mod_eq_of_lt p.isLt]

end

section
/-!
PROOFS. Grants and arrivals (R147, R148, R164, R185), members, cells and the start of engines (R156, R222, R225).
-/
namespace Sys2Proof.Machine

variable {s t u : State}

/-! ### Grants, arrivals and admissions -/

/-- A grant whose domains are all on takes the ring that the scheduler offers (R164). -/
theorem State.grant_offered {n p r ch : Nat} (hp : s.phase = phReady) (ha : s.accepts n = true)
    (ho : (({ s.drawn with sched := { s.sched with eligible := s.sched.eligible.filter s.ptnEligible } } : State).guardFloors
      (s.pick % 1000)).offer n (s.pick % 1000) = some (u, p, r, ch)) :
    s.grant n = (u.updLk n (fun l => { l with fetch := some { ptn := p, ring := r, charge := ch } })).readDescriptor n p r := by
  simp only [State.grant, hp, ha, and_self, if_true, ho]

theorem exec_lockkeeperGrant_awake {lk : Fin 8} (hh : s.held = false) (hp : s.phase = phReady) (ha : s.accepts lk = true)
    (hd : ∀ d ∈ s.grantDomains lk, s.domOn d = true) (hg : s.grant lk = t) :
    exec (.lockkeeperGrant lk) s = .next (s.wrapUp t) := by
  have hno : (s.grantDomains lk.val).filter (fun d => !s.domOn d) = [] := List.filter_eq_nil_iff.mpr (by simpa using hd)
  refine State.next_congr ?_
  simp only [hno, hh, hp, ha, ne_eq, not_true_eq_false, decide_false, Bool.or_self, Bool.not_true, Bool.false_eq_true, List.isEmpty_nil,
    if_true, if_false, hg]

/-- A single descriptor that has arrived takes a frame, and a context starts at the frame vector (R185). -/
theorem State.arrive_single {n i f : Nat} {fe : Fetch} {m : Nat × Bytes × Bool} {x : Ctx} (hf : (s.lk n).fetch = some fe)
    (hc : fe.complete = true) (hs : (s.lk n).serves = true) (hg : fe.got = [m]) (hch : (Desc.ofBytes m.2.1).chain = false)
    (hi : (enumFrom 0 (s.lk n).ctxs).find? (fun e => e.2.state == .idle) = some (i, x)) (hfr : (s.lk n).freeRun 1 = some f)
    (hok : towFault ((s.placeFrame n i f fe none 0 m).reqsOf [s.nextReq]) = none) :
    s.arrive n = ((s.placeFrame n i f fe none 0 m).updLk n (fun l => { l with fetch := none })).updLk n (fun l =>
      (l.updCtx i (fun _ => startCtx 0x0020 (BitVec.ofNat 16 (f * 0x40)) 1 .ready)).dispatch) := by
  have hok' : towFault (((s.placeFrame n i f fe none 0 m).updLk n (fun l => { l with fetch := none })).reqsOf (numsFrom s.nextReq 1)) = none := hok
  have hsingle : (decide (1 < 1) || [m].any (fun m => (Desc.ofBytes m.2.1).chain)) = false := by simp [hch]
  simp only [State.arrive, hf, hc, hs, hg, hi, hfr, hsingle, List.length_singleton, Bool.true_or, Bool.not_true, Bool.false_eq_true, or_self,
    if_false, enumFrom, List.foldl_cons, List.foldl_nil, hok']
  rfl

theorem State.retryWait_admits {n c f : Nat} (hw : ((s.lk n).ctx c).state = .waitAdmit f)
    (ha : (s.findReq ((s.lk n).frame f).req).bind s.admitWith = some u) :
    s.retryWait n c = (u.updLk n Lk.releaseFrames).updLk n (fun l => (l.updCtx c (fun x => { x with state := .ready })).dispatch) := by
  simp only [State.retryWait, hw, ha]

/-! ### The open-tow timeout (R147) -/

/-- A Lockkeeper after the timeout of ring r of partition p: its fetch of that ring does not wait for the tail any more. -/
def Lk.tailOver (p r : Nat) (l : Lk) : Lk :=
  match l.fetch with
  | some f => if f.ptn = p ∧ f.ring = r ∧ f.waitsTail = true then { l with fetch := some { f with waitsTail := false, ended := true } } else l
  | none => l

theorem Lk.tailOver_idem (p r : Nat) (l : Lk) : (l.tailOver p r).tailOver p r = l.tailOver p r := by
  unfold Lk.tailOver
  cases hf : l.fetch with
  | none => simp only [hf]
  | some f =>
    by_cases h : f.ptn = p ∧ f.ring = r ∧ f.waitsTail = true
    · simp [h]
    · simp only [h, if_false, hf]

theorem modAt_id {α : Type} (n : Nat) (xs : List α) : modAt (fun x => x) n xs = xs := by
  induction xs generalizing n with
  | nil => simp
  | cons x xs ih => cases n with
    | zero => rfl
    | succ n => exact congrArg (x :: ·) (ih n)

/-- A change that leaves an empty Lockkeeper as it is reads as itself at its place, also past the last one. -/
theorem State.lk_updLk_if {f : Lk → Lk} (hf : f {} = {}) (s : State) (n k : Nat) :
    (s.updLk n f).lk k = if k = n then f (s.lk k) else s.lk k := by
  by_cases hk : k = n
  · subst hk
    rw [if_pos rfl]
    rcases Nat.lt_or_ge k s.lks.length with hlt | hge
    · exact s.lk_updLk f hlt
    · have hempty (l : List Lk) (hl : l.length ≤ k) : l.getD k {} = {} := by
        rw [List.getD_eq_getElem?_getD, List.getElem?_eq_none hl, Option.getD_none]
      have h1 : s.lk k = {} := hempty _ hge
      have h2 : (s.updLk k f).lk k = {} := hempty _ (by rw [State.updLk, length_modAt]; exact hge)
      rw [h1, h2, hf]
  · rw [if_neg hk, s.lk_updLk_other f hk]

/-- The timeout passes over the Lockkeepers named. -/
theorem State.tailOver_fold (p r : Nat) (ns : List Nat) (s : State) :
    let u := ns.foldl (fun s n => s.updLk n (Lk.tailOver p r)) s
    { u with lks := s.lks } = s ∧ u.lks.length = s.lks.length ∧ ∀ k, u.lk k = if k ∈ ns then (s.lk k).tailOver p r else s.lk k := by
  induction ns generalizing s with
  | nil => exact ⟨rfl, rfl, fun k => by simp⟩
  | cons n ns ih =>
    obtain ⟨hrest, hlen, hlk⟩ := ih (s.updLk n (Lk.tailOver p r))
    refine ⟨?_, hlen.trans (length_modAt ..), fun k => ?_⟩
    · exact congrArg (fun v : State => { v with lks := s.lks }) hrest
    · rw [List.foldl_cons, hlk, State.lk_updLk_if rfl]
      by_cases hk : k = n <;> by_cases hm : k ∈ ns <;> simp [hk, hm, Lk.tailOver_idem]

theorem State.updLk_congr {n : Nat} {f g : Lk → Lk} (h : f (s.lk n) = g (s.lk n)) : s.updLk n f = s.updLk n g :=
  congrArg (fun ls => { s with lks := ls }) (modAt_congr h)

theorem State.updLk_self {n : Nat} {f : Lk → Lk} (h : f (s.lk n) = s.lk n) : s.updLk n f = s := by
  rw [State.updLk_congr (g := fun l => l) h, State.updLk, modAt_id]

theorem State.openTowTimeout_eq (s : State) (p r : Nat) :
    s.openTowTimeout p r = (numsFrom 0 8).foldl (fun s n => s.updLk n (Lk.tailOver p r)) s := by
  unfold State.openTowTimeout
  congr 1
  funext s n
  split
  next f hf =>
    split
    next h => exact State.updLk_congr (by simp only [Lk.tailOver, hf, h, and_self, if_true])
    next h => exact (State.updLk_self (by simp only [Lk.tailOver, hf, h, if_false])).symm
  next hf => exact (State.updLk_self (by simp only [Lk.tailOver, hf])).symm

theorem mem_numsFrom {lo n k : Nat} : k ∈ numsFrom lo n ↔ lo ≤ k ∧ k < lo + n := by
  induction n generalizing lo with
  | zero => simp [numsFrom]
  | succ n ih => rw [numsFrom, List.mem_cons, ih]; omega

/-! ### Members, cells and engines -/

theorem State.towMemberIssue_ready {rid : Nat} {r : Req} (hf : s.findReq rid = some r) (hq : r.phase = .queued) (hr : r.ready = false)
    (hd : s.depsDone r = true) (ho : s.fenceOpen r = true) :
    exec (.towMemberIssue rid) s = .next (s.wrapUp (s.updReq rid (fun r => { r with ready := true }))) := by
  refine State.next_congr ?_
  simp only [hf, hq, hr, hd, ho, Bool.not_false, and_self, if_true]

/-- The lane at the front receives both its allocations together (R222). -/
theorem State.grantFront_grants {r : Req} {ci co next : Nat} {banks free : List Nat} (hw : s.firstWaiting = some r)
    (hi : ci = min r.bas.limitIn r.desc.cellsIn) (ho : co = min r.bas.limitOut r.desc.cellsOut) (hg : s.canGrant r.ptn (ci + co) = true)
    (ht : s.takeCells (ci + co) s.basin.free s.basin.next = some (banks, free, next)) :
    s.grantFront = ((({ s with basin := { s.basin with free := free, next := next } } : State).updReq r.id (fun r => { r with bas := { r.bas with
      granted := true, inBanks := banks.take ci, outBanks := banks.drop ci, credited := ci, creditedOut := co } })).pumpRead r.id) := by
  subst hi ho
  simp only [State.grantFront, hw, hg, ht, if_true]

/-- A request that finds its unit free has not waited for another's operation there (R472). -/
theorem State.noteLate_free {r : Req} {n t : Nat} (h : r.unit.reservable = true → s.unitTaken r.unit n = false) : s.noteLate r n t = s := by
  refine if_neg ?_
  rintro ⟨-, hres, -, hother⟩
  have hfree := h hres
  simp only [State.unitTaken, Bool.or_eq_false_iff, List.any_eq_false] at hfree
  obtain ⟨hint, hserved⟩ := hfree
  simp only [Bool.or_eq_true, Bool.and_eq_true, List.any_eq_true] at hother
  rcases hother with ⟨hi, -⟩ | ⟨x, hx, -, hs⟩
  · rw [hint] at hi
    cases hi
  · exact hserved x hx hs

theorem State.unitFree_of_mayStart {r : Req} {n t : Nat} (h : s.mayStart r n t = true) : s.unitFree r n = true := by
  simp only [State.mayStart, Bool.and_eq_true, and_assoc] at h
  obtain ⟨hfree, -⟩ := h
  exact hfree

theorem State.unitTaken_of_free {r : Req} {n : Nat} (h : s.unitFree r n = true) (hr : r.unit.reservable = true) :
    s.unitTaken r.unit n = false := by
  unfold State.unitFree at h
  cases hu : r.unit <;> simp only [hu, Unit.reservable, Bool.false_eq_true] at hr h ⊢ <;> simpa using h

/-- A request whose unit, weir, domains and randomness allow it begins (R225). -/
theorem State.engineStart_begins {rid n : Nat} {r : Req} (hf : s.findReq rid = some r) (hq : r.phase = .queued) (hr : r.ready = true)
    (hh : s.held = false) (hno : s.startFault r = none) (hin : s.inService r.unit n = true) (hw : r.want = 0xFF ∨ r.want = n)
    (hweir : r.weirReached = true) (hsize : r.sizeKnown = true) (hkeep : s.waitsKeep r = false) (hlink : s.badLink r false = none)
    (hbne : ¬(r.unit = .bne ∧ s.drawn.unitTaken .bne n = true)) (hmay : s.drawn.mayStart r n (s.pick % 1000) = true)
    (hdom : ∀ d ∈ s.drawn.startDomains r n (s.pick % 1000), s.drawn.domOn d = true)
    (hrng : s.drawn.needsRandom r = true → s.rngState = rngReady) :
    s.engineStart rid n = s.drawn.begin r n (s.pick % 1000) := by
  have hwant : ¬(r.want ≠ 0xFF ∧ r.want ≠ n) := by omega
  have hlate : s.drawn.noteLate r n (s.pick % 1000) = s.drawn :=
    State.noteLate_free (State.unitTaken_of_free (State.unitFree_of_mayStart hmay))
  have hall : (s.drawn.startDomains r n (s.pick % 1000)).all s.drawn.domOn = true := List.all_eq_true.mpr hdom
  have hstate : s.drawn.rngState = s.rngState := rfl
  have hnot (k : Nat) (hk : k ≠ rngReady) : ¬(s.drawn.needsRandom r = true ∧ s.rngState = k) :=
    fun ⟨hneed, hk'⟩ => hk (hk'.symm.trans (hrng hneed))
  have hready : ¬(s.drawn.needsRandom r = true ∧ s.rngState ≠ rngReady) := fun ⟨hneed, hne⟩ => hne (hrng hneed)
  simp only [State.engineStart, hf, hq, hr, hh, hno, hin, hwant, hweir, hsize, hkeep, State.throughLinks, hlink, hlate, hbne, hmay, hall, hstate,
    hnot rngHalted (by decide), hready, ne_eq, not_true_eq_false, Bool.not_true, Bool.false_eq_true, false_and, or_self, if_false]

theorem State.engineStart_fails {rid n : Nat} {r : Req} {f : Fail} (hf : s.findReq rid = some r) (hq : r.phase = .queued) (hr : r.ready = true)
    (hh : s.held = false) (hno : s.startFault r = some f) :
    s.engineStart rid n = (s.updReq rid (fun r => { r with phase := .running, inst := if r.want = 0xFF then 0 else r.want })).failOp rid f := by
  simp only [State.engineStart, hf, hq, hr, hh, hno, ne_eq, not_true_eq_false, Bool.not_true, Bool.false_eq_true, or_self, if_false]

end Sys2Proof.Machine

open Sys2Proof.Machine in
/-- Settles O29: a grant, a single descriptor's arrival and an admission by their conditions; the timeout as one change of each fetch. -/
theorem grantsAndArrivals : Obligations.GrantsAndArrivals := by
  unfold Obligations.GrantsAndArrivals
  refine ⟨fun s u lk c p n ch f fe m i x => ⟨?grant, ?arrives, ?admits⟩, fun s p n => ?timeout⟩
  case grant => exact fun hh hp ha hd ho => exec_lockkeeperGrant_awake hh hp ha hd (State.grant_offered hp ha ho)
  case arrives =>
    intro hh hf hc hs hg hch hi hfr hok
    exact State.next_congr ((if_neg (by simp [hh])).trans (State.arrive_single hf hc hs hg hch hi hfr hok))
  case admits =>
    intro hh hw ha
    exact State.next_congr ((if_neg (by simp [hh])).trans (State.retryWait_admits hw ha))
  case timeout =>
    obtain ⟨hrest, hlen, hlk⟩ := State.tailOver_fold p.val n.val (numsFrom 0 8) s
    rw [← State.openTowTimeout_eq] at hrest hlen hlk
    refine ⟨s.openTowTimeout p.val n.val, rfl, hrest, hlen, fun k => ?_⟩
    rw [hlk, Lk.tailOver]
    cases hf : (s.lk k).fetch with
    | none => simp only [ite_self]
    | some f => by_cases hk : k < 8 <;> simp [mem_numsFrom, hk]

open Sys2Proof.Machine in
/-- Settles O30: a member, a lane's cells and an engine's start by their conditions. -/
theorem dispatchToUnits : Obligations.DispatchToUnits := by
  unfold Obligations.DispatchToUnits
  intro s rid inst ci co r banks free next f
  refine ⟨?ready, ?cells, ?begins, ?fails⟩
  case ready => exact fun hf hq hr hd ho => State.towMemberIssue_ready hf hq hr hd ho
  case cells => exact fun hw hi ho hg ht => State.next_congr (State.grantFront_grants hw hi ho hg ht)
  case begins =>
    exact fun hf hq hr hh hno hin hw hweir hsize hkeep hlink hbne hmay hdom hrng =>
      State.next_congr (State.engineStart_begins hf hq hr hh hno hin hw hweir hsize hkeep hlink hbne hmay hdom hrng)
  case fails => exact fun hf hq hr hh hno => State.next_congr (State.engineStart_fails hf hq hr hh hno)

end

section
/-!
PROOFS. Frame boundaries and the scheduler's settings (R166, R177, R472), suspension of cipher requests (R172, R270, R271), pauses of
signatures (R327), declared times (R324) and the RNG wait limit.
-/
namespace Sys2Proof.Machine

variable {s t : State} {acc : Access} {d : W32} {rid : Nat} {r : Req}

/-! ### Frames and settings -/

/-- A boundary at which no captured set waits (R166). -/
theorem State.frameBoundary_plain (hp : s.phase = phReady) (hc : s.countViolations.sched.captured = none) :
    s.frameBoundary =
      let counted : State := { s.countViolations with
        sched := { s.countViolations.sched with fetched := [], urgentUsed := [], urgentEnded := [], urgentSpent := false, rsvFlag := [] } }
      let t := (counted.setF .qosStatus 31 16 (counted.regF .qosStatus 31 16 + 1)).flagShort
      { t with sched := { t.sched with capacityNow := t.floorCapacity t.sched.running, eligible := (numsFrom 0 64).filter t.ptnEligible } } := by
  simp only [State.frameBoundary, hp, State.setF, State.setReg_sched, hc, ne_eq, not_true_eq_false, if_false]

theorem State.qosCapture_passes {q : QosSet} (h : s.qosFails q = 0) :
    s.qosCapture q =
      let t := (s.setF .qosStatus 11 8 0).setB .qosStatus 0 false
      ({ t with sched := { s.sched with captured := some { q with capacity := t.floorCapacity q } } } : State).setB .qosStatus 1 true := by
  simp only [State.qosCapture, h, if_true]
  rfl

theorem State.qosCapture_fails {q : QosSet} (h : s.qosFails q ≠ 0) :
    s.qosCapture q = (s.setF .qosStatus 11 8 (s.qosFails q)).setB .qosStatus 0 true := by
  have hb : (s.qosFails q != 0) = true := by simpa using h
  simp only [State.qosCapture, h, hb, if_false]

/-- A carried write of QOS_CTRL commits, discards or is refused by its two bits (R177). -/
theorem State.write_qosCtrl (hc : s.Carries acc (RegId.qosCtrl.target 0 0)) (ht : s.qosCtrl (bitOf d 0) (bitOf d 1) = t) :
    (Host.Outcome.next (s.wrapUp (s.write acc d .qosCtrl)) : Host.Outcome State Fault Refusal) = .next (s.wrapUp (t.respond .okay 0)) :=
  State.write_path hc (by decide) (by decide) ht

/-! ### Suspension and resumption -/

theorem State.cipherSuspend_suspends {i : Nat} {c c' : Req} (hu : s.drawn.urgentStuck (s.pick % 1000) = some c')
    (hc : s.drawn.suspendChoice c' (s.pick % 1000) = some c) (hf : s.drawn.findReq rid = some r) (hi : r.berth = some i)
    (hleft : c.bytesLeft ≤ r.bytesLeft) (hs : s.drawn.suspendable r = true) (hcore : s.drawn.coreUsable c' r.inst (s.pick % 1000) = true) :
    s.cipherSuspend rid =
      let t := s.drawn.setBerth i { s.drawn.berth i with state := .suspended, susp := s.drawn.suspWords r (s.drawn.berth i) }
      (t.updReq rid (fun r => { r with phase := .suspended })).setF .symSusp 15 0 (t.regF .symSusp 15 0 r.inst + 1) r.inst := by
  have hchoice : (s.drawn.urgentStuck (s.pick % 1000)).bind (fun u => s.drawn.suspendChoice u (s.pick % 1000)) = some c := by
    rw [hu, Option.bind_some, hc]
  simp only [State.cipherSuspend]
  rw [hchoice, hf]
  simp only [hi, hu, Option.any_some, hleft, hs, hcore, and_self, if_true]

theorem State.cipherResume_resumes {i core : Nat} {cores : List Nat} (hf : s.findReq rid = some r) (hp : r.phase = .suspended)
    (hi : r.berth = some i) (hcs : s.drawn.resumeCores r (s.pick % 1000) = cores)
    (hcore : cores[s.drawn.pick % max 1 cores.length]? = some core)
    (hdom : ∀ d ∈ s.drawn.drawn.startDomains r core (s.pick % 1000), s.drawn.drawn.domOn d = true) :
    s.cipherResume rid = (s.drawn.drawn.restoreBerth i r.desc.init).updReq rid (fun r => { r with phase := .running, inst := core }) := by
  have hall : (s.drawn.drawn.startDomains r core (s.pick % 1000)).all s.drawn.drawn.domOn = true := List.all_eq_true.mpr hdom
  simp only [State.cipherResume, hf, hp, hi, hcs, hcore, hall, ne_eq, not_true_eq_false, Bool.not_true, Bool.false_eq_true, if_false]

/-! ### Signatures, declared times and the RNG wait limit -/

theorem State.pauseSign_pauses (hf : s.findReq rid = some r) (hu : r.unit = .ply) (hp : r.phase = .running) (hiso : s.isolated r.ptn = true)
    (hop : r.desc.op = some .mldsaSign ∨ r.desc.op = some .mldsaSignMu) (hne : s.unitIntervals r.ptn 3 r.inst ≠ [])
    (hlen : ∀ e ∈ s.unitIntervals r.ptn 3 r.inst, e.2 < 1000) :
    s.pauseSign rid = if s.overruns r then s.drawn.updReq rid (fun r => { r with phase := .paused }) else s.drawn := by
  have hall : (s.unitIntervals r.ptn 3 r.inst).all (fun e => e.2 < 1000) = true := by simpa using hlen
  have hsign : r.desc.opIs .mldsaSign = true ∨ r.desc.opIs .mldsaSignMu = true := by simpa [Desc.opIs] using hop
  have hsome : (!(s.unitIntervals r.ptn 3 r.inst).isEmpty) = true := by simpa using hne
  simp only [State.pauseSign, hf, hu, hp, hiso, hsign, hsome, hall, and_self, if_true]

theorem State.resumeSign_resumes (hf : s.findReq rid = some r) (hp : r.phase = .paused) (hne : s.unitIntervals r.ptn 3 r.inst ≠ []) :
    s.resumeSign rid = s.updReq rid (fun r => { r with phase := .running }) := by
  have hsome : (!(s.unitIntervals r.ptn 3 r.inst).isEmpty) = true := by simpa using hne
  simp only [State.resumeSign, hf, hp, hsome, and_self, if_true]

theorem State.timeOver_fails (hf : s.findReq rid = some r) (hu : r.unit = .ply) (hp : r.phase = .running)
    (hrun : (s.ply r.inst).run.map (·.req) = some rid) :
    s.timeOver rid =
      (((s.setB .plyErr 2 true r.inst).event srcPlyEngine (s.unitDomain 3 r.inst) r.inst).plyDone r).failOp rid ⟨.engineFault, none⟩ := by
  simp only [State.timeOver, hf, hu, hp, hrun, and_self, if_true]

theorem State.rngWaitOver_ends (hf : s.findReq rid = some r) (hq : r.phase = .queued) (hh : s.held = false) (hn : s.needsRandom r = true)
    (hr : s.rngState ≠ rngReady) :
    s.rngWaitOver rid = s.endReq rid (if s.rngState = rngHalted then .entropyHalted else .entropyNotReady) r.unit := by
  simp only [State.rngWaitOver, hf, hq, hh, hn, hr, ne_eq, not_false_eq_true, and_self, true_or, Bool.false_eq_true, if_true, if_false]

end Sys2Proof.Machine

open Sys2Proof.Machine in
/-- Settles O31: a boundary without a captured set, and the writes of QOS_CTRL and QOS_VIOL_CTRL by their bits. -/
theorem framesAndSettings : Obligations.FramesAndSettings := by
  unfold Obligations.FramesAndSettings
  intro s acc d p q start counted framed
  refine ⟨?boundary, ?commit, ?commitFails, ?discard, ?both, ?clear⟩
  case boundary => exact fun hp hc => State.next_congr (State.frameBoundary_plain hp hc)
  case commit => exact fun hc h0 h1 hq => State.write_qosCtrl hc (by rw [h0, h1]; exact State.qosCapture_passes hq)
  case commitFails => exact fun hc h0 h1 hq => State.write_qosCtrl hc (by rw [h0, h1]; exact State.qosCapture_fails hq)
  case discard => exact fun hc h0 h1 => State.write_qosCtrl hc (by rw [h0, h1]; rfl)
  case both =>
    intro hc h0 h1
    have hboth : s.qosCtrl (bitOf d 0) (bitOf d 1) = s.setB .qosStatus 2 true := by rw [h0, h1]; rfl
    exact ⟨State.write_qosCtrl hc hboth, State.write_qosCtrl hc hboth⟩
  case clear =>
    rintro hc h31 h30 rfl
    refine State.write_path hc (by decide) (by decide) ?_
    simp only [State.writePath, h31, h30, State.violClear, Bool.false_eq_true, if_true, if_false]

open Sys2Proof.Machine in
/-- Settles O32: each command on a request in the state that its rule asks for; whether a signature overruns is log entry 132. -/
theorem suspensionAndPauses : Obligations.SuspensionAndPauses := by
  unfold Obligations.SuspensionAndPauses
  intro s rid i core r c c' cores b v time
  refine ⟨?suspend, ?resume, ?pause, ?resumeSign, ?timeEnd, ?rngWait⟩
  case suspend =>
    rintro hu hc hf hi hleft hs hcore rfl
    exact State.next_congr (State.cipherSuspend_suspends hu hc hf hi hleft hs hcore)
  case resume => exact fun hf hp hi hcs hcore hdom => State.next_congr (State.cipherResume_resumes hf hp hi hcs hcore hdom)
  case pause => exact fun hf hu hp hiso hop hne hlen => State.next_congr (State.pauseSign_pauses hf hu hp hiso hop hne hlen)
  case resumeSign => exact fun hf hp hne => State.next_congr (State.resumeSign_resumes hf hp hne)
  case timeEnd => exact fun hf hu hp hrun => State.next_congr (State.timeOver_fails hf hu hp hrun)
  case rngWait => exact fun hf hq hh hn hr => State.next_congr (State.rngWaitOver_ends hf hq hh hn hr)

end

section
/-!
PROOFS. The cipher cores: segments on berths and on keys (R247 to R254, R260), setup, sealing and release of berths (R261 to R265).
-/
namespace Sys2Proof.Machine

variable {s t : State} {rid i : Nat} {r : Req} {op : Op}

/-! ### A request that runs -/

/-- A running request whose item is whole is no stream: its command works on it at once, on its berth or under its key. -/
theorem State.symData_onBerth {src : Bytes} (h : s.Runs rid r op) (hi : r.berth = some i) (hs : s.srcOf r = .ok src) (use : Nat) :
    s.symData rid op use = s.symOnBerth r i src := by
  simp only [State.symData, State.runs_no_stream h, State.runOp_runs h, hi, hs]

theorem State.symData_onKey (h : s.Runs rid r op) (hi : r.berth = none) (use : Nat) : s.symData rid op use = s.symWithKey r use := by
  simp only [State.symData, State.runs_no_stream h, State.runOp_runs h, hi]

theorem State.runs_id (h : s.Runs rid r op) : r.id = rid := State.findReq_id h.1

/-- A request without poison is not poisoned while the list of requests stands. -/
theorem State.poisoned_runs (h : s.Runs rid r op) (hp : r.poison = false) (ht : t.reqs = s.reqs) : t.poisoned r = false := by
  have hf : t.findReq r.id = some r := by
    rw [State.runs_id h, State.findReq, ht]
    exact h.1
  simp only [State.poisoned, hf, Option.map_some, Option.getD_some, hp]

@[simp] theorem State.addBlocks_reqs (s : State) (core n : Nat) : (s.addBlocks core n).reqs = s.reqs := rfl

/-! ### Segments -/

/-- What a segment gives on a berth, while its request is not poisoned. -/
theorem State.symFinish_berth {g : Segment} {src iv12 : Bytes} (hi : r.berth = some i) (hp : s.poisoned r = false) :
    s.symFinish r g src iv12 =
      let res := segmentResult r.desc g src iv12 r
      (((s.addBlocks r.inst (symBlocks r.desc.mode g.data.length)).keepBefore r.id i).setBerth i ((s.berth i).afterSegment r.desc g)).produce
        r.id { res with out := r.bas.early ++ res.out.drop r.bas.early.length } := by
  have hp' : (s.addBlocks r.inst (symBlocks r.desc.mode g.data.length)).poisoned r = false := hp
  simp only [State.symFinish, hi, hp', Bool.false_eq_true, if_false]
  rfl

/-- A segment on a berth that no check refuses gives its result and updates the berth, whose old content is kept (R260). -/
theorem State.symOnBerth_ends (h : s.Runs rid r op) (hi : r.berth = some i) (hp : r.poison = false) {src : Bytes}
    (hf : segmentFault r.desc src ((s.berth i).segment r (s.genIv r (s.berth i)) (src.take (src.length - r.desc.srcTag))) false = none) :
    s.symOnBerth r i src =
      let b := s.berth i
      let iv12 := s.genIv r b
      let g := b.segment r iv12 (src.take (src.length - r.desc.srcTag))
      let res := segmentResult r.desc g src iv12 r
      let t := ((if r.desc.ivgen ∧ b.policy ≠ 2 then s.drawn else s).cacheKey (s.physical 1 r.inst)
        { berth := true, index := i, gen := b.gen, owner := r.ptn }).addBlocks r.inst (symBlocks r.desc.mode g.data.length)
      ((t.keepBefore r.id i).setBerth i (b.afterSegment r.desc g)).produce r.id
        { res with out := r.bas.early ++ res.out.drop r.bas.early.length } := by
  simp only [State.symOnBerth, hf]
  split
  · exact State.symFinish_berth hi (State.poisoned_runs h hp rfl)
  · exact State.symFinish_berth hi (State.poisoned_runs h hp rfl)

/-- A segment under a key of KEY_H that no check refuses gives its result (R249, R254). -/
theorem State.symWithKey_ends {use : Nat} {m : KeyMat} {src : Bytes} (hb : r.berth = none)
    (hk : s.keyed r (r.desc.symNeed use) = some (t, m, src))
    (hf : segmentFault r.desc src (r.keySegment m.bytes (src.take (src.length - r.desc.srcTag))) (decide (handleType r.desc.keyH = 3)) = none)
    (hc : counterFault {} r.desc 0 (r.aux.take r.desc.ivLen) (src.take (src.length - r.desc.srcTag)).length = none) :
    s.symWithKey r use =
      let g := r.keySegment m.bytes (src.take (src.length - r.desc.srcTag))
      let res := segmentResult r.desc g src [] r
      ((t.cacheSlot r m).addBlocks r.inst (symBlocks r.desc.mode g.data.length)).produce r.id
        { res with out := r.bas.early ++ res.out.drop r.bas.early.length } := by
  have hc' : counterFault {} r.desc 0 (r.keySegment m.bytes (src.take (src.length - r.desc.srcTag))).iv
    (r.keySegment m.bytes (src.take (src.length - r.desc.srcTag))).data.length = none := hc
  simp only [State.symWithKey, State.withKey_keyed hk, hf, hc', State.symFinish, hb]

theorem State.cacheSlot_none {m : KeyMat} (hm : m.slot = none) : s.cacheSlot r m = s := by
  simp only [State.cacheSlot, hm]
  split <;> simp_all

theorem State.cacheSlot_some {m : KeyMat} {slot : Nat} (hu : r.unit = .sym) (hm : m.slot = some slot) :
    s.cacheSlot r m = s.cacheKey (s.physical 1 r.inst) { berth := false, index := slot, gen := (s.key slot).gen, owner := r.ptn } := by
  simp only [State.cacheSlot, hu, hm]

/-- The data opcodes with the usage that they ask of a key. -/
def cipherRows : List ((Nat → Instr) × Op × Nat) :=
  [(.encrypt, .encrypt, 1), (.decrypt, .decrypt, 2), (.aeadSeal, .aeadSeal, 1), (.aeadOpen, .aeadOpen, 2), (.macGenerate, .macGenerate, 5),
    (.macVerify, .macVerify, 5)]

theorem exec_cipherRow (s : State) (rid : Nat) :
    ∀ row ∈ cipherRows, exec (row.1 rid) s = .next (s.wrapUp (s.symData rid row.2.1 row.2.2)) := by
  simp only [cipherRows, List.forall_mem_cons]
  exact ⟨rfl, rfl, rfl, rfl, rfl, rfl, nofun⟩

/-! ### Setup, sealing and release -/

theorem State.poisoned_congr (h : t.reqs = s.reqs) (r : Req) : t.poisoned r = s.poisoned r := by
  simp only [State.poisoned, State.findReq, h]

@[simp] theorem State.cacheSlot_reqs (s : State) (r : Req) (m : KeyMat) : (s.cacheSlot r m).reqs = s.reqs := by
  unfold State.cacheSlot
  split <;> rfl

/-- A setup with sound parameters and a key fills its berth (R261). -/
theorem State.berthSetup_fills {fresh : Bool} {m : KeyMat} {src : Bytes} {p : SetupParams} (h : s.Runs rid r .berthSetup)
    (hp : setupParams r.desc.mode r.aux = some p)
    (hk : s.keyed r { usages := setupUsages r.desc.mode p.dir, lens := [symKeyLen r.desc.algN], holdLen := some (symKeyLen r.desc.algN) } =
      some (t, m, src))
    (hpo : t.poisoned r = false) (hb : t.berthTarget r = .ok (i, fresh)) :
    s.berthSetup rid =
      let sub := fit 48 (Config.std .symSub [[r.desc.alg], m.bytes])
      let keyed := if fresh then t.drawn else t
      let noted := if r.desc.mode = 3 ∨ r.desc.mode = 6 ∨ r.desc.mode = 7 then keyed.cacheSlot r m else keyed
      ((noted.keepBefore rid i).fillBerth i {
        state := .idle, owner := r.ptn, rootReal := !t.pins.dbgEn, dir := p.dir, policy := p.policy, alg := r.desc.algN
        msgLimit := p.limit, invoc := p.invoc, fixed := p.fixed, key := fit 64 m.bytes
        hsub := if r.desc.mode = 3 ∨ r.desc.mode = 6 ∨ r.desc.mode = 7 then sub.take 16 else zeros 16
        cb := zeros 16, acc := zeros 16, auxk := if r.desc.mode = 6 then sub.drop 16 else zeros 32 }).succeed rid [] (berthHandle i) := by
  have hfresh : (if fresh then t.drawn else t).poisoned r = false := by cases fresh <;> exact hpo
  have hpins : (if fresh then t.drawn else t).pins = t.pins := by cases fresh <;> rfl
  have hnoted : (if r.desc.mode = 3 ∨ r.desc.mode = 6 ∨ r.desc.mode = 7 then (if fresh then t.drawn else t).cacheSlot r m
      else (if fresh then t.drawn else t)).poisoned r = false := by
    split
    · rw [State.poisoned_congr (State.cacheSlot_reqs ..), hfresh]
    · exact hfresh
  simp only [State.berthSetup, State.runOp_runs h, hp, State.withKey_keyed hk, hb]
  rw [hnoted, hpins]
  rfl

/-- The blob of a berth counts its seal (R264; that SEAL_SEQ counts the seal itself is log entry 74). -/
theorem State.berthSealOut_seals (h : s.Runs rid r .berthSealOut) (hi : r.berth = some i) (halg : (s.berth i).alg < 0x91) :
    s.berthSealOut rid = ({ s.drawn.keepBefore rid i with seals := setKey 0 s.seals r.ptn (getKey 0 s.seals r.ptn + 1) } : State).succeed rid
      (s.berthBlob r (s.berth i) (getKey 0 s.seals r.ptn + 1) (s.value r 12)) := by
  simp only [State.berthSealOut, State.runOp_runs h, hi, Nat.not_le.mpr halg, if_false]

/-- A blob of the layout of R264. -/
def sealedBlob (src : Bytes) : Bool := le32 src 0 == 1 && decide (byteAt src 5 ≤ 1) && allZero (slice src 6 2) && allZero (slice src 0x1C 4)

theorem sealedBlob_layout {src : Bytes} (h : sealedBlob src = true) :
    ¬(le32 src 0 ≠ 1 ∨ byteAt src 5 > 1 ∨ (!allZero (slice src 6 2)) = true ∨ (!allZero (slice src 0x1C 4)) = true) := by
  simp only [sealedBlob, Bool.and_eq_true, beq_iff_eq, decide_eq_true_eq] at h
  obtain ⟨⟨⟨h1, h2⟩, h3⟩, h4⟩ := h
  simp [h1, h2, h3, h4]

/-- A whole blob of the partition restores its berth; the detail code of an EXHAUSTED one is a free value (R265; log entry 82). -/
theorem State.berthSealIn_restores {src : Bytes} (h : s.Runs rid r .berthSealIn) (hp : r.poison = false) (hs : s.srcOf r = .ok src)
    (hl : sealedBlob src = true) (ho : byteAt src 4 = r.ptn)
    (htag : fit 16 (Config.std .gcmTag [s.sealKey r, slice src 0x10 12, src.take 0x20, slice src 0x20 256]) = slice src 0x120 16)
    (ha : s.allocBerth r.ptn = some i) :
    s.berthSealIn rid = (((s.drawn.drawn.keepBefore rid i).fillBerth i
      { Berth.ofImage (fit 256 (Config.std .gcmPlain [s.sealKey r, slice src 0x10 12, src.take 0x20, slice src 0x20 256])) with
        owner := r.ptn, exhaust := 1 + s.drawn.pick % 5 }).succeed rid [] (berthHandle i)) := by
  have hsound : s.poisoned r = false := State.poisoned_runs h hp rfl
  simp only [State.berthSealIn, State.runOp_runs h, hs, sealedBlob_layout hl, ho, htag, ha, hsound, ne_eq, not_true_eq_false, or_self,
    Bool.false_eq_true, if_false]

theorem State.berthSealIn_foreign {src : Bytes} (h : s.Runs rid r .berthSealIn) (hs : s.srcOf r = .ok src) (hl : sealedBlob src = true)
    (ho : byteAt src 4 ≠ r.ptn) : s.berthSealIn rid = s.failOp rid ⟨.berthInvalid, none⟩ := by
  simp only [State.berthSealIn, State.runOp_runs h, hs, sealedBlob_layout hl, ho, ne_eq, not_false_eq_true, true_or, if_true, if_false]

theorem State.berthRelease_frees (h : s.Runs rid r .berthRelease) (hp : r.poison = false) (hi : r.berth = some i) :
    s.berthRelease rid = ((s.keepBefore rid i).freeBerth i).succeed rid [] := by
  have hsound : s.poisoned r = false := State.poisoned_runs h hp rfl
  simp only [State.berthRelease, State.runOp_runs h, hi, hsound, Bool.false_eq_true, if_false]

end Sys2Proof.Machine

open Sys2Proof.Machine in
/-- Settles O33: the segment of a berth or of a key, from the request that runs to the result that it produces. -/
theorem cipherOperations : Obligations.CipherOperations := by
  unfold Obligations.CipherOperations
  refine ⟨fun s rid i r src => ?berth, fun s t rid slot r m src => ?key⟩
  case berth =>
    intro rows d b iv12 g res t row hrow hr hi hsrc hp hf
    have hmem : ∃ use, (row.1, row.2, use) ∈ cipherRows := by
      simp only [rows, List.mem_cons, List.not_mem_nil, or_false] at hrow
      rcases hrow with rfl | rfl | rfl | rfl | rfl | rfl
      · exact ⟨1, by simp [cipherRows]⟩
      · exact ⟨2, by simp [cipherRows]⟩
      · exact ⟨1, by simp [cipherRows]⟩
      · exact ⟨2, by simp [cipherRows]⟩
      · exact ⟨5, by simp [cipherRows]⟩
      · exact ⟨5, by simp [cipherRows]⟩
    obtain ⟨use, hmem⟩ := hmem
    exact (exec_cipherRow s rid _ hmem).trans
      (State.next_congr ((State.symData_onBerth hr hi hsrc use).trans (State.symOnBerth_ends hr hi hp hf)))
  case key =>
    intro rows d n g res ended row hrow hr hu hb hk hf hc
    have hrun : exec (row.1 rid) s = .next (s.wrapUp (ended (t.cacheSlot r m))) :=
      (exec_cipherRow s rid row hrow).trans
        (State.next_congr ((State.symData_onKey hr hb row.2.2).trans (State.symWithKey_ends hb hk hf hc)))
    refine ⟨fun hm => ?_, fun hm => ?_⟩
    · rw [hrun, State.cacheSlot_none hm]
    · rw [hrun, State.cacheSlot_some hu hm]

open Sys2Proof.Machine in
/-- Settles O34: setup, sealing and release of a berth. That SEAL_SEQ counts the seal itself is log entry 74; the free detail code of a
restored berth is log entry 82. -/
theorem berthOperations : Obligations.BerthOperations := by
  unfold Obligations.BerthOperations
  intro s t rid i fresh r m src p d n sub body derived hpoison
  have hlayout (h1 : le32 src 0 = 1) (h5 : byteAt src 5 ≤ 1) (h6 : allZero (slice src 6 2) = true) (h1c : allZero (slice src 0x1C 4) = true) :
      sealedBlob src = true := by simp [sealedBlob, h1, h5, h6, h1c]
  refine ⟨?setup, ?sealOut, ?sealIn, ?foreign, ?release⟩
  case setup => exact fun h hp hk hpo hb => State.next_congr (State.berthSetup_fills h hp hk hpo hb)
  case sealOut => exact fun h hi halg => State.next_congr (State.berthSealOut_seals h hi halg)
  case sealIn =>
    exact fun h hs h1 h5 h6 h1c ho htag ha =>
      State.next_congr (State.berthSealIn_restores h hpoison hs (hlayout h1 h5 h6 h1c) ho htag ha)
  case foreign => exact fun h hs h1 h5 h6 h1c ho => State.next_congr (State.berthSealIn_foreign h hs (hlayout h1 h5 h6 h1c) ho)
  case release => exact fun h hi => State.next_congr (State.berthRelease_frees h hpoison hi)

end

section
/-!
PROOFS. BRT_CTRL (R258, R267), the flush of Basin queues (R229) and the end of a pool audit (R236).
-/
namespace Sys2Proof.Machine

variable {s t : State} {acc : Access} {d : W32} {r : Req}

/-! ### BRT_CTRL -/

theorem State.write_brtCtrl (hc : s.Carries acc (RegId.brtCtrl.target 0 0)) (h31 : bitOf d 31 = true)
    (ht : (s.store { id := .brtCtrl } d).brtCtrl = t) :
    (Host.Outcome.next (s.wrapUp (s.write acc d .brtCtrl)) : Host.Outcome State Fault Refusal) = .next (s.wrapUp (t.respond .okay 0)) :=
  State.write_path hc (by decide) (by decide) ((if_pos h31).trans ht)

theorem State.brtCtrl_invalidates (h : s.regF .brtCtrl 1 0 = 0) :
    s.brtCtrl = ((s.berths.filter (fun e => e.2.owner = s.regF .brtCtrl 29 24)).map (·.1)).foldl (fun s i => s.loseBerth i .berthInvalid) s := by
  simp only [State.brtCtrl, h]

theorem State.brtCtrl_releases (h : s.regF .brtCtrl 1 0 = 1) :
    s.brtCtrl = ((s.berths.filter (fun e => e.2.owner = s.regF .brtCtrl 29 24 ∧ e.2.state = .invalid)).map (·.1)).foldl State.freeBerth s := by
  have hboth : (s.berths.filter (fun e => e.2.owner = s.regF .brtCtrl 29 24)).filter (fun e => e.2.state == .invalid) =
      s.berths.filter (fun e => e.2.owner = s.regF .brtCtrl 29 24 ∧ e.2.state = .invalid) := by
    rw [List.filter_filter]
    refine List.filter_congr fun e _ => ?_
    rw [Bool.and_comm, Bool.decide_and]
    rfl
  simp only [State.brtCtrl, h, hboth]

/-! ### Flushes -/

theorem bsnQctrl_addr (q : Fin 2048) : 0x080000 ≤ RegId.bsnQctrl.addr q 0 ∧ RegId.bsnQctrl.addr q 0 < 0x100000 := by
  simp only [RegId.addr, RegId.row]
  omega

theorem State.write_bsnQctrl {q : Fin 2048} (hc : s.Carries acc (RegId.bsnQctrl.target q 0)) (h0 : bitOf d 0 = true)
    (ht : s.flushQueue q = t) :
    (Host.Outcome.next (s.wrapUp (s.write acc d .bsnQctrl q)) : Host.Outcome State Fault Refusal) = .next (s.wrapUp (t.respond .okay 0)) :=
  State.write_path hc (bsnQctrl_addr q).1 (.inl (bsnQctrl_addr q).2) ((if_pos h0).trans ht)

/-- A queue of a lane: the request that the lane carries is flushed by its phase. -/
theorem State.flushQueue_lane {q : Fin 2048} (h1 : q ≠ 0x7E0) (h2 : q ≠ 0x7E1) (hr : s.laneReq (q / 2) = some r) :
    s.flushQueue q = s.flushLane r := by
  have n1 : q.val ≠ 0x7E0 := fun h => h1 (Fin.ext h)
  have n2 : q.val ≠ 0x7E1 := fun h => h2 (Fin.ext h)
  simp only [State.flushQueue, n1, n2, hr, if_false]

theorem State.flushQueue_empty {q : Fin 2048} (h1 : q ≠ 0x7E0) (h2 : q ≠ 0x7E1) (hr : s.laneReq (q / 2) = none) : s.flushQueue q = s := by
  have n1 : q.val ≠ 0x7E0 := fun h => h1 (Fin.ext h)
  have n2 : q.val ≠ 0x7E1 := fun h => h2 (Fin.ext h)
  simp only [State.flushQueue, n1, n2, hr, if_false]

theorem State.flushLane_queued (h : r.phase = .queued) : s.flushLane r = s.finishReq r.id (plainResult .flushed .completion 0) := by
  simp only [State.flushLane, h]

theorem State.flushLane_begun (h : r.phase = .running ∨ r.phase = .suspended ∨ r.phase = .paused) :
    s.flushLane r = (s.abortEngine r).finishReq r.id { plainResult .aborted r.unit r.inst with outLen := r.bas.released } := by
  rcases h with h | h | h <;> simp only [State.flushLane, h]

theorem State.flushLane_produced (h : r.phase = .produced) :
    s.flushLane r = s.finishReq r.id { plainResult .aborted r.unit r.inst with outLen := r.bas.released } := by
  simp only [State.flushLane, h]

theorem State.flushLane_posted (h : r.phase = .posted) :
    s.flushLane r = if 0 < r.outLeft ∧ r.scrub = .none then
      s.finishReq r.id { plainResult .aborted r.unit r.inst with outLen := r.bas.released } else s := by
  simp only [State.flushLane, h]

/-! ### Pool audit -/

theorem exec_poolAuditDone_clean (hb : s.regB .bsnErr 23 = true) (hs : s.basin.stray = []) :
    exec .poolAuditDone s = .next (s.wrapUp (s.setB .bsnErr 23 false)) := by
  have hsame : ({ s with basin := { s.basin with stray := [] } } : State) = s := by rw [← hs]
  have hcells : ({ s.returnCells s.basin.stray with basin := { (s.returnCells s.basin.stray).basin with stray := [] } } : State) = s := by
    rw [hs]
    exact hsame
  exact State.next_congr ((if_pos hb).trans ((if_pos (List.length_eq_zero_iff.mpr hs)).trans (congrArg (State.setB · .bsnErr 23 false) hcells)))

theorem exec_poolAuditDone_found (hb : s.regB .bsnErr 23 = true) (hs : s.basin.stray ≠ []) :
    exec .poolAuditDone s = .next (s.wrapUp
      ((({ s.returnCells s.basin.stray with basin := { (s.returnCells s.basin.stray).basin with stray := [] } } : State).setB .bsnErr 23 false).event
        srcBsnAudit 0xFF s.basin.stray.length)) :=
  State.next_congr ((if_pos hb).trans (if_neg (List.length_eq_zero_iff.not.mpr hs)))

end Sys2Proof.Machine

open Sys2Proof.Machine in
/-- Settles O35: BRT_CTRL by OP, the flush of a queue by what it carries, and the audit's end by the stray cells. What is dropped with the
queues 0x7E0 and 0x7E1 is log entry 96. -/
theorem berthAndQueueManagement : Obligations.BerthAndQueueManagement := by
  unfold Obligations.BerthAndQueueManagement
  intro s acc d p q r t
  refine ⟨?invalidate, ?release, ?queued, ?begun, ?produced, ?posted, ?stage, ?table, ?empty, ?noAudit, ?clean, ?found⟩
  case invalidate =>
    rintro hc h31 rfl hop
    exact State.write_brtCtrl hc h31 ((State.brtCtrl_invalidates hop).trans (by rw [State.store_berths]))
  case release =>
    rintro hc h31 rfl hop
    exact State.write_brtCtrl hc h31 ((State.brtCtrl_releases hop).trans (by rw [State.store_berths]))
  case queued => exact fun hc h0 h1 h2 hr hp => State.write_bsnQctrl hc h0 ((State.flushQueue_lane h1 h2 hr).trans (State.flushLane_queued hp))
  case begun => exact fun hc h0 h1 h2 hr hp => State.write_bsnQctrl hc h0 ((State.flushQueue_lane h1 h2 hr).trans (State.flushLane_begun hp))
  case produced =>
    exact fun hc h0 h1 h2 hr hp => State.write_bsnQctrl hc h0 ((State.flushQueue_lane h1 h2 hr).trans (State.flushLane_produced hp))
  case posted => exact fun hc h0 h1 h2 hr hp => State.write_bsnQctrl hc h0 ((State.flushQueue_lane h1 h2 hr).trans (State.flushLane_posted hp))
  case stage => exact fun hc h0 => State.write_bsnQctrl (q := 0x7E0) hc h0 rfl
  case table => exact fun hc h0 => State.write_bsnQctrl (q := 0x7E1) hc h0 rfl
  case empty => exact fun hc h0 h1 h2 hr => State.write_bsnQctrl hc h0 (State.flushQueue_empty h1 h2 hr)
  case noAudit => exact fun hb => State.next_congr (if_neg (by simp [hb]))
  case clean => exact exec_poolAuditDone_clean
  case found => exact exec_poolAuditDone_found

end

section
/-!
PROOFS. The hash cores: digests, XOFs and MACs (R280 to R282), key derivation (R283 to R285) and SLH-DSA (R287 to R290).
-/
namespace Sys2Proof.Machine

variable {s t : State} {rid : Nat} {r : Req} {op : Op} {m : KeyMat} {src : Bytes}

/-! ### Digests, XOFs and MACs -/

theorem State.hashOp_succeeds (h : s.Runs rid r .hash) (hs : s.srcOf r = .ok src) :
    s.hashOp rid = (s.hashCalls r).succeed rid (hashFn r.desc.algN (fld r.desc.param 8 0) src) := by
  simp only [State.hashOp, State.runOp_runs h, hs]

theorem State.xofOp_plain (h : s.Runs rid r .xof) (hs : s.srcOf r = .ok src) (ha : r.desc.algN < 0x1A) :
    s.xofOp rid = (s.hashCalls r).succeed rid (xofFn r.desc.algN r.desc.hashOut [] [] src) := by
  simp only [State.xofOp, State.runOp_runs h, hs, Nat.not_le.mpr ha, if_false]

theorem State.xofOp_cshake {nm cust : Bytes} (h : s.Runs rid r .xof) (hs : s.srcOf r = .ok src) (ha : 0x1A ≤ r.desc.algN)
    (hc : cshakeStrings r.aux = some (nm, cust)) :
    s.xofOp rid = (s.hashCalls r).succeed rid (xofFn r.desc.algN r.desc.hashOut nm cust src) := by
  simp only [State.xofOp, State.runOp_runs h, hs, ha, hc, if_true]

theorem State.macGenerate_succeeds (h : s.Runs rid r op) (hk : s.keyed r (macNeed r.desc) = some (t, m, src)) :
    s.macGenerate rid op = (t.hashCalls r).succeed rid (macTag r.desc m.bytes src r.aux) := by
  simp only [State.macGenerate, State.runOp_runs h, State.withKey_keyed hk]

/-- A verdict: OK, or VERIFY_FAILED. -/
theorem State.verdict_iff {p : Prop} [Decidable p] {b : Bool} (hb : b = true ↔ p) (s : State) (rid : Nat) :
    s.verdict rid b = if p then s.succeed rid [] else s.failOp rid ⟨.verifyFailed, none⟩ := by
  simp only [State.verdict, hb]

theorem State.macVerify_judges (h : s.Runs rid r op) (hk : s.keyed r (macNeed r.desc) = some (t, m, src)) (hl : r.desc.macLen ≤ src.length) :
    s.macVerify rid op =
      if macTag r.desc m.bytes (src.take (src.length - r.desc.macLen)) r.aux = src.drop (src.length - r.desc.macLen) then
        (t.hashCalls r).succeed rid []
      else (t.hashCalls r).failOp rid ⟨.verifyFailed, none⟩ := by
  simp only [State.macVerify, State.runOp_runs h, State.withKey_keyed hk, Nat.not_lt.mpr hl, if_false]
  exact State.verdict_iff beq_iff_eq _ _

/-! ### Derived keys and generated pairs -/

/-- A derived key goes to the hold, or to the object of RESULT_H that takes it (R283, R421). -/
theorem State.giveDerived_hold (hh : r.desc.holdOut = true) (out : Bytes) (kind : Nat) (us : List Nat) :
    s.giveDerived r out kind us = s.succeed r.id out := if_pos hh

theorem State.giveDerived_target {out : Bytes} {kind : Nat} {us : List Nat} {h : W32} (hh : r.desc.holdOut = false)
    (hf : s.resultFault r kind us out.length = none) (hr : s.resolve r r.desc.resultH = some h) :
    s.giveDerived r out kind us = (s.putTarget r out).succeed r.id [] h := by
  simp only [State.giveDerived, hh, hf, hr, Bool.false_eq_true, if_false, Option.getD_some]

theorem State.giveKeyPair_target {priv pub : Bytes} {kind : Nat} {us : List Nat} {h : W32}
    (hf : s.resultFault r kind us priv.length = none) (hr : s.resolve r r.desc.resultH = some h) :
    s.giveKeyPair r priv pub kind us = (s.putTarget r priv).succeed r.id pub h := by
  simp only [State.giveKeyPair, hf, hr, Option.getD_some]

theorem State.kdfOp_gives (h : s.Runs rid r op) (hk : s.keyed r { usages := [usDerive] } = some (t, m, src))
    (hshort : kdfKeyShort op r.desc m.bytes = false) (haux : kdfAuxFault op r.desc r.aux = none) :
    s.kdfOp rid op =
      (if r.unit = .sym then (t.cacheSlot r m).addBlocks r.inst (ceilDiv r.desc.hashOut 16) else t.hashCalls r).giveDerived r
        (kdfFn op r.desc m.bytes r.aux) 0 [1, 2, 3, 4, 5, 6] := by
  simp only [State.kdfOp, State.runOp_runs h, State.withKey_keyed hk, hshort, haux, Bool.false_eq_true, if_false]

/-- The key derivation opcodes. -/
def kdfRows : List ((Nat → Instr) × Op) :=
  [(.hkdf, .hkdf), (.hkdfExtract, .hkdfExtract), (.hkdfExpand, .hkdfExpand), (.kdf108, .kdf108), (.kdf56cOnestep, .kdf56cOneStep),
    (.kdf56cTwostep, .kdf56cTwoStep)]

theorem exec_kdfRow (s : State) (rid : Nat) : ∀ row ∈ kdfRows, exec (row.1 rid) s = .next (s.wrapUp (s.kdfOp rid row.2)) := by
  simp only [kdfRows, List.forall_mem_cons]
  exact ⟨rfl, rfl, rfl, rfl, rfl, rfl, nofun⟩

/-! ### SLH-DSA -/

/-- The seeds of a generated key, and its public key (R287). -/
theorem State.slhKeygen_gives {h : W32} (hr : s.Runs rid r .slhdsaKeygen) {n : Nat} (hn : slhN r.desc.algN = n) {seeds pub : Bytes}
    (hs : s.value r (3 * n) = seeds) (hp : seeds.drop (2 * n) ++ fit n (Config.std .slhPublic [r.desc.head, seeds]) = pub)
    (hf : (s.drawn.hashCalls r).resultFault r 0 [usSign] (seeds.take (2 * n) ++ pub).length = none)
    (hres : (s.drawn.hashCalls r).resolve r r.desc.resultH = some h) :
    s.slhKeygen rid = ((s.drawn.hashCalls r).putTarget r (seeds.take (2 * n) ++ pub)).succeed r.id pub h := by
  subst hn hs hp
  simp only [State.slhKeygen, State.runOp_runs hr]
  exact State.giveKeyPair_target hf hres

theorem State.slhSign_signs (h : s.Runs rid r .slhdsaSign) {n : Nat} (hn : slhN r.desc.algN = n)
    (hk : s.keyed r { usages := [usSign], lens := [4 * n], holdLen := some (4 * n), pair := decide (16 < n) } = some (t, m, src))
    (hl : signedLenOk r.desc src.length 0 = true) :
    s.slhSign rid = ((if r.desc.hedged then t.drawn else t).hashCalls r).succeed rid (fit (slhSig r.desc.algN)
      (Config.std .slhSign [r.desc.head, m.bytes, r.aux, src, if r.desc.hedged then t.value r n else slice m.bytes (2 * n) n])) := by
  subst hn
  simp only [State.slhSign, State.runOp_runs h, State.withKey_keyed hk, hl, Bool.not_true, Bool.false_eq_true, if_false]

theorem State.slhVerify_judges (h : s.Runs rid r .slhdsaVerify) (hs : s.srcOf r = .ok src) {n k : Nat} (hn : slhN r.desc.algN = n)
    (hk : slhSig r.desc.algN = k) :
    s.slhVerify rid =
      if Config.holds .slhVerify [r.desc.head, r.aux.take (2 * n), r.aux.drop (2 * n), src.take k, src.drop k] then (s.hashCalls r).succeed rid []
      else (s.hashCalls r).failOp rid ⟨.verifyFailed, none⟩ := by
  subst hn hk
  simp only [State.slhVerify, State.runOp_runs h, hs]
  rfl

end Sys2Proof.Machine

open Sys2Proof.Machine in
/-- Settles O36: digests and outputs over the source, tags under a key, and their verdicts. -/
theorem digestsAndMacs : Obligations.DigestsAndMacs := by
  unfold Obligations.DigestsAndMacs
  intro s t rid r m src nm cust d n k gens checks
  refine ⟨?hash, ?xof, ?cshake, ?generate, ?verify⟩
  case hash => exact fun h hs => State.next_congr (State.hashOp_succeeds h hs)
  case xof => exact fun h hs ha => State.next_congr (State.xofOp_plain h hs ha)
  case cshake => exact fun h hs ha hc => State.next_congr (State.xofOp_cshake h hs ha hc)
  case generate =>
    simp only [gens, List.forall_mem_cons]
    exact ⟨fun h hk => State.next_congr (State.macGenerate_succeeds h hk), fun h hk => State.next_congr (State.macGenerate_succeeds h hk), nofun⟩
  case verify =>
    simp only [checks, List.forall_mem_cons]
    exact ⟨fun h hk hl => State.next_congr (State.macVerify_judges h hk hl), fun h hk hl => State.next_congr (State.macVerify_judges h hk hl),
      nofun⟩

open Sys2Proof.Machine in
/-- Settles O37: the derived bytes of each function, to the hold or to the slot. -/
theorem keyDerivationFunctions : Obligations.KeyDerivationFunctions := by
  unfold Obligations.KeyDerivationFunctions
  intro s t rid r m src h d rows out counted row hrow hr hk hshort haux
  have hexec := (exec_kdfRow s rid row hrow).trans (State.next_congr (State.kdfOp_gives hr hk hshort haux))
  exact ⟨fun hh => hexec.trans (State.next_congr (State.giveDerived_hold hh _ _ _)),
    fun hh hf hres => hexec.trans (State.next_congr (State.giveDerived_target hh hf hres))⟩

open Sys2Proof.Machine in
/-- Settles O38: a generated pair, both ways of signing, and the verdict. -/
theorem slhDsaOperations : Obligations.SlhDsaOperations := by
  unfold Obligations.SlhDsaOperations
  intro s t rid r m src h d n seeds pub made
  refine ⟨?keygen, ?hedged, ?deterministic, ?verify⟩
  case keygen => exact fun hr hf hres => State.next_congr (State.slhKeygen_gives hr rfl rfl rfl hf hres)
  case hedged =>
    intro hr hk hl hh
    refine State.next_congr ((State.slhSign_signs hr rfl hk hl).trans ?_)
    simp only [show r.desc.hedged = true from hh, if_true]
    rfl
  case deterministic =>
    intro hr hk hl hh
    refine State.next_congr ((State.slhSign_signs hr rfl hk hl).trans ?_)
    simp only [show r.desc.hedged = false from hh, Bool.false_eq_true, if_false]
    rfl
  case verify => exact fun hr hs => State.next_congr (State.slhVerify_judges hr hs rfl rfl)

end

section
/-!
PROOFS. The polynomial engines' operations of the standard sets: ML-KEM (R311 to R314) and ML-DSA (R315 to R322).
-/
namespace Sys2Proof.Machine

variable {s t : State} {rid i : Nat} {r : Req} {o : Op} {m : KeyMat} {src : Bytes} {h : W32}

/-- A lattice key pair or shared key goes to the object of RESULT_H that takes it, once PLY_OPS has counted it. -/
theorem State.giveLattice_target {priv pub : Bytes} {usage : Nat} (hf : (s.plyDone r).resultFault r 0 [usage] priv.length = none)
    (hr : (s.plyDone r).resolve r r.desc.resultH = some h) :
    s.giveLattice r priv pub usage = ((s.plyDone r).putTarget r priv).succeed r.id pub h :=
  State.giveKeyPair_target hf hr

/-! ### ML-KEM -/

theorem State.kemKeygen_gives (hr : s.Runs rid r .mlkemKeygen) (hw : s.recipeFlaws r .mlkemKeygen = [])
    (ho : s.orderOk r .mlkemKeygen (s.targetOrder r) = true) {seed : Bytes}
    (hs : (if r.desc.param.getLsbD 0 then fit 64 r.aux else s.value r 64) = seed) :
    s.kemKeygen rid = (if r.desc.param.getLsbD 0 then s else s.drawn).giveLattice r seed
      (fit (s.plyPk r .mlkemKeygen) (Config.std .kemPublic [s.plySetBytes r .mlkemKeygen, seed])) usDecap := by
  subst hs
  simp only [State.kemKeygen, State.plyOp_runs hr hw, ho, Bool.not_true, Bool.false_eq_true, if_false]

theorem State.kemEncaps_gives (hr : s.Runs rid r .mlkemEncaps) (hw : s.recipeFlaws r .mlkemEncaps = []) (hs : s.srcOf r = .ok src)
    (ho : s.orderOk r .mlkemEncaps r.defaultOrder = true) {set msg : Bytes} (hset : s.plySetBytes r .mlkemEncaps = set)
    (hmsg : (if r.desc.param.getLsbD 0 then fit 32 r.aux else s.value r 32) = msg) (hrange : kemRangeOk r.desc.algN set src = true) :
    s.kemEncaps rid = (if r.desc.param.getLsbD 0 then s else s.drawn).giveLattice r (fit 32 (Config.std .kemShared [set, src, msg]))
      (fit (s.plyCt r .mlkemEncaps) (Config.std .kemCipher [set, src, msg])) usDerive := by
  subst hset hmsg
  simp only [State.kemEncaps, State.plyOp_runs hr hw, hs, ho, hrange, Bool.not_true, Bool.false_eq_true, if_false]

theorem State.kemEncaps_outOfRange (hr : s.Runs rid r .mlkemEncaps) (hw : s.recipeFlaws r .mlkemEncaps = []) (hs : s.srcOf r = .ok src)
    (ho : s.orderOk r .mlkemEncaps r.defaultOrder = true) (hrange : kemRangeOk r.desc.algN (s.plySetBytes r .mlkemEncaps) src = false) :
    s.kemEncaps rid = (s.plyDone r).failOp rid ⟨.inputRange, none⟩ := by
  simp only [State.kemEncaps, State.plyOp_runs hr hw, hs, ho, hrange, Bool.not_true, Bool.not_false, Bool.false_eq_true, if_false, if_true]

theorem State.kemDecaps_gives (hr : s.Runs rid r .mlkemDecaps) (hw : s.recipeFlaws r .mlkemDecaps = [])
    (hk : s.keyed r { usages := [usDecap], lens := [64], holdLen := some 64 } = some (t, m, src))
    (ho : t.orderOk r .mlkemDecaps (r.keyOrder m) = true) (hl : src.length = t.plyCt r .mlkemDecaps) :
    s.kemDecaps rid = t.giveLattice r (fit 32 (Config.std .kemDecaps [t.plySetBytes r .mlkemDecaps, m.bytes, src])) [] usDerive := by
  simp only [State.kemDecaps, State.plyOp_runs hr hw, State.withKey_keyed hk, ho, hl, Bool.not_true, Bool.false_eq_true, ne_eq, not_true,
    if_false]

/-! ### ML-DSA -/

theorem State.dsaKeygen_gives (hr : s.Runs rid r .mldsaKeygen) (hw : s.recipeFlaws r .mldsaKeygen = [])
    (ho : s.orderOk r .mldsaKeygen (s.targetOrder r) = true) {xi : Bytes} (hx : (if r.desc.internal then fit 32 r.aux else s.value r 32) = xi) :
    s.dsaKeygen rid = (if r.desc.internal then s else s.drawn).giveLattice r xi
      (fit (s.plyPk r .mldsaKeygen) (Config.std .dsaPublic [s.plySetBytes r .mldsaKeygen, xi])) usSign := by
  subst hx
  simp only [State.dsaKeygen, State.plyOp_runs hr hw, ho, Bool.not_true, Bool.false_eq_true, if_false]

/-- A draw changes no set and no length of a recipe. -/
@[simp] theorem State.plySetBytes_drawn : s.drawn.plySetBytes r o = s.plySetBytes r o := rfl
@[simp] theorem State.plyCt_drawn : s.drawn.plyCt r o = s.plyCt r o := rfl

/-- A signature over what the set, the context, the seed and the message say, hedged or not. -/
theorem State.dsaCompute_eq {seed : Bytes} {inp : List Bytes}
    (hinp : [s.plySetBytes r o, r.desc.head, seed, r.aux, src, if r.desc.hedged then s.value r 32 else zeros 32] = inp) :
    s.dsaCompute r o seed src h = (if r.desc.hedged then s.drawn else s).dsaFinish r o (fit (s.plyCt r o) (Config.std .dsaSign inp))
      (1 + Config.size .dsaIters inp) h := by
  subst hinp
  cases hd : r.desc.hedged <;>
    simp only [State.dsaCompute, hd, Bool.false_eq_true, if_false, if_true, State.plySetBytes_drawn, State.plyCt_drawn]

/-- Without CACHE a key that signs leaves no link (R319). -/
theorem State.dsaSign_withKey (hr : s.Runs rid r o) (hw : s.recipeFlaws r o = []) (hb : r.berth = none)
    (hk : s.keyed r { usages := [usSign], lens := [32], holdLen := some 32 } = some (t, m, src)) (ho : t.orderOk r o (r.keyOrder m) = true)
    (hl : dsaMsgOk o r.desc src.length = true) (hc : r.desc.cache = false) : s.dsaSign rid o = t.dsaCompute r o m.bytes src 0 := by
  simp only [State.dsaSign, State.plyOp_runs hr hw, hb, State.withKey_keyed hk, ho, hl, hc, Bool.not_true, Bool.not_false, Bool.false_eq_true,
    if_false, if_true]

theorem State.dsaSign_withBerth (hr : s.Runs rid r o) (hw : s.recipeFlaws r o = []) (hb : r.berth = some i) (hf : s.linkedFault r i = none)
    (hs : s.srcOf r = .ok src) (ho : s.orderOk r o (s.berth i).linkOrder = true) :
    s.dsaSign rid o = (s.useLink r i (s.plyAreas r o)).dsaCompute r o ((s.berth i).key.take 32) src 0 := by
  simp only [State.dsaSign, State.plyOp_runs hr hw, hb, hf, hs, ho, Bool.not_true, Bool.false_eq_true, if_false]

theorem State.dsaVerify_judges (hr : s.Runs rid r o) (hw : s.recipeFlaws r o = []) (hs : s.srcOf r = .ok src) {k n : Nat} (hk : s.plyPk r o = k)
    (hn : s.plyCt r o = n) :
    s.dsaVerify rid o =
      if Config.holds .dsaVerify [s.plySetBytes r o, r.desc.head, r.aux.take k, r.aux.drop k, src.take n, src.drop n] then
        (s.plyDone r).succeed rid []
      else (s.plyDone r).failOp rid ⟨.verifyFailed, none⟩ := by
  subst hk hn
  simp only [State.dsaVerify, State.plyOp_runs hr hw, hs]
  exact State.verdict_iff Iff.rfl _ _

/-- The opcodes that sign, and those that verify: of a message, and of the μ of one. -/
def dsaSignRows : List ((Nat → Instr) × Op) := [(.mldsaSign, .mldsaSign), (.mldsaSignMu, .mldsaSignMu)]
def dsaVerifyRows : List ((Nat → Instr) × Op) := [(.mldsaVerify, .mldsaVerify), (.mldsaVerifyMu, .mldsaVerifyMu)]

theorem exec_dsaSignRow (s : State) (rid : Nat) : ∀ row ∈ dsaSignRows, exec (row.1 rid) s = .next (s.wrapUp (s.dsaSign rid row.2)) := by
  simp only [dsaSignRows, List.forall_mem_cons]
  exact ⟨rfl, rfl, nofun⟩

theorem exec_dsaVerifyRow (s : State) (rid : Nat) : ∀ row ∈ dsaVerifyRows, exec (row.1 rid) s = .next (s.wrapUp (s.dsaVerify rid row.2)) := by
  simp only [dsaVerifyRows, List.forall_mem_cons]
  exact ⟨rfl, rfl, nofun⟩

end Sys2Proof.Machine

open Sys2Proof.Machine in
/-- Settles O40: keys, ciphertexts and signatures of the lattice opcodes, with the refusals that their functions give. -/
theorem latticeOperations : Obligations.LatticeOperations := by
  unfold Obligations.LatticeOperations
  refine ⟨?kem, ?dsa⟩
  case kem =>
    intro s t rid r m src h d own given seed set msg ss key made
    refine ⟨?keygen, ?encaps, ?range, ?decaps⟩
    case keygen =>
      rintro hr hw ho ⟨hf, hres⟩
      exact State.next_congr ((State.kemKeygen_gives hr hw ho rfl).trans (State.giveLattice_target hf hres))
    case encaps =>
      rintro hr hw hs ho hrange ⟨hf, hres⟩
      exact State.next_congr ((State.kemEncaps_gives hr hw hs ho rfl rfl hrange).trans (State.giveLattice_target hf hres))
    case range => exact fun hr hw hs ho hrange => State.next_congr (State.kemEncaps_outOfRange hr hw hs ho hrange)
    case decaps =>
      rintro hr hw hk ho hl ⟨hf, hres⟩
      exact State.next_congr ((State.kemDecaps_gives hr hw hk ho hl).trans (State.giveLattice_target hf hres))
  case dsa =>
    intro s t rid i r m src h d xi made signs verifies signed
    refine ⟨?keygen, ?key, ?berth, ?verify⟩
    case keygen => exact fun hr hw ho hf hres => State.next_congr ((State.dsaKeygen_gives hr hw ho rfl).trans (State.giveLattice_target hf hres))
    case key =>
      exact fun row hrow hr hw hb hk ho hl hc =>
        (exec_dsaSignRow s rid row hrow).trans (State.next_congr ((State.dsaSign_withKey hr hw hb hk ho hl hc).trans (State.dsaCompute_eq rfl)))
    case berth =>
      exact fun row hrow hr hw hb hf hs ho =>
        (exec_dsaSignRow s rid row hrow).trans (State.next_congr ((State.dsaSign_withBerth hr hw hb hf hs ho).trans (State.dsaCompute_eq rfl)))
    case verify =>
      exact fun row hrow hr hw hs => (exec_dsaVerifyRow s rid row hrow).trans (State.next_congr (State.dsaVerify_judges hr hw hs rfl rfl))

end

section
/-!
PROOFS. The recipe micro-commands (R305, R331): what each leaves of its run, its slots and its streams, and the restore and scrub of recipe
memories (R335, R523).
-/
namespace Sys2Proof.Machine

variable {s : State} {n : Nat} {e y : RecipeEnv} {m : Micro} {op : Nat}

/-! ### Leaving a micro-command behind -/

theorem State.atMicro_op (h : s.AtMicro n e m op) : m.op = op := by
  obtain ⟨-, -, hop, -⟩ := h
  exact hop

/-- The state that a micro-command leaves: its environment with the shares that follow, at the next place. -/
def State.afterMicro (s : State) (n : Nat) (m : Micro) (y : RecipeEnv) : State :=
  let z := y.follow m
  let t := s.updPly n (fun p => { p with run := some { z.run with pc := z.run.pc + 1 }, slots := z.slots, shares := z.shares })
  if m.drawsMask then t.drawn else t

/-- The state that a micro-command leaves which changes the run alone and draws no mask. -/
def State.afterRun (s : State) (n : Nat) (e : RecipeEnv) (y : RecipeRun) : State :=
  s.updPly n (fun p => { p with run := some { y with pc := y.pc + 1 }, slots := e.slots, shares := e.shares })

theorem exec_micro {f : RecipeEnv → Micro → Nat → RecipeEnv} {i : Instr} (h : s.AtMicro n e m op) (hf : f e m s.free = y) (hp : y.ply = e.ply)
    (hexec : exec i s = .next (s.wrapUp (s.recipeOp n op f))) : exec i s = .next (s.wrapUp (s.afterMicro n m y)) := by
  subst hf
  exact hexec.trans (State.next_congr (State.recipeOp_atMicro h f hp))

/-- What names no destination and reads no mask leaves slots and shares. -/
theorem State.afterMicro_run (hd : (microUses m.op).1 = false) (hm : m.drawsMask = false) {run : RecipeRun} :
    s.afterMicro n m { e with run := run } = s.afterRun n e run := by
  simp only [State.afterMicro, State.afterRun, RecipeEnv.follow_none hd, hm, Bool.false_eq_true, if_false]

theorem RecipeEnv.follow_stream (h : 80 ≤ m.d) : e.follow m = e := by
  simp only [RecipeEnv.follow, h, or_true, if_true]

theorem Micro.drawsMask_of_no_source (h : (microUses m.op).2.1 = false) (h18 : m.op ≠ 0x18) : m.drawsMask = false := by
  simp [Micro.drawsMask, h, h18]

theorem Micro.drawsMask_of_slot (h : m.a < 80) (h18 : m.op ≠ 0x18) : m.drawsMask = false := by
  have ha : m.a ≠ 0x7B := by omega
  simp [Micro.drawsMask, ha, h18]

/-! ### What a micro-command makes of its environment -/

theorem RecipeEnv.pmul_zips {draw : Nat} (h : m.x ≠ 1) : e.pmul m draw =
    (e.load m.a draw).1.store m.d (List.zipWith (fun u v => u * v % max (e.load m.a draw).1.run.q 1) (e.load m.a draw).2
      ((e.load m.a draw).1.poly m.b)) := by
  simp only [RecipeEnv.pmul, RecipeEnv.times, h, if_false, RecipeEnv.zip]

theorem RecipeEnv.pmac_zips {draw : Nat} (h : m.x ≠ 1) : e.pmac m draw =
    (e.load m.a draw).1.store m.d (List.zipWith (fun u v => (u + v) % max (e.load m.a draw).1.run.q 1) ((e.load m.a draw).1.poly m.d)
      (List.zipWith (fun u v => u * v % max (e.load m.a draw).1.run.q 1) (e.load m.a draw).2 ((e.load m.a draw).1.poly m.b))) := by
  simp only [RecipeEnv.pmac, RecipeEnv.times, h, if_false, RecipeEnv.zip]

/-- NORM rejects a run once more, or leaves its verdict. -/
theorem RecipeEnv.norm_rejects (draw : Nat) : e.norm m draw =
    { (e.load m.a draw).1 with run := { (e.load m.a draw).1.run with
      reject := (e.load m.a draw).1.run.reject ||
        (e.load m.a draw).2.any (fun c => decide ((e.load m.a draw).1.const m.x ≤ centred (e.load m.a draw).1.run.q c)) } } := by
  unfold RecipeEnv.norm
  obtain ⟨y, c⟩ := e.load m.a draw
  cases hc : c.any (fun v => decide (y.const m.x ≤ centred y.run.q v))
  · simp only [hc, Bool.false_eq_true, if_false, Bool.or_false]
  · simp only [hc, if_true, Bool.or_true]

theorem RecipeEnv.move_slot {draw : Nat} (hd : m.d < 80) (ha : m.a < 80) (hx : m.x ≠ 1) :
    e.move m draw = e.put m.d (coefsOf (2 ^ 32) e.n (coefBytes (e.poly m.a))) := by
  simp only [RecipeEnv.move, hd, ha, hx, if_true, if_false]

theorem RecipeEnv.kabs_slot {draw : Nat} (ha : m.a < 80) : e.kabs m draw =
    { e with run := { e.run with kIn := e.run.kIn ++ (if m.b = 0 then coefBytes (e.poly m.a) else (coefBytes (e.poly m.a)).take (16 * m.b)) } } := by
  simp only [RecipeEnv.kabs, ha, if_true]
  rfl

theorem RecipeEnv.kabs_stream {draw : Nat} (ha : 80 ≤ m.a) : e.kabs m draw =
    (e.read m.a (if m.b = 0 then e.left m.a else 16 * m.b) draw).1.write 0x7E (e.read m.a (if m.b = 0 then e.left m.a else 16 * m.b) draw).2 := by
  simp only [RecipeEnv.kabs, Nat.not_lt.mpr ha, if_false]

theorem RecipeEnv.load_slot {draw c : Nat} (h : c < 80) : e.load c draw = (e, e.poly c) := if_pos h

theorem RecipeEnv.pack_out {draw : Nat} (ha : m.a < 80) (hd : m.d = 0x7F) :
    e.pack m draw = { e with run := { e.run with out := e.run.out ++ packBits m.x (e.poly m.a) } } := by
  simp only [RecipeEnv.pack, RecipeEnv.load_slot ha, hd, Nat.not_lt.mpr (show 80 ≤ 0x7F by decide), if_false]
  rfl

theorem RecipeEnv.pack_slot {draw : Nat} (ha : m.a < 80) (hd : m.d < 80) :
    e.pack m draw = e.put m.d (coefsOf (2 ^ 32) e.n (fit (4 * e.n) (packBits m.x (e.poly m.a)))) := by
  simp only [RecipeEnv.pack, RecipeEnv.load_slot ha, hd, if_true]

theorem RecipeEnv.unpk_stream {draw : Nat} (ha : 80 ≤ m.a) : e.unpk m draw =
    (e.read m.a (ceilDiv (m.x * e.n) 8) draw).1.store m.d
      (unpackBits m.x (e.read m.a (ceilDiv (m.x * e.n) 8) draw).1.n (e.read m.a (ceilDiv (m.x * e.n) 8) draw).2) := by
  simp only [RecipeEnv.unpk, Nat.not_lt.mpr ha, if_false]

theorem RecipeEnv.unpk_slot {draw : Nat} (ha : m.a < 80) : e.unpk m draw =
    e.store m.d (unpackBits m.x e.n ((coefBytes (e.poly m.a)).take (ceilDiv (m.x * e.n) 8))) := by
  simp only [RecipeEnv.unpk, ha, if_true]

/-! ### Single micro-commands -/

/-- SHARE gives its slots fresh masks and takes new words of the mask expander for them. -/
theorem exec_share (ply : Fin 16) (h : s.AtMicro ply e m 0x18) : exec (.share ply) s = .next (s.wrapUp (s.updPly ply (fun p => { p with
    run := some { e.run with pc := e.run.pc + 1 }, slots := e.slots
    shares := (numsFrom m.a (e.n / 256)).foldl (fun sh i => if i < 80 then setKey {} sh i (e.shareSlot m.x s.free i) else sh) e.shares
    })).drawn) := by
  refine (exec_micro (f := RecipeEnv.share) h rfl rfl rfl).trans (State.next_congr ?_)
  have hop := State.atMicro_op h
  have hmask : m.drawsMask = true := by simp [Micro.drawsMask, hop]
  simp only [State.afterMicro, RecipeEnv.follow_none (show (microUses m.op).1 = false by rw [hop]; rfl), hmask, if_true]
  rfl

/-- The samplers, each with its code. -/
def samplerRows : List ((Fin 16 → Instr) × Nat) := [(.suni, 0x0A), (.scbd, 0x0B), (.seta, 0x0C), (.smsk, 0x0D), (.sball, 0x0E)]

theorem exec_samplerRow (s : State) (ply : Fin 16) :
    ∀ row ∈ samplerRows, exec (row.1 ply) s = .next (s.wrapUp (s.recipeOp ply row.2 RecipeEnv.sampler)) := by
  simp only [samplerRows, List.forall_mem_cons]
  exact ⟨rfl, rfl, rfl, rfl, rfl, nofun⟩

/-! ### ITER and END -/

theorem State.recipeIter_goes (h : s.AtMicro n e m 0x15) (hr : e.run.reject = false) : s.recipeIter n = s.afterRun n e e.run := by
  have hnext : s.recipeNext e = s.afterRun n e e.run := by rw [State.recipeNext, State.atMicro_ply h]; rfl
  rw [← hnext, State.recipeIter, State.recipeDo_atMicro h]
  exact if_pos (by rw [hr]; rfl)

theorem State.recipeIter_again (h : s.AtMicro n e m 0x15) (hr : e.run.reject = true) (hi : e.run.iters + 1 < rsIterMax e.run.set) :
    s.recipeIter n = s.updPly n (fun p => { p with
      run := some { e.run with reject := false, iters := e.run.iters + 1, pc := rsEntry e.run.set 5 } }) := by
  simp only [State.recipeIter, State.recipeDo_atMicro h, hr, Bool.not_true, Bool.false_eq_true, Nat.not_le.mpr hi, if_false]

theorem State.recipeIter_ends (h : s.AtMicro n e m 0x15) (hr : e.run.reject = true) (hi : rsIterMax e.run.set ≤ e.run.iters + 1) :
    s.recipeIter n = ((s.setReg .plyIter (s.reg .plyIter n + BitVec.ofNat 32 (e.run.iters + 1)) n).plyDone e.req).failOp e.req.id
      ⟨.engineFault, none⟩ := by
  simp only [State.recipeIter, State.recipeDo_atMicro h, hr, Bool.not_true, Bool.false_eq_true, hi, if_false, if_true]

theorem State.underRoots_same {r : Req} (h : r.testRoot = true → s.pins.dbgEn = true) (f : State → Req → State) : s.underRoots r f = f s r := by
  have : ¬(r.testRoot && !s.pins.dbgEn) = true := by
    intro hb
    simp only [Bool.and_eq_true, Bool.not_eq_true'] at hb
    obtain ⟨ht, hd⟩ := hb
    rw [h ht] at hd
    exact Bool.noConfusion hd
  exact if_neg this

theorem State.recipeGive_verify (ho : e.op = .mldsaVerify ∨ e.op = .mldsaVerifyMu) :
    s.recipeGive e = (s.plyDone e.req).verdict e.req.id (e.run.flag && !e.run.reject) := by
  unfold State.recipeGive
  rcases ho with ho | ho <;> simp only [ho]

theorem State.recipeEnd_verify (h : s.AtMicro n e m 0x00) (hroot : e.req.testRoot = true → s.pins.dbgEn = true)
    (hord : s.orderOk e.req e.op e.order = true) (ho : e.op = .mldsaVerify ∨ e.op = .mldsaVerifyMu) :
    s.recipeEnd n = if e.run.flag = true ∧ e.run.reject = false then (s.plyDone e.req).succeed e.req.id []
      else (s.plyDone e.req).failOp e.req.id ⟨.verifyFailed, none⟩ := by
  simp only [State.recipeEnd, State.recipeDo_atMicro h, hord, Bool.not_true, Bool.false_eq_true, if_false, State.underRoots_same hroot,
    State.recipeGive_verify ho]
  exact State.verdict_iff (by simp) _ _

/-! ### Restore and scrub -/

theorem State.recipeCopy_woken {k : Nat} (hr : (s.ply n).restoring = true)
    (hk : (numsFrom 0 16).find? (fun k => !s.unitOut 3 k && !(s.ply k).woken && decide ((s.ply k).rcp.tag = (s.ply n).rcp.tag)) = some k)
    (hw : (s.ply n).woken = true) :
    s.recipeCopy n = s.updPly n (fun p => { p with rcp := (s.ply k).rcp, bad := [], restoring := false, woken := false }) := by
  simp only [State.recipeCopy, hr, hk, hw, Bool.not_true, Bool.false_eq_true, if_false, if_true]

theorem State.updPly_congr {f g : Ply → Ply} (h : f (s.ply n) = g (s.ply n)) : s.updPly n f = s.updPly n g :=
  congrArg (fun l => { s with plys := l }) (modAt_congr h)

theorem State.recipeScrub_corrects (hr : (s.ply n).restoring = false) (hb : ∀ x ∈ (s.ply n).bad, x.2 = false) :
    s.recipeScrub n = (s.ply n).bad.foldl (fun s _ => s.event srcPlyMemCorr (s.unitDomain 3 n) n) (s.updPly n (fun p => { p with bad := [] })) := by
  have hall : (s.ply n).bad.filter (fun e => !e.2) = (s.ply n).bad := List.filter_eq_self.mpr (fun x hx => by simp [hb x hx])
  have hnone : (s.ply n).bad.filter (·.2) = [] := List.filter_eq_nil_iff.mpr (fun x hx => by simp [hb x hx])
  have hany : (s.ply n).bad.any (·.2) = false := List.any_eq_false.mpr (fun x hx => by simp [hb x hx])
  have hupd : s.updPly n (fun p => { p with bad := p.bad.filter (·.2) }) = s.updPly n (fun p => { p with bad := [] }) :=
    State.updPly_congr (by simp only [hnone])
  simp only [State.recipeScrub, hr, hall, hany, hupd, Bool.false_eq_true, if_false]

end Sys2Proof.Machine

open Sys2Proof.Machine in
/-- Settles O41: each arithmetic micro-command by its row. -/
theorem recipeArithmetic : Obligations.RecipeArithmetic := by
  unfold Obligations.RecipeArithmetic
  intro s ply e m x a b q goes put coefs same
  have hx (y : List Nat) : (x.store m.d y).ply = e.ply := (RecipeEnv.store_ply _ _ _).trans (RecipeEnv.load_ply _ _ _)
  refine ⟨?setq, ?ntt, ?intt, ?pmul, ?pmac, ?padd, ?psub, ?cmpr, ?round, ?hint, ?norm, ?ceq, ?csel, ?share, ?move⟩
  case setq => exact fun h => exec_micro (f := RecipeEnv.setq) h rfl rfl rfl
  case ntt => exact fun h => exec_micro (f := RecipeEnv.ntt) h rfl (hx _) rfl
  case intt => exact fun h => exec_micro (f := RecipeEnv.intt) h rfl (hx _) rfl
  case pmul => exact fun h h1 => exec_micro (f := RecipeEnv.pmul) h (RecipeEnv.pmul_zips h1) (hx _) rfl
  case pmac => exact fun h h1 => exec_micro (f := RecipeEnv.pmac) h (RecipeEnv.pmac_zips h1) (hx _) rfl
  case padd => exact fun h => exec_micro (f := RecipeEnv.padd) h rfl (hx _) rfl
  case psub => exact fun h => exec_micro (f := RecipeEnv.psub) h rfl (hx _) rfl
  case cmpr => exact fun h => exec_micro (f := fun e m => e.map m .compress) h rfl (hx _) rfl
  case round => exact fun h => exec_micro (f := fun e m => e.map m .compress) h rfl (hx _) rfl
  case hint => exact fun h => exec_micro (f := fun e m => e.map m .hint) h rfl (hx _) rfl
  case norm => exact fun h => exec_micro (f := RecipeEnv.norm) h (RecipeEnv.norm_rejects _) (RecipeEnv.load_ply _ _ _) rfl
  case ceq => exact fun h => exec_micro (f := RecipeEnv.ceq) h rfl rfl rfl
  case csel => exact fun h => exec_micro (f := RecipeEnv.csel) h rfl (hx _) rfl
  case share => exact fun h _ => exec_share ply h
  case move => exact fun h hd ha h1 => exec_micro (f := RecipeEnv.move) h (RecipeEnv.move_slot hd ha h1) rfl rfl

open Sys2Proof.Machine in
/-- Settles O42: hash input, samplers, packing, ITER, the verdict of END, and the restore and scrub of recipe memories. -/
theorem recipeStreamsAndControl : Obligations.RecipeStreamsAndControl := by
  unfold Obligations.RecipeStreamsAndControl
  intro s ply e m k goes run inp filled bytes len
  refine ⟨?kinit, ?kabsSlot, ?kabsStream, ?sampler, ?packOut, ?packSlot, ?unpkStream, ?unpkSlot, ?iterGoes, ?iterAgain, ?iterEnds, ?verdict,
    ?copy, ?scrub⟩
  case kinit =>
    intro h
    have hop := State.atMicro_op h
    refine (exec_micro (f := RecipeEnv.kinit) h rfl rfl rfl).trans (State.next_congr (State.afterMicro_run ?_ ?_))
    · rw [hop]; rfl
    · exact Micro.drawsMask_of_no_source (by rw [hop]; rfl) (by rw [hop]; decide)
  case kabsSlot =>
    intro h ha
    have hop := State.atMicro_op h
    refine (exec_micro (f := RecipeEnv.kabs) h (RecipeEnv.kabs_slot ha) rfl rfl).trans (State.next_congr (State.afterMicro_run ?_ ?_))
    · rw [hop]; rfl
    · exact Micro.drawsMask_of_slot ha (by rw [hop]; decide)
  case kabsStream =>
    exact fun h ha => exec_micro (f := RecipeEnv.kabs) h (RecipeEnv.kabs_stream ha) (RecipeEnv.read_ply _ _ _ _) rfl
  case sampler =>
    exact fun row hrow h => exec_micro (f := RecipeEnv.sampler) h rfl (RecipeEnv.store_ply _ _ _) (exec_samplerRow s ply row hrow)
  case packOut =>
    intro h ha hd
    have hop := State.atMicro_op h
    refine (exec_micro (f := RecipeEnv.pack) h (RecipeEnv.pack_out ha hd) rfl rfl).trans (State.next_congr ?_)
    have hm : m.drawsMask = false := Micro.drawsMask_of_slot ha (by rw [hop]; decide)
    simp only [State.afterMicro, RecipeEnv.follow_stream (show 80 ≤ m.d by omega), hm, Bool.false_eq_true, if_false]
    rfl
  case packSlot => exact fun h ha hd => exec_micro (f := RecipeEnv.pack) h (RecipeEnv.pack_slot ha hd) rfl rfl
  case unpkStream =>
    exact fun h ha => exec_micro (f := RecipeEnv.unpk) h (RecipeEnv.unpk_stream ha)
      ((RecipeEnv.store_ply _ _ _).trans (RecipeEnv.read_ply _ _ _ _)) rfl
  case unpkSlot => exact fun h ha => exec_micro (f := RecipeEnv.unpk) h (RecipeEnv.unpk_slot ha) (RecipeEnv.store_ply _ _ _) rfl
  case iterGoes => exact fun h hr => State.next_congr (State.recipeIter_goes h hr)
  case iterAgain => exact fun h hr hi => State.next_congr (State.recipeIter_again h hr hi)
  case iterEnds => exact fun h hr hi => State.next_congr (State.recipeIter_ends h hr hi)
  case verdict => exact fun h hroot hord ho => State.next_congr (State.recipeEnd_verify h hroot hord ho)
  case copy => exact fun hr hk hw => State.next_congr (State.recipeCopy_woken hr hk hw)
  case scrub => exact fun hr hb => State.next_congr (State.recipeScrub_corrects hr hb)

end

section
/-!
PROOFS. The code engines: HQC (R341 to R344), Classic McEliece (R345 to R349) and the code key cache (R350 to R353).
-/
namespace Sys2Proof.Machine

variable {s t : State} {rid n id : Nat} {r : Req} {op : Op} {m : KeyMat} {src : Bytes} {h : W32}

/-- A shared secret goes to the object of RESULT_H that takes it, once COD_OPS has counted it. -/
theorem State.giveSecret_target {key out : Bytes} {usage : Nat} (hf : (s.codDone r).resultFault r 0 [usage] key.length = none)
    (hr : (s.codDone r).resolve r r.desc.resultH = some h) :
    s.giveSecret r key out usage = ((s.codDone r).putTarget r key).succeed r.id out h :=
  State.giveKeyPair_target hf hr

/-! ### HQC -/

theorem State.hqcKeygen_gives (hr : s.Runs rid r .hqcKeygen) {seed : Bytes}
    (hs : (if r.desc.param.getLsbD 0 then fit 32 r.aux else s.value r 32) = seed) :
    s.hqcKeygen rid = (if r.desc.param.getLsbD 0 then s else s.drawn).giveSecret r seed
      (fit (hqcLens r.desc.algN).1 (Config.std .hqcPublic [[r.desc.alg], seed])) usDecap := by
  subst hs
  simp only [State.hqcKeygen, State.runOp_runs hr]

theorem State.hqcEncaps_gives (hr : s.Runs rid r .hqcEncaps) (hs : s.srcOf r = .ok src) (hv : hqcVectorsOk r.desc.algN true src = true) {n : Nat}
    (hn : (hqcLens r.desc.algN).2.2 + 16 = n) {msg : Bytes} (hm : (if r.desc.param.getLsbD 0 then fit n r.aux else s.value r n) = msg) :
    s.hqcEncaps rid = (if r.desc.param.getLsbD 0 then s else s.drawn).giveSecret r (fit 32 (Config.std .hqcShared [[r.desc.alg], src, msg]))
      (fit (hqcLens r.desc.algN).2.1 (Config.std .hqcCipher [[r.desc.alg], src, msg])) usDerive := by
  subst hn hm
  simp only [State.hqcEncaps, State.runOp_runs hr, hs, hv, Bool.not_true, Bool.false_eq_true, if_false]

theorem State.hqcDecaps_gives (hr : s.Runs rid r .hqcDecaps)
    (hk : s.keyed r { usages := [usDecap], lens := [32], holdLen := some 32 } = some (t, m, src)) (hl : src.length = (hqcLens r.desc.algN).2.1)
    (hv : hqcVectorsOk r.desc.algN false src = true) :
    s.hqcDecaps rid = t.giveSecret r (fit 32 (Config.std .hqcDecaps [[r.desc.alg], m.bytes, src])) [] usDerive := by
  simp only [State.hqcDecaps, State.runOp_runs hr, State.withKey_keyed hk, hl, hv, ne_eq, not_true, Bool.not_true, Bool.false_eq_true, if_false]

/-! ### Classic McEliece -/

/-- MCE_IMPORT: the conditions of R346 in their order, then an entry of a secret key whose reference the slot will receive. -/
theorem State.mceImport_gives (hr : s.Runs rid r .mceImport) (hk : s.keyed r { usages := [usWrap], lens := [32] } = some (t, m, src))
    (hp : t.poisoned r = false) {len : Nat} (hlen : src.length - 28 = len) {body sk pk : Bytes} (hbody : slice src 12 len = body)
    (hsk : fit len (Config.std .gcmPlain [m.bytes, src.take 12, r.aux, body]) = sk)
    (hpk : fit (mceSet r.desc.algN).pk (Config.std .mcePublic [[r.desc.alg], sk]) = pk) {c : State} (hc : t.codDone r = c)
    (hf : c.resultFault r 1 [usDecap] 40 = none) (hres : c.resolve r r.desc.resultH = some h) (halg : isMce r.desc.algN = true)
    (htag : fit 16 (Config.std .gcmTag [m.bytes, src.take 12, r.aux, body]) = slice src (12 + len) 16) (hmagic : r.aux.take 4 = ascii "MCSK")
    (hset : byteAt r.aux 4 = r.desc.algN) (hzero : allZero (slice r.aux 5 11) = true) (hok : Config.holds .mceKeyOk [[r.desc.alg], sk] = true)
    (hid : sha3 pk = slice r.aux 16 32) (hroom : c.ckcRoom r.ptn (mceSet r.desc.algN).privGran = true) :
    s.mceImport rid = (c.ckcPut c.ckcFresh {
      owner := r.ptn, alg := r.desc.algN, isPrivate := true, pkid := sha3 pk, rootReal := c.realTags
      granules := (mceSet r.desc.algN).privGran, data := sk, loading := some rid, target := handleIndex h }).succeed rid (sha3 pk) h := by
  subst hlen hbody hsk hpk hc
  have hpc : (t.codDone r).poisoned r = false := hp
  simp only [State.mceImport, State.runOp_runs hr, State.withKey_keyed hk, hf, htag, halg, hmagic, hset, hzero, hok, hid, hroom, hpc, hres,
    ne_eq, not_true, Bool.not_true, Bool.false_eq_true, or_self, if_false, Option.getD_some]

theorem State.mcePublicKey_source (hc : r.desc.cached = false) (hs : s.srcOf r = .ok src) : s.mcePublicKey r = .ok (src, none) := by
  simp only [State.mcePublicKey, hc, hs, Bool.false_eq_true, if_false]
  rfl

theorem State.mcePublicKey_entry (hc : r.desc.cached = true) (he : r.entry = some n) (hs : s.ckcServes n r.ptn (fit 32 r.aux) r.desc.algN = true) :
    s.mcePublicKey r = .ok ((s.ckcEntry n).data, some n) := by
  simp only [State.mcePublicKey, hc, he, Option.filter_some, hs, if_true]
  rfl

theorem State.mceEncaps_source (hr : s.Runs rid r .mceEncaps) (hpk : s.mcePublicKey r = .ok (src, none))
    (hpad : mcePaddingOk r.desc.algN true src = true) (hw : Config.holds .fixw [[r.desc.alg], s.value r 32] = false) :
    s.mceEncaps rid = s.drawn.giveSecret r (fit 32 (Config.std .mceShared [[r.desc.alg], src, s.value r 32]))
      (fit (mceSet r.desc.algN).ct (Config.std .mceCipher [[r.desc.alg], src, s.value r 32])) usDerive := by
  simp only [State.mceEncaps, State.runOp_runs hr, hpk, hpad, hw, Bool.not_true, Bool.false_eq_true, if_false]

theorem State.mceEncaps_entry (hr : s.Runs rid r .mceEncaps) (hpk : s.mcePublicKey r = .ok (src, some n))
    (hpad : mcePaddingOk r.desc.algN true src = true) (ht : s.noteCkcRead rid n = t)
    (hw : Config.holds .fixw [[r.desc.alg], t.value r 32] = false) :
    s.mceEncaps rid = t.drawn.giveSecret r (fit 32 (Config.std .mceShared [[r.desc.alg], src, t.value r 32]))
      (fit (mceSet r.desc.algN).ct (Config.std .mceCipher [[r.desc.alg], src, t.value r 32])) usDerive := by
  subst ht
  simp only [State.mceEncaps, State.runOp_runs hr, hpk, hpad, hw, Bool.not_true, Bool.false_eq_true, if_false]

theorem State.mceDecaps_gives (hr : s.Runs rid r .mceDecaps) (hk : s.keyed r { usages := [usDecap], kind := 1 } = some (t, m, src))
    (halg : byteAt m.bytes 32 = r.desc.algN) (hn : n = le16 m.bytes 34) (he : (t.ckcEntry n).granules ≠ 0)
    (hg : (t.ckcEntry n).gen = le32 m.bytes 36) (hpad : mcePaddingOk r.desc.algN false src = true) :
    s.mceDecaps rid = (t.noteCkcRead rid n).giveSecret r (fit 32 (Config.std .mceDecaps [[r.desc.alg], (t.ckcEntry n).data, src])) [] usDerive := by
  subst hn
  have hkey : s.keyed r codeKey = some (t, m, src) := hk
  simp only [State.mceDecaps, State.runOp_runs hr, State.withKey_keyed hkey, halg, he, hg, hpad, ne_eq, not_true, or_self, Bool.not_true,
    Bool.false_eq_true, if_false]

/-! ### The code key cache -/

theorem State.ckcLoad_finds (hr : s.Runs rid r .ckcLoad) (hs : s.srcOf r = .ok src) (hpad : mcePaddingOk r.desc.algN true src = true)
    (hn : (s.codDone r).ckcPublic r.ptn (sha3 src) r.desc.algN = some n) : s.ckcLoad rid = (s.codDone r).succeed rid (sha3 src) := by
  simp only [State.ckcLoad, State.runOp_runs hr, hs, hpad, hn, Bool.not_true, Bool.false_eq_true, if_false]

theorem State.ckcLoad_makes (hr : s.Runs rid r .ckcLoad) (hs : s.srcOf r = .ok src) (hpad : mcePaddingOk r.desc.algN true src = true)
    (hn : (s.codDone r).ckcPublic r.ptn (sha3 src) r.desc.algN = none)
    (hroom : (s.codDone r).ckcRoom r.ptn (mceSet r.desc.algN).pubGran = true) (hp : r.poison = false) :
    s.ckcLoad rid = ((s.codDone r).ckcPut (s.codDone r).ckcFresh {
      owner := r.ptn, alg := r.desc.algN, pkid := sha3 src, granules := (mceSet r.desc.algN).pubGran, data := src
      loading := some rid }).succeed rid (sha3 src) := by
  have hpc : (s.codDone r).poisoned r = false := State.poisoned_runs hr hp rfl
  simp only [State.ckcLoad, State.runOp_runs hr, hs, hpad, hn, hroom, hpc, Bool.not_true, Bool.false_eq_true, if_false]

theorem State.ckcEvict_releases (hr : s.Runs rid r .ckcEvict) (hi : r.stateIndex = none)
    (hn : s.ckcPublic r.ptn (fit 32 r.aux) r.desc.algN = some n) :
    s.ckcEvict rid = if ((s.ckcRelease n).ckcEntry n).doomed then (s.ckcRelease n).updReq rid (fun r => { r with stateIndex := some n })
      else ((s.ckcRelease n).codDone r).succeed rid [] := by
  simp only [State.ckcEvict, State.runOp_runs hr, hi, hn]

/-- A load that did not end OK leaves nothing in the cache. -/
theorem State.finishLoad_drops {st : Status} (hl : (s.ckcEntry n).loading = some id) (hst : s.loadStatus id = some st) (hok : st ≠ .ok) :
    s.finishLoad n = { s with ckc := { s.ckc with entries := dropKey n s.ckc.entries } } := by
  simp only [State.finishLoad, hl, Option.bind_some, hst]

theorem State.finishLoad_reference (hl : (s.ckcEntry n).loading = some id) (hst : s.loadStatus id = some .ok) (hp : (s.ckcEntry n).isPrivate = true)
    (hf : s.targetFault (s.ckcEntry n).owner (s.ckcEntry n).target 1 [usDecap] 40 = none) :
    s.finishLoad n =
      ({ s with ckc := { s.ckc with entries := setKey {} s.ckc.entries n { s.ckcEntry n with loading := none } } } : State).putResult
        (s.ckcEntry n).target (codeRef (s.ckcEntry n).pkid (s.ckcEntry n).alg n (s.ckcEntry n).gen) := by
  simp only [State.finishLoad, hl, Option.bind_some, hst, hp, hf, if_true, Option.isSome_none, Bool.false_eq_true, if_false]

theorem State.finishLoad_serves (hl : (s.ckcEntry n).loading = some id) (hst : s.loadStatus id = some .ok) (hp : (s.ckcEntry n).isPrivate = false)
    (hf : s.ckcPublic (s.ckcEntry n).owner (s.ckcEntry n).pkid (s.ckcEntry n).alg = none) :
    s.finishLoad n = { s with ckc := { s.ckc with entries := setKey {} s.ckc.entries n { s.ckcEntry n with loading := none } } } := by
  simp only [State.finishLoad, hl, Option.bind_some, hst, hp, hf, Option.isSome_none, Bool.false_eq_true, if_false]

end Sys2Proof.Machine

open Sys2Proof.Machine in
/-- Settles O43: each HQC opcode gives its keys, ciphertext and shared key. -/
theorem hqcOperations : Obligations.HqcOperations := by
  unfold Obligations.HqcOperations
  intro s t rid r m src h d own given seed n msg ss key made
  refine ⟨?keygen, ?encaps, ?decaps⟩
  case keygen =>
    rintro hr ⟨hf, hres⟩
    exact State.next_congr ((State.hqcKeygen_gives hr rfl).trans (State.giveSecret_target hf hres))
  case encaps =>
    rintro hr hs hv ⟨hf, hres⟩
    exact State.next_congr ((State.hqcEncaps_gives hr hs hv rfl rfl).trans (State.giveSecret_target hf hres))
  case decaps =>
    rintro hr hk hl hv ⟨hf, hres⟩
    exact State.next_congr ((State.hqcDecaps_gives hr hk hl hv).trans (State.giveSecret_target hf hres))

open Sys2Proof.Machine in
/-- Settles O44: imports, encapsulations and decapsulations, and the entries of the code key cache from a load to its end or an eviction. -/
theorem mcElieceOperations : Obligations.McElieceOperations := by
  unfold Obligations.McElieceOperations
  refine ⟨?mce, ?cache, ?loads⟩
  case mce =>
    intro s t rid n r m src h d set given len body sk id c made seed ss e key
    refine ⟨?importing, ?source, ?entry, ?decaps⟩
    case importing =>
      rintro hr hk hp ⟨hf, hres⟩ halg htag hmagic hset hzero hok hid hroom
      exact State.next_congr (State.mceImport_gives hr hk hp rfl rfl rfl rfl rfl hf hres halg htag hmagic hset hzero hok hid hroom)
    case source =>
      rintro hr hc hs hpad hw ⟨hf, hres⟩
      exact State.next_congr ((State.mceEncaps_source hr (State.mcePublicKey_source hc hs) hpad hw).trans (State.giveSecret_target hf hres))
    case entry =>
      rintro hr hc he hserves rfl hpad seed' ss' u hw ⟨hf, hres⟩
      exact State.next_congr ((State.mceEncaps_entry hr (State.mcePublicKey_entry hc he hserves) hpad rfl hw).trans
        (State.giveSecret_target hf hres))
    case decaps =>
      rintro hr hk halg hn he hg hpad ⟨hf, hres⟩
      exact State.next_congr ((State.mceDecaps_gives hr hk halg hn he hg hpad).trans (State.giveSecret_target hf hres))
  case cache =>
    intro s rid n r src d t g u
    refine ⟨?finds, ?makes, ?frees, ?waits⟩
    case finds => exact fun hr hs hpad hn => State.next_congr (State.ckcLoad_finds hr hs hpad hn)
    case makes => exact fun hr hs hpad hn hroom hp => State.next_congr (State.ckcLoad_makes hr hs hpad hn hroom hp)
    case frees =>
      exact fun hr hi hn hd => State.next_congr ((State.ckcEvict_releases hr hi hn).trans (if_neg (Bool.eq_false_iff.mp hd)))
    case waits => exact fun hr hi hn hd => State.next_congr ((State.ckcEvict_releases hr hi hn).trans (if_pos hd))
  case loads =>
    intro s n id st e seen gone hl hst
    refine ⟨?drops, ?reference, ?serves⟩
    case drops => exact State.finishLoad_drops hl hst
    case reference =>
      rintro rfl hp hf
      exact State.finishLoad_reference hl hst hp hf
    case serves =>
      rintro rfl hp hf
      exact State.finishLoad_serves hl hst hp hf

end

section
/-!
PROOFS. The arithmetic of the big-number engines: powers and inverses modulo m, and the modular operations (R367, R372).
-/
namespace Sys2Proof.Machine

/-! ### Powers -/

/-- Square and multiply gives the power, when all bits of the exponent are read. -/
theorem modPow_eq (m : Nat) {k e : Nat} (x : Nat) (h : e < 2 ^ k) : modPow m k x e = x ^ e % m := by
  induction k generalizing x e with
  | zero =>
    obtain rfl : e = 0 := by simpa using h
    simp [modPow]
  | succ k ih =>
    have hhalf : e / 2 < 2 ^ k := by omega
    have hsquare : (x * x % m) ^ (e / 2) % m = x ^ (2 * (e / 2)) % m := by rw [← Nat.pow_mod, pow_mul, pow_two]
    rw [modPow, ih _ hhalf, hsquare, Nat.mul_mod_mod]
    split
    next hodd => rw [← pow_succ', show 2 * (e / 2) + 1 = e by omega]
    next heven => rw [one_mul, show 2 * (e / 2) = e by omega]

theorem beNat_lt (b : Bytes) : beNat b < 256 ^ b.length := by
  simpa only [beNat, List.length_reverse] using leNat_lt b.reverse

theorem length_slice_le (b : Bytes) (off len : Nat) : (slice b off len).length ≤ len := List.length_take_le ..

/-- A number read from `len` bytes has at most 8 · `len` bits. -/
theorem leNat_slice_lt (b : Bytes) (off len : Nat) : leNat (slice b off len) < 2 ^ (8 * len) :=
  calc leNat (slice b off len) < 256 ^ (slice b off len).length := leNat_lt _
    _ ≤ 256 ^ len := Nat.pow_le_pow_right (by decide) (length_slice_le ..)
    _ = 2 ^ (8 * len) := (pow_mul 2 8 len).symm

theorem beNat_slice_lt (b : Bytes) (off len : Nat) : beNat (slice b off len) < 2 ^ (8 * len) :=
  calc beNat (slice b off len) < 256 ^ (slice b off len).length := beNat_lt _
    _ ≤ 256 ^ len := Nat.pow_le_pow_right (by decide) (length_slice_le ..)
    _ = 2 ^ (8 * len) := (pow_mul 2 8 len).symm

/-! ### Inverses -/

/-- One step of Euclid keeps that t · a ≡ r (mod m). -/
theorem euclid_step {m a r0 t0 r1 t1 : Nat} (hm : 0 < m) (h0 : t0 * a ≡ r0 [MOD m]) (h1 : t1 * a ≡ r1 [MOD m]) :
    (t0 + (m - r0 / r1 * t1 % m)) % m * a ≡ r0 % r1 [MOD m] := by
  have hle : r0 / r1 * t1 % m ≤ m := (Nat.mod_lt _ hm).le
  have hcancel : m - r0 / r1 * t1 % m + r0 / r1 * t1 ≡ 0 [MOD m] :=
    calc m - r0 / r1 * t1 % m + r0 / r1 * t1 ≡ m - r0 / r1 * t1 % m + r0 / r1 * t1 % m [MOD m] := (Nat.mod_modEq _ _).symm.add_left _
      _ = m := Nat.sub_add_cancel hle
      _ ≡ 0 [MOD m] := by simp [Nat.ModEq]
  have hq : r0 / r1 * t1 * a ≡ r1 * (r0 / r1) [MOD m] := by
    rw [mul_assoc, mul_comm r1]
    exact h1.mul_left _
  refine Nat.ModEq.add_right_cancel hq ?_
  calc (t0 + (m - r0 / r1 * t1 % m)) % m * a + r0 / r1 * t1 * a
      ≡ (t0 + (m - r0 / r1 * t1 % m)) * a + r0 / r1 * t1 * a [MOD m] := ((Nat.mod_modEq _ _).mul_right a).add_right _
    _ = t0 * a + (m - r0 / r1 * t1 % m + r0 / r1 * t1) * a := by ring
    _ ≡ r0 + 0 * a [MOD m] := h0.add (hcancel.mul_right a)
    _ = r0 % r1 + r1 * (r0 / r1) := by rw [zero_mul, add_zero, Nat.mod_add_div]

/-- A remainder is at most half of what was divided, so that the product of two neighbours halves in each step. -/
theorem euclid_halves {r0 r1 k : Nat} (hpos : 0 < r1) (hle : r1 ≤ r0) (h : r0 * r1 < 2 ^ (k + 1)) : r1 * (r0 % r1) < 2 ^ k := by
  have hhalf : 2 * (r0 % r1) ≤ r0 := by
    have hlt := Nat.mod_lt r0 hpos
    have hdiv := Nat.mod_add_div r0 r1
    have hq : r1 * 1 ≤ r1 * (r0 / r1) := Nat.mul_le_mul_left _ (Nat.div_pos hle hpos)
    omega
  have : 2 * (r1 * (r0 % r1)) ≤ r0 * r1 := by
    calc 2 * (r1 * (r0 % r1)) = r1 * (2 * (r0 % r1)) := by ring
      _ ≤ r1 * r0 := Nat.mul_le_mul_left _ hhalf
      _ = r0 * r1 := mul_comm _ _
  rw [pow_succ] at h
  omega

theorem euclid_inverse {m a k : Nat} (hm : 0 < m) {r0 t0 r1 t1 : Nat} (h0 : t0 * a ≡ r0 [MOD m]) (h1 : t1 * a ≡ r1 [MOD m]) (hle : r1 ≤ r0)
    (hk : r0 * r1 < 2 ^ k) (hg : Nat.gcd r0 r1 = 1) : ∃ w, euclid m (k + 1) r0 t0 r1 t1 = some w ∧ w < m ∧ w * a ≡ 1 [MOD m] := by
  induction k generalizing r0 t0 r1 t1 with
  | zero =>
    have hr1 : r1 = 0 := by
      have : r0 * r1 = 0 := by omega
      rcases Nat.mul_eq_zero.mp this with h | h <;> omega
    subst hr1
    have hr0 : r0 = 1 := by simpa using hg
    subst hr0
    exact ⟨t0 % m, by simp [euclid], Nat.mod_lt _ hm, ((Nat.mod_modEq _ _).mul_right a).trans h0⟩
  | succ k ih =>
    by_cases hr1 : r1 = 0
    · subst hr1
      have hr0 : r0 = 1 := by simpa using hg
      subst hr0
      exact ⟨t0 % m, by simp [euclid], Nat.mod_lt _ hm, ((Nat.mod_modEq _ _).mul_right a).trans h0⟩
    · have hpos : 0 < r1 := Nat.pos_of_ne_zero hr1
      rw [euclid, if_neg hr1]
      refine ih h1 (euclid_step hm h0 h1) (Nat.mod_lt _ hpos).le (euclid_halves hpos hle hk) ?_
      rwa [Nat.gcd_comm, ← Nat.gcd_rec, Nat.gcd_comm]

/-- Where the numbers share a factor Euclid ends at it, and finds no inverse. -/
theorem euclid_none {m k r0 t0 r1 t1 : Nat} (hg : Nat.gcd r0 r1 ≠ 1) : euclid m k r0 t0 r1 t1 = none := by
  induction k generalizing r0 t0 r1 t1 with
  | zero => rfl
  | succ k ih =>
    by_cases hr1 : r1 = 0
    · subst hr1
      have hr0 : r0 ≠ 1 := by simpa using hg
      simp [euclid, hr0]
    · rw [euclid, if_neg hr1]
      refine ih ?_
      rwa [Nat.gcd_comm, ← Nat.gcd_rec, Nat.gcd_comm]

theorem mul_lt_two_pow {a b m n : Nat} (hm : m < 2 ^ b) (ha : a < 2 ^ b) (h : b + b ≤ n) : m * a < 2 ^ n :=
  calc m * a < 2 ^ b * 2 ^ b := Nat.mul_lt_mul'' hm ha
    _ = 2 ^ (b + b) := (pow_add 2 b b).symm
    _ ≤ 2 ^ n := Nat.pow_le_pow_right Nat.two_pos h

/-- An inverse below a modulus of at most 8,192 bits is the one that Euclid finds. -/
theorem modInverse_eq {b m a v : Nat} (hb : b ≤ 8192) (hm : m < 2 ^ b) (ha : a < m) (hv : v < m) (h : a * v ≡ 1 [MOD m]) :
    modInverse m a = some v := by
  have hpos : 0 < m := by omega
  have hcop : Nat.gcd a m = 1 := Nat.coprime_of_mul_modEq_one v h
  have hprod : m * a < 2 ^ 16499 := mul_lt_two_pow hm (ha.trans hm) (by omega)
  obtain ⟨w, hw, hwm, hinv⟩ := euclid_inverse (a := a) hpos (by simp [Nat.ModEq] : 0 * a ≡ m [MOD m])
    (by rw [one_mul] : 1 * a ≡ a [MOD m]) ha.le
    hprod (by rwa [Nat.gcd_comm])
  have hsame : v = w := Nat.ModEq.eq_of_lt_of_lt
    (calc v = 1 * v := (one_mul v).symm
      _ ≡ w * a * v [MOD m] := hinv.symm.mul_right v
      _ = w * (a * v) := mul_assoc ..
      _ ≡ w * 1 [MOD m] := h.mul_left w
      _ = w := mul_one w) hv hwm
  rw [modInverse, Nat.mod_eq_of_lt ha, hw, hsame]

theorem modInverse_none {m a : Nat} (ha : a < m) (h : Nat.gcd a m ≠ 1) : modInverse m a = none := by
  rw [modInverse, Nat.mod_eq_of_lt ha]
  exact euclid_none (by rwa [Nat.gcd_comm])

/-! ### The operations -/

variable {s t : State} {rid : Nat} {r : Req} {op : Op} {src : Bytes}

/-- BNE_OPS counts an operation that has produced its result. -/
def State.bneCounted (u : State) (rid : Nat) (r : Req) : State :=
  if (u.findReq rid).map (·.phase) = some .produced then u.setReg .bneOps (u.reg .bneOps r.inst + 1) r.inst else u

theorem State.bneOp_counted (h : s.Runs rid r op) {f : State → Req → State} {u : State} (hu : f s r = u) :
    s.bneOp rid op f = u.bneCounted rid r := by
  rw [State.bneOp_runs h, hu, State.bneCounted]

theorem State.withSource_ok (h : s.srcOf r = .ok src) (f : State → Bytes → State) : s.withSource r f = f s src := by
  simp only [State.withSource, h]

theorem lt_of_modulusOk {b m : Nat} (h : modulusOk b m = true) : m < 2 ^ b := by
  simp only [modulusOk, Bool.and_eq_true, decide_eq_true_eq] at h
  obtain ⟨-, -, hlt⟩ := h
  exact hlt

theorem State.bneModmul_multiplies (hr : s.Runs rid r .modmul) (hs : s.srcOf r = .ok src) {k m a b : Nat} (hk : r.desc.modBytes = k)
    (hm : leNat (slice src 0 k) = m) (ha : leNat (slice src k k) = a) (hb : leNat (slice src (2 * k) k) = b)
    (hok : modulusOk r.desc.modBits m = true) (ham : a < m) (hbm : b < m) :
    s.bneModmul rid = (s.succeed rid (toLe k (a * b % m))).bneCounted rid r := by
  subst hk hm ha hb
  refine State.bneOp_counted hr ?_
  simp only [State.withSource_ok hs, hok, Nat.not_le.mpr ham, Nat.not_le.mpr hbm, Bool.not_true, Bool.false_eq_true, or_self, if_false]

theorem State.bneModexp_powers (hr : s.Runs rid r .modexp) (hs : s.srcOf r = .ok src) {k m a b : Nat} (hk : r.desc.modBytes = k)
    (hm : leNat (slice src 0 k) = m) (ha : leNat (slice src k k) = a) (hb : leNat (slice src (2 * k) k) = b)
    (hok : modulusOk r.desc.modBits m = true) (ham : a < m) :
    s.bneModexp rid = (s.succeed rid (toLe k (a ^ b % m))).bneCounted rid r := by
  subst hk hm ha hb
  refine State.bneOp_counted hr ?_
  simp only [State.withSource_ok hs, hok, Nat.not_le.mpr ham, Bool.not_true, Bool.false_eq_true, if_false, modPow_eq _ _ (leNat_slice_lt ..)]

theorem State.bneModinv_inverts (hr : s.Runs rid r .modinv) (hs : s.srcOf r = .ok src) {k m a v : Nat} (hk : r.desc.modBytes = k)
    (hm : leNat (slice src 0 k) = m) (ha : leNat (slice src k k) = a) (hok : modulusOk r.desc.modBits m = true) (hpos : 0 < a) (ham : a < m)
    (hv : modInverse m a = some v) : s.bneModinv rid = (s.succeed rid (toLe k v)).bneCounted rid r := by
  subst hk hm ha
  refine State.bneOp_counted hr ?_
  simp only [State.withSource_ok hs, hok, hpos.ne', Nat.not_le.mpr ham, hv, Bool.not_true, Bool.false_eq_true, if_false]

theorem State.bneModinv_none (hr : s.Runs rid r .modinv) (hs : s.srcOf r = .ok src) {k m a : Nat} (hk : r.desc.modBytes = k)
    (hm : leNat (slice src 0 k) = m) (ha : leNat (slice src k k) = a) (hok : modulusOk r.desc.modBits m = true) (hpos : 0 < a) (ham : a < m)
    (hv : modInverse m a = none) : s.bneModinv rid = (s.edge r k .inputRange (some 0x0712)).bneCounted rid r := by
  subst hk hm ha
  refine State.bneOp_counted hr ?_
  simp only [State.withSource_ok hs, hok, hpos.ne', Nat.not_le.mpr ham, hv, Bool.not_true, Bool.false_eq_true, if_false]

/-- An invalid modulus ends each of the modular opcodes. -/
theorem exec_badModulus (hs : s.srcOf r = .ok src) (hm : modulusOk r.desc.modBits (leNat (slice src 0 r.desc.modBytes)) = false) :
    ∀ row ∈ ([(.modmul, .modmul), (.modexp, .modexp), (.modinv, .modinv)] : List ((Nat → Instr) × Op)), s.Runs rid r row.2 →
      exec (row.1 rid) s = .next (s.wrapUp ((s.failOp rid ⟨.paramInvalid, none⟩).bneCounted rid r)) := by
  simp only [List.forall_mem_cons]
  refine ⟨?mul, ?exp, ?inv, nofun⟩
  case mul => exact fun hr => State.next_congr (State.bneOp_counted hr (by simp only [State.withSource_ok hs, hm, Bool.not_false, if_true]))
  case exp => exact fun hr => State.next_congr (State.bneOp_counted hr (by simp only [State.withSource_ok hs, hm, Bool.not_false, if_true]))
  case inv => exact fun hr => State.next_congr (State.bneOp_counted hr (by simp only [State.withSource_ok hs, hm, Bool.not_false, if_true]))

/-- PRIME_TEST answers 1 for 3 and for an odd candidate above it that every round passes. -/
theorem State.bnePrimeTest_judges (hr : s.Runs rid r .primeTest) (hs : s.srcOf r = .ok src) :
    s.bnePrimeTest rid = (s.drawn.succeed rid
      [if leNat src % 2 = 1 ∧ 3 ≤ leNat src ∧ (leNat src = 3 ∨ ∀ i < r.desc.rounds, millerRabin (leNat src) (s.primeBase r (leNat src) i) = true)
       then 0x01 else 0x00]).bneCounted rid r := by
  have hrounds : ((numsFrom 0 r.desc.rounds).all (fun i => millerRabin (leNat src) (s.primeBase r (leNat src) i)) = true) ↔
      ∀ i < r.desc.rounds, millerRabin (leNat src) (s.primeBase r (leNat src) i) = true := by
    simp only [List.all_eq_true, mem_numsFrom, Nat.zero_le, true_and, Nat.zero_add]
  refine State.bneOp_counted hr ?_
  simp only [State.withSource_ok hs, Bool.and_eq_true, Bool.or_eq_true, decide_eq_true_eq, beq_iff_eq, hrounds, and_assoc]

end Sys2Proof.Machine

open Sys2Proof.Machine in
/-- Settles O45: products, powers and inverses modulo m, what an invalid modulus or an operand without an inverse gives, and the prime test. -/
theorem modularArithmetic : Obligations.ModularArithmetic := by
  unfold Obligations.ModularArithmetic
  intro s rid v r src counted k m a b hs hbits
  refine ⟨?modmul, ?modexp, ?modinv, ?noInverse, ?badModulus, ?primeTest⟩
  case modmul => exact fun hr hok ha hb => State.next_congr (State.bneModmul_multiplies hr hs rfl rfl rfl rfl hok ha hb)
  case modexp => exact fun hr hok ha => State.next_congr (State.bneModexp_powers hr hs rfl rfl rfl rfl hok ha)
  case modinv =>
    intro hr hok hpos ha h1 hv hinv
    have hmod : a * v ≡ 1 [MOD m] := hinv.trans (Nat.mod_eq_of_lt h1).symm
    exact State.next_congr (State.bneModinv_inverts hr hs rfl rfl rfl hok hpos ha (modInverse_eq hbits (lt_of_modulusOk hok) ha hv hmod))
  case noInverse =>
    exact fun hr hok hpos ha hg => State.next_congr (State.bneModinv_none hr hs rfl rfl rfl hok hpos ha (modInverse_none ha hg))
  case badModulus => exact fun row hrow hr hok => exec_badModulus hs hok row hrow hr
  case primeTest => exact fun hr => State.next_congr (State.bnePrimeTest_judges hr hs)

end

section
/-!
PROOFS. RSA (R368 to R371) and elliptic curves (R373 to R380).
-/
namespace Sys2Proof.Machine

variable {s t : State} {rid : Nat} {r : Req} {op : Op} {m : KeyMat} {src : Bytes} {h : W32}

/-! ### RSA with the public key -/

theorem rsaExpOk_iff (e : Nat) : rsaExpOk e = true ↔ e % 2 = 1 ∧ 3 ≤ e := by
  simp only [rsaExpOk, Bool.and_eq_true, decide_eq_true_eq]

/-- The public operation raises to the exponent of the key, which has 256 bits. -/
theorem modPow_public (n x : Nat) (b : Bytes) (k : Nat) : modPow n 256 x (beNat (slice b k 32)) = x ^ beNat (slice b k 32) % n :=
  modPow_eq n x (beNat_slice_lt b k 32)

section
variable (hs : s.srcOf r = .ok src) {k n e : Nat} (hk : r.desc.modBytes = k) (hn : beNat (r.aux.take k) = n) (he : beNat (slice r.aux k 32) = e)
  (hmod : modulusOk r.desc.modBits n = true) (hexp : rsaExpOk e = true)
include hs hk hn he hmod hexp

theorem State.bneRsaPublic_powers (hr : s.Runs rid r .rsaPublic) (hpos : 0 < beNat src) (hlt : beNat src < n) :
    s.bneRsaPublic rid = (s.succeed rid (toBe k (beNat src ^ e % n))).bneCounted rid r := by
  subst hk hn he
  refine State.bneOp_counted hr ?_
  simp only [State.withSource_ok hs, hmod, hexp, Bool.not_true, Bool.or_self, Bool.false_eq_true, hpos.ne', Nat.not_le.mpr hlt, if_false,
    modPow_public]

theorem State.bneRsaPublic_zero (hr : s.Runs rid r .rsaPublic) (hz : beNat src = 0) :
    s.bneRsaPublic rid = (s.edge r k .inputRange (some 0x0710)).bneCounted rid r := by
  subst hk hn he
  refine State.bneOp_counted hr ?_
  simp only [State.withSource_ok hs, hmod, hexp, Bool.not_true, Bool.or_self, Bool.false_eq_true, hz, if_false, if_true, State.edgeZero]

theorem State.bneRsaPublic_outOfRange (hr : s.Runs rid r .rsaPublic) (hle : n ≤ beNat src) (hz : beNat src ≠ 0) :
    s.bneRsaPublic rid = (s.edge r k .inputRange (some 0x0711)).bneCounted rid r := by
  subst hk hn he
  refine State.bneOp_counted hr ?_
  simp only [State.withSource_ok hs, hmod, hexp, Bool.not_true, Bool.or_self, Bool.false_eq_true, hz, hle, if_false, if_true, State.edgeRange]

theorem State.bnePssVerify_judges (hr : s.Runs rid r .rsaPssVerify) {sig : Nat} (hsig : beNat (src.take k) = sig) :
    s.bnePssVerify rid =
      (if 0 < sig ∧ sig < n ∧ pssOk r.desc.algN k r.desc.saltLen (pssDigestOf r.desc (src.drop k)) (toBe k (sig ^ e % n)) = true then s.succeed rid []
       else s.failOp rid ⟨.verifyFailed, none⟩).bneCounted rid r := by
  subst hk hn he hsig
  refine State.bneOp_counted hr ?_
  simp only [State.withSource_ok hs, hmod, hexp, Bool.not_true, Bool.or_self, Bool.false_eq_true, if_false, modPow_public]
  exact State.verdict_iff (by simp only [Bool.and_eq_true, decide_eq_true_eq, and_assoc, Nat.pos_iff_ne_zero, ne_eq]) _ _

theorem State.bneOaepEncrypt_encrypts (hr : s.Runs rid r .rsaOaepEncrypt) {em : Bytes}
    (hem : oaepEncode r.desc.algN k src (r.aux.drop (k + 32)) (s.value r (hashLen r.desc.algN 0)) = em) :
    s.bneOaepEncrypt rid = (s.drawn.succeed rid (toBe k (beNat em ^ e % n))).bneCounted rid r := by
  subst hk hn he hem
  refine State.bneOp_counted hr ?_
  simp only [State.withSource_ok hs, hmod, hexp, Bool.not_true, Bool.or_self, Bool.false_eq_true, if_false, modPow_public]

end

/-! ### RSA with the secret exponent -/

theorem State.withRsa_keyed {need : KeyNeed} (hk : s.keyed r need [1] = some (t, m, src)) (hok : (rsaKeyOf m.bytes).ok m.bytes = true)
    (f : State → RsaKey → Bytes → State) : s.withRsa r need f = f t (rsaKeyOf m.bytes) src := by
  simp only [State.withRsa, State.withKey_keyed hk, hok, Bool.not_true, Bool.false_eq_true, if_false]

/-- The result check of R366: the result raised to the key's exponent gives the input back. -/
theorem rsaCheck_iff (b : Bytes) (x y : Nat) :
    modPow (rsaKeyOf b).n 256 (x % (rsaKeyOf b).n) (rsaKeyOf b).e = y ↔ x ^ (rsaKeyOf b).e % (rsaKeyOf b).n = y := by
  rw [modPow_eq (rsaKeyOf b).n _ (show (rsaKeyOf b).e < 2 ^ 256 from beNat_slice_lt ..), ← Nat.pow_mod]

theorem State.rsaPrivate_checked {b : Bytes} {y : Nat}
    (hc : (rsaKeyOf b).apply y ^ (rsaKeyOf b).e % (rsaKeyOf b).n = y) (f : State → Nat → State) :
    s.rsaPrivate r (rsaKeyOf b) y f = f s ((rsaKeyOf b).apply y) := by
  simp only [State.rsaPrivate, (rsaCheck_iff _ _ _).mpr hc, ne_eq, not_true, if_false]

theorem State.rsaPrivate_unchecked {b : Bytes} {y : Nat}
    (hc : ¬(rsaKeyOf b).apply y ^ (rsaKeyOf b).e % (rsaKeyOf b).n = y) (f : State → Nat → State) :
    s.rsaPrivate r (rsaKeyOf b) y f = s.checkFail r := by
  simp only [State.rsaPrivate, (rsaCheck_iff _ _ _).not.mpr hc, ne_eq, not_false_eq_true, if_true]

section
variable {need : KeyNeed} {k : RsaKey} (hkey : rsaKeyOf m.bytes = k) {n : Nat} (hn : k.bits / 8 = n)
include hkey hn

/-- RSA_PRIVATE_CRT comes to RSA_PRIVATE's operation, with its check. -/
theorem State.bneRsaPrivateCrt_applies (hr : s.Runs rid r .rsaPrivateCrt)
    (hk : s.keyed r { usages := [usSign, usDecrypt], unlocked := true } [1] = some (t, m, src)) (hok : k.ok m.bytes = true)
    (hl : src.length = n) (hd : n ≤ r.desc.dstLen.toNat) (hpos : 0 < beNat src) (hlt : beNat src < k.n) :
    s.bneRsaPrivateCrt rid = (t.drawn.rsaPrivate r k (beNat src) (fun s x => s.succeed rid (toBe n x))).bneCounted rid r := by
  subst hkey hn
  refine State.bneOp_counted hr ?_
  simp only [State.withRsa_keyed hk hok, hl, Nat.not_lt.mpr hd, hpos.ne', Nat.not_le.mpr hlt, ne_eq, not_true, or_self, if_false]

theorem State.bnePssSign_applies (hr : s.Runs rid r .rsaPssSign) (hk : s.keyed r { usages := [usSign] } [1] = some (t, m, src))
    (hok : k.ok m.bytes = true) (hl : r.desc.pssDigest = true → src.length = hashLen r.desc.algN 0) (hd : n ≤ r.desc.dstLen.toNat) {em : Nat}
    (hem : beNat (pssEncode r.desc.algN n (pssDigestOf r.desc src) (t.value r r.desc.saltLen)) = em) :
    s.bnePssSign rid = (t.drawn.rsaPrivate r k em (fun s x => s.succeed rid (toBe n x))).bneCounted rid r := by
  subst hkey hn hem
  have hlen : (r.desc.pssDigest && decide (src.length ≠ hashLen r.desc.algN 0)) = false := by
    cases hp : r.desc.pssDigest
    · rfl
    · simp [hl hp]
  refine State.bneOp_counted hr ?_
  simp only [State.withRsa_keyed hk hok, hlen, Nat.not_lt.mpr hd, Bool.false_eq_true, or_self, if_false]

/-- RSA_OAEP_DECRYPT comes to RSA_PRIVATE's operation and decodes what it gives. -/
theorem State.bneOaepDecrypt_applies (hr : s.Runs rid r .rsaOaepDecrypt) (hk : s.keyed r { usages := [usDecrypt] } [1] = some (t, m, src))
    (hok : k.ok m.bytes = true) (hl : src.length = n) (hpos : 0 < beNat src) (hlt : beNat src < k.n)
    (hc : k.apply (beNat src) ^ k.e % k.n = beNat src) {u : State} (hnone : oaepDecode r.desc.algN n (toBe n (k.apply (beNat src))) r.aux = none →
      u = t.drawn.failOp rid ⟨.verifyFailed, none⟩)
    (hsome : ∀ msg, oaepDecode r.desc.algN n (toBe n (k.apply (beNat src))) r.aux = some msg →
      u = if r.desc.dstLen.toNat < msg.length then t.drawn.failOp rid ⟨.badLength, none⟩ else t.drawn.succeed rid msg) :
    s.bneOaepDecrypt rid = u.bneCounted rid r := by
  subst hkey hn
  refine State.bneOp_counted hr ?_
  simp only [State.withRsa_keyed hk hok, hl, hpos.ne', Nat.not_le.mpr hlt, ne_eq, not_true, if_false, State.rsaPrivate_checked hc]
  cases hmsg : oaepDecode r.desc.algN _ (toBe _ ((rsaKeyOf m.bytes).apply (beNat src))) r.aux with
  | none => exact (hnone hmsg).symm
  | some msg => exact (hsome msg hmsg).symm

end

/-- RSA_KEYGEN: the primes found give a wrapped key, or the engine's fault. -/
theorem State.bneRsaKeygen_gives (hr : s.Runs rid r .rsaKeygen) (hk : s.keyed r { usages := [usWrap], lens := [32] } = some (t, m, src))
    (hodd : beNat r.aux % 2 = 1) (hbig : 2 ^ 16 < beNat r.aux) {seed : Bytes} (hseed : t.value r 64 = seed) {prime : Nat → Nat}
    (hprime : ∀ i, beNat (fit (r.desc.modBits / 16) (Config.std .rsaPrime [toLe 2 r.desc.modBits, r.aux, seed, toLe 1 i])) = prime i) {plain : Bytes}
    (hplain : rsaPlain r.desc.modBits (beNat r.aux) (prime 0) (prime 1) = plain) {usage : Nat}
    (husage : (if fld r.desc.param 17 16 = 0 then usSign else usDecrypt) = usage) :
    s.bneRsaKeygen rid =
      (if Config.holds .rsaPrime [toLe 2 r.desc.modBits, r.aux, seed] = true ∧ (rsaKeyOf plain).ok plain = true then
        t.drawn.drawn.succeed rid (plain.take r.desc.modBytes ++
          t.drawn.makeBlob r.ptn 1 r.desc.modBits { usage := usage } plain (t.drawn.value r 12 64) m.bytes)
       else ((t.drawn.setB .bneErr 3 true r.inst).event srcBneEngine (t.unitDomain 5 r.inst) r.inst).failOp rid
        ⟨.engineFault, none⟩).bneCounted rid r := by
  subst hseed hplain husage
  have hexp : ¬(beNat r.aux % 2 = 0 ∨ beNat r.aux ≤ 2 ^ 16) := by omega
  refine State.bneOp_counted hr ?_
  simp only [State.withKey_keyed hk, hexp, if_false, hprime]
  have hcond : ((!Config.holds .rsaPrime [toLe 2 r.desc.modBits, r.aux, t.value r 64] ||
      !(rsaKeyOf (rsaPlain r.desc.modBits (beNat r.aux) (prime 0) (prime 1))).ok (rsaPlain r.desc.modBits (beNat r.aux) (prime 0) (prime 1))) = true) ↔
      ¬(Config.holds .rsaPrime [toLe 2 r.desc.modBits, r.aux, t.value r 64] = true ∧
        (rsaKeyOf (rsaPlain r.desc.modBits (beNat r.aux) (prime 0) (prime 1))).ok (rsaPlain r.desc.modBits (beNat r.aux) (prime 0) (prime 1)) =
          true) := by
    simp only [Bool.or_eq_true, Bool.not_eq_true', ← Bool.not_eq_true, not_and_or]
  simp only [hcond, ite_not]
  rfl

/-! ### Elliptic curves -/

theorem Curve.scalarFault_none {c : Curve} {b : Bytes} (hpos : 0 < beNat b) (hlt : beNat b < c.n) : c.scalarFault b = none := by
  simp only [Curve.scalarFault, hpos.ne', Nat.not_le.mpr hlt, if_false]

theorem State.bneEcdsaSign_signs (hr : s.Runs rid r .ecdsaSign) {l : Nat} (hl : s.curveLen r.desc.algN = l) {c : Curve} (hc : s.curveOf r.desc.algN = c)
    (hallow : s.curveAllows r.desc.algN 0 = true) (hk : s.keyed r (s.curveKey r usSign) = some (t, m, src))
    (hmsg : ecMsgOk r.desc src.length 0 = true) (hpos : 0 < beNat m.bytes) (hlt : beNat m.bytes < c.n) {sig : Nat × Nat}
    (hsig : c.ecdsa (t.ecNonce r c m.bytes (ecDigestOf r.desc src)) (beNat m.bytes) (ecDigestOf r.desc src) = sig) :
    s.bneEcdsaSign rid =
      (if sig.1 = 0 ∨ sig.2 = 0 then t.drawn.failOp rid ⟨.engineFault, none⟩
       else t.drawn.succeed rid (toBe l sig.1 ++ toBe l sig.2)).bneCounted rid r := by
  subst hl hc hsig
  refine State.bneOp_counted hr ?_
  simp only [hallow, State.withKey_keyed hk, hmsg, Curve.scalarFault_none hpos hlt, Bool.not_true, Bool.false_eq_true, if_false]

theorem State.bneEcdsaVerify_judges (hr : s.Runs rid r .ecdsaVerify) (hs : s.srcOf r = .ok src) {l : Nat} (hl : s.curveLen r.desc.algN = l)
    {c : Curve} (hc : s.curveOf r.desc.algN = c) (hallow : s.curveAllows r.desc.algN 0 = true) (hpoint : c.pointFault l r.aux = none) :
    s.bneEcdsaVerify rid =
      (if c.ecdsaOk l r.aux (beNat (src.take l)) (beNat (slice src l l)) (ecDigestOf r.desc (src.drop (2 * l))) = true then s.succeed rid []
       else s.failOp rid ⟨.verifyFailed, none⟩).bneCounted rid r := by
  subst hl hc
  refine State.bneOp_counted hr ?_
  simp only [State.withSource_ok hs, hallow, hpoint, Bool.not_true, Bool.false_eq_true, if_false]
  exact State.verdict_iff Iff.rfl _ _

theorem State.bneEddsaSign_signs (hr : s.Runs rid r .eddsaSign) (hlong : edTooLong r = false)
    (hk : s.keyed r (s.curveKey r usSign) = some (t, m, src)) (hmsg : edMsgOk r.desc src.length 0 = true) :
    s.bneEddsaSign rid = (t.drawn.succeed rid (edSign r.desc m.bytes r.aux src)).bneCounted rid r := by
  refine State.bneOp_counted hr ?_
  simp only [hlong, State.withKey_keyed hk, hmsg, Bool.not_true, Bool.false_eq_true, if_false]

theorem State.bneEddsaVerify_judges (hr : s.Runs rid r .eddsaVerify) (hs : s.srcOf r = .ok src) {l : Nat} (hl : s.curveLen r.desc.algN = l)
    (hlong : edTooLong r = false) (hpoint : (edCurve r.desc.algN).keyFault (r.aux.take l) = none) :
    s.bneEddsaVerify rid =
      (if edVerify r.desc (r.aux.take l) (r.aux.drop l) (src.take (2 * l)) (src.drop (2 * l)) = true then s.succeed rid []
       else s.failOp rid ⟨.verifyFailed, none⟩).bneCounted rid r := by
  subst hl
  refine State.bneOp_counted hr ?_
  simp only [State.withSource_ok hs, hlong, hpoint, Bool.false_eq_true, if_false]
  exact State.verdict_iff Iff.rfl _ _

/-- A shared value goes to the hold, or to the object of RESULT_H that takes it (R375). -/
theorem State.giveShared_hold (hh : r.desc.holdOut = true) (b : Bytes) : s.giveShared r b = s.succeed r.id b := if_pos hh

theorem State.giveShared_target {b : Bytes} (hh : r.desc.holdOut = false) (hf : s.resultFault r 0 [usDerive] b.length = none)
    (hr : s.resolve r r.desc.resultH = some h) : s.giveShared r b = (s.putTarget r b).succeed r.id [] h := by
  simp only [State.giveShared, hh, Bool.false_eq_true, if_false]
  exact State.giveKeyPair_target hf hr

section
variable (hr : s.Runs rid r .ecdh) {l : Nat} (hl : s.curveLen r.desc.algN = l) {c : Curve} (hc : s.curveOf r.desc.algN = c)
  (hallow : s.curveAllows r.desc.algN 1 = true) (hk : s.keyed r (s.curveKey r usDerive) = some (t, m, src)) (hlen : src.length = 1 + 2 * l)
  (hpos : 0 < beNat m.bytes) (hlt : beNat m.bytes < c.n) (hpoint : c.pointFault l src = none)
include hr hl hc hallow hk hlen hpos hlt hpoint

theorem State.bneEcdh_shares {x y : Nat} (hxy : c.times (c.h * beNat m.bytes) (some (pointAt l src)) = some (x, y)) :
    s.bneEcdh rid = (t.drawn.giveShared r (toBe l x)).bneCounted rid r := by
  subst hl hc
  refine State.bneOp_counted hr ?_
  simp only [hallow, State.withKey_keyed hk, hlen, Curve.scalarFault_none hpos hlt, hpoint, hxy, Bool.not_true, Bool.false_eq_true, ne_eq, not_true,
    if_false]

theorem State.bneEcdh_identity (hxy : c.times (c.h * beNat m.bytes) (some (pointAt l src)) = none) :
    s.bneEcdh rid = (t.drawn.edge r (if r.desc.holdOut then l else 0) .resultIdentity none).bneCounted rid r := by
  subst hl hc
  refine State.bneOp_counted hr ?_
  simp only [hallow, State.withKey_keyed hk, hlen, Curve.scalarFault_none hpos hlt, hpoint, hxy, Bool.not_true, Bool.false_eq_true, ne_eq, not_true,
    if_false, State.edgeIdentity, Desc.sharedOut]

end

theorem State.bneXdh_shares (hr : s.Runs rid r .xdh) {l : Nat} (hl : s.curveLen r.desc.algN = l)
    (hk : s.keyed r (s.curveKey r usDerive) = some (t, m, src)) (hlen : src.length = l) {u : Nat} (hu : montU r.desc.algN src = u) (hpos : 0 < u)
    (hlt : u < montP r.desc.algN) {v : Bytes} (hv : xdhFn r.desc.algN m.bytes u = v) (hz : allZero v = false) :
    s.bneXdh rid = (t.drawn.giveShared r v).bneCounted rid r := by
  subst hl hu hv
  refine State.bneOp_counted hr ?_
  simp only [State.withKey_keyed hk, hlen, hpos.ne', Nat.not_le.mpr hlt, hz, ne_eq, not_true, Bool.false_eq_true, if_false]

theorem State.bneEcKeygen_gives (hr : s.Runs rid r .ecKeygen) (h0 : s.keygenUsage r = usSign → s.curveAllows r.desc.algN 0 = true)
    (h1 : s.keygenUsage r = usDerive → s.curveAllows r.desc.algN 1 = true)
    (hf : s.drawn.resultFault r 0 [usSign, usDerive] (s.newScalar r).length = none) (hres : s.drawn.resolve r r.desc.resultH = some h) :
    s.bneEcKeygen rid =
      ((s.drawn.putTarget r (s.newScalar r)).succeed r.id (s.ecPublic r.desc.algN (s.newScalar r)) h).bneCounted rid r := by
  have hno : ¬((s.keygenUsage r = usSign ∧ (!s.curveAllows r.desc.algN 0) = true) ∨
      (s.keygenUsage r = usDerive ∧ (!s.curveAllows r.desc.algN 1) = true)) := by
    rintro (⟨hu, hb⟩ | ⟨hu, hb⟩)
    · simp [h0 hu] at hb
    · simp [h1 hu] at hb
  refine State.bneOp_counted hr ((if_neg hno).trans ?_)
  exact State.giveKeyPair_target hf hres

end Sys2Proof.Machine

open Sys2Proof.Machine in
/-- Settles O46: the public operation and its edges, the one with the secret exponent and its check, PSS and OAEP over
their encodings, and a generated key. -/
theorem rsaOperations : Obligations.RsaOperations := by
  unfold Obligations.RsaOperations
  refine ⟨?pub, ?priv⟩
  case pub =>
    intro s rid r src counted k n e sig em hs hmod hodd hthree
    have hexp : rsaExpOk e = true := (rsaExpOk_iff e).mpr ⟨hodd, hthree⟩
    refine ⟨?powers, ?zero, ?range, ?verify, ?encrypt⟩
    case powers => exact fun hr hpos hlt => State.next_congr (State.bneRsaPublic_powers hs rfl rfl rfl hmod hexp hr hpos hlt)
    case zero => exact fun hr hz => State.next_congr (State.bneRsaPublic_zero hs rfl rfl rfl hmod hexp hr hz)
    case range => exact fun hr hle hz => State.next_congr (State.bneRsaPublic_outOfRange hs rfl rfl rfl hmod hexp hr hle hz)
    case verify => exact fun hr => State.next_congr (State.bnePssVerify_judges hs rfl rfl rfl hmod hexp hr rfl)
    case encrypt => exact fun hr => State.next_congr (State.bneOaepEncrypt_encrypts hs rfl rfl rfl hmod hexp hr rfl)
  case priv =>
    intro s t rid r m src counted d k n y checked em seed prime plain usage
    refine ⟨?crt, ?crtFault, ?sign, ?decrypt, ?keygen⟩
    case crt =>
      intro hr hk hok hl hd hpos hlt hc
      exact State.next_congr ((State.bneRsaPrivateCrt_applies rfl rfl hr hk hok hl hd hpos hlt).trans
        (congrArg (State.bneCounted · rid r) (State.rsaPrivate_checked hc _)))
    case crtFault =>
      intro hr hk hok hl hd hpos hlt hc
      exact State.next_congr ((State.bneRsaPrivateCrt_applies rfl rfl hr hk hok hl hd hpos hlt).trans
        (congrArg (State.bneCounted · rid r) (State.rsaPrivate_unchecked hc _)))
    case sign =>
      intro hr hk hok hl hd hc
      exact State.next_congr ((State.bnePssSign_applies rfl rfl hr hk hok hl hd rfl).trans
        (congrArg (State.bneCounted · rid r) (State.rsaPrivate_checked hc _)))
    case decrypt =>
      intro hr hk hok hl hpos hlt hc
      refine State.next_congr (State.bneOaepDecrypt_applies rfl rfl hr hk hok hl hpos hlt hc ?_ ?_)
      · intro hnone
        simp only [n, k, y, d, hnone]
      · intro msg hsome
        simp only [n, k, y, d, hsome]
    case keygen =>
      exact fun hr hk hodd hbig => State.next_congr (State.bneRsaKeygen_gives hr hk hodd hbig rfl (fun _ => rfl) rfl rfl)

open Sys2Proof.Machine in
/-- Settles O47: signatures and verdicts, shared values to the hold or the slot, and a generated key with its public key. -/
theorem ellipticCurveOperations : Obligations.EllipticCurveOperations := by
  unfold Obligations.EllipticCurveOperations
  refine ⟨?signatures, ?agreements⟩
  case signatures =>
    intro s t rid r m src counted d l c digest sig
    refine ⟨?ecSign, ?ecVerify, ?edSign, ?edVerify⟩
    case ecSign => exact fun hr ha hk hm hpos hlt => State.next_congr (State.bneEcdsaSign_signs hr rfl rfl ha hk hm hpos hlt rfl)
    case ecVerify => exact fun hr hs ha hp => State.next_congr (State.bneEcdsaVerify_judges hr hs rfl rfl ha hp)
    case edSign => exact fun hr hlong hk hm => State.next_congr (State.bneEddsaSign_signs hr hlong hk hm)
    case edVerify => exact fun hr hs hlong hp => State.next_congr (State.bneEddsaVerify_judges hr hs rfl hlong hp)
  case agreements =>
    intro s t rid r m src h counted d l c u v given priv
    have hcount {a b : State} (hab : a = b) : a.bneCounted rid r = b.bneCounted rid r := congrArg (State.bneCounted · rid r) hab
    refine ⟨?ecdh, ?xdh, ?keygen⟩
    case ecdh =>
      intro hr ha hk hlen hpos hlt hp
      refine ⟨fun x y hxy => ?_, fun hxy => ?_⟩
      · have hgives := State.bneEcdh_shares hr rfl rfl ha hk hlen hpos hlt hp hxy
        refine ⟨fun hh => ?_, fun hh hgiven => ?_⟩
        · exact State.next_congr (hgives.trans (hcount (State.giveShared_hold hh _)))
        · obtain ⟨hf, hres⟩ := hgiven
          exact State.next_congr (hgives.trans (hcount (State.giveShared_target hh hf hres)))
      · exact State.next_congr (State.bneEcdh_identity hr rfl rfl ha hk hlen hpos hlt hp hxy)
    case xdh =>
      intro hr hk hlen hpos hlt hz
      have hgives := State.bneXdh_shares hr rfl hk hlen rfl hpos hlt rfl hz
      refine ⟨fun hh => ?_, fun hh hgiven => ?_⟩
      · exact State.next_congr (hgives.trans (hcount (State.giveShared_hold hh _)))
      · obtain ⟨hf, hres⟩ := hgiven
        exact State.next_congr (hgives.trans (hcount (State.giveShared_target hh hf hres)))
    case keygen => exact fun hr h0 h1 hf hres => State.next_congr (State.bneEcKeygen_gives hr h0 h1 hf hres)

end

section
/-!
PROOFS. Operand memories (R359 to R362) and loadable curves (R381 to R383).
-/
namespace Sys2Proof.Machine

variable {s t : State} {acc : Access} {d : W32} {i k n : Nat} {entry : Bytes}

theorem bneCfg_addr : ∀ n : Fin 8, 0x500000 ≤ RegId.bneCfg.addr n 0 := by decide

theorem State.slotWordsApply_applies (hw : (s.operandsAt n).waiting = true) (hg : (s.operandsAt n).groups = []) :
    s.slotWordsApply n = s.updOperands n (fun _ => { slotWords := clampN 4 130 (s.regF .bneCfg 7 0 n) }) :=
  if_pos ⟨hw, hg⟩

/-! ### CRV_CTRL -/

theorem State.write_crvCtrl (hc : s.Carries acc (RegId.crvCtrl.target 0 0))
    (ht : (s.store { id := .crvCtrl } d).crvCtrl (bitOf d 31) (bitOf d 30) = t) :
    (Host.Outcome.next (s.wrapUp (s.write acc d .crvCtrl)) : Host.Outcome State Fault Refusal) = .next (s.wrapUp (t.respond .okay 0)) :=
  State.write_path hc (by decide) (.inl (by decide)) ht

@[simp] theorem State.applying_store (x : RegRef) (d : W32) (kind : Nat) : (s.store x d).applying kind = s.applying kind := by
  simp only [State.applying, State.store_boot]

/-- GO begins a fetch of the entry that INDEX names. -/
theorem State.crvCtrl_loads (ha : s.applying 8 = false) (hf : s.curves.fetch = none) (hl : s.regF .crvLoadAddrLo 5 0 = 0) :
    s.crvCtrl true false = { s.setB .crvCtrl 31 true with curves := { s.curves with fetch := some (s.regF .crvCtrl 3 0, []) } } := by
  simp only [State.crvCtrl, ha, hf, hl, Bool.and_false, Bool.false_eq_true, if_false, if_true, Option.isSome_none, ne_eq, not_true]

theorem State.crvCtrl_clears (ha : s.applying 8 = false) : s.crvCtrl false true = s.changeCurve (s.regF .crvCtrl 3 0) .clear := by
  simp only [State.crvCtrl, ha, Bool.and_false, Bool.false_and, Bool.false_eq_true, if_false, if_true]

/-- While a section of curves is applied the write is dropped. -/
theorem State.crvCtrl_dropped (ha : s.applying 8 = true) {go clear : Bool} (h : go = true ∨ clear = true) :
    s.crvCtrl go clear = s.setB .mgtStatus 15 true := by
  have : (go || clear) = true := Bool.or_eq_true _ _ ▸ h
  simp only [State.crvCtrl, ha, this, Bool.and_true, if_true]

/-! ### The checks of an entry -/

theorem State.curveCheckDone_valid (hc : s.curves.checking.map (·.1) = some i) (he : getKey [] s.curves.entries i = entry)
    (h : ∀ k ∈ numsFrom 1 (if s.curves.loaded.contains i then 9 else 8), curveCheck entry i k = true) :
    s.curveCheckDone i =
      (({ s with curves := { s.curves with checking := none } } : State).setF .crvStatus 2 0 3 i).setF .crvStatus 11 8 0 i := by
  subst he
  have hnone : (numsFrom 1 (if s.curves.loaded.contains i then 9 else 8)).find? (fun k => !curveCheck (getKey [] s.curves.entries i) i k) = none :=
    List.find?_eq_none.mpr (fun k hk => by simp [h k hk])
  simp only [State.curveCheckDone, hc, hnone, if_true]

theorem State.curveCheckDone_invalid (hc : s.curves.checking.map (·.1) = some i) (he : getKey [] s.curves.entries i = entry)
    (h : (numsFrom 1 (if s.curves.loaded.contains i then 9 else 8)).find? (fun k => !curveCheck entry i k) = some k) :
    s.curveCheckDone i =
      (({ s with curves := { s.curves with checking := none } } : State).setF .crvStatus 2 0 4 i).setF .crvStatus 11 8 k i := by
  subst he
  simp only [State.curveCheckDone, hc, h, if_true]

end Sys2Proof.Machine

open Sys2Proof.Machine in
/-- Settles O48: SLOT_WORDS, the loads and clears of curve entries, and the outcome of their checks. -/
theorem operandMemoriesAndCurves : Obligations.OperandMemoriesAndCurves := by
  unfold Obligations.OperandMemoriesAndCurves
  intro s acc d n c i k t entry checks checked users
  have hbusy (ha : s.applying 8 = true) : t.applying 8 = true := (State.applying_store ..).trans ha
  have hidle (ha : s.applying 8 = false) : t.applying 8 = false := (State.applying_store ..).trans ha
  have hcurves : t.curves = s.curves := State.store_curves ..
  have hreqs : t.reqs = s.reqs := State.store_reqs ..
  refine ⟨?slotWords, ?applies, ?load, ?clear, ?dropped, ?valid, ?invalid⟩
  case slotWords => exact fun hc => State.write_path hc (le_trans (by decide) (bneCfg_addr n)) (.inr (bneCfg_addr n)) rfl
  case applies => exact fun hw hg => State.next_congr (State.slotWordsApply_applies hw hg)
  case load =>
    rintro hc h31 h30 ha hf hl rfl
    refine State.write_crvCtrl hc ?_
    rw [h31, h30]
    exact (State.crvCtrl_loads (hidle ha) (by rw [hcurves]; exact hf) hl).trans (by rw [hcurves])
  case clear =>
    rintro hc h31 h30 ha rfl
    refine State.write_crvCtrl hc ?_
    rw [h31, h30]
    exact (State.crvCtrl_clears (hidle ha)).trans (by rw [State.changeCurve, hcurves, hreqs])
  case dropped =>
    exact fun hc h ha =>
      ⟨fun _ => State.write_crvCtrl hc (State.crvCtrl_dropped (hbusy ha) h), fun _ => State.write_crvCtrl hc (State.crvCtrl_dropped (hbusy ha) h)⟩
  case valid => exact fun hc h => State.next_congr (State.curveCheckDone_valid hc rfl h)
  case invalid => exact fun hc h => State.next_congr (State.curveCheckDone_invalid hc rfl h)

end

section
/-!
PROOFS. Requests to the key store: generation, KEY_IMPORT, KEY_EXPORT, destruction, derivation and the reading of ATTR (R425 to R433).
-/
namespace Sys2Proof.Machine

variable {s t : State} {rid i : Nat} {r : Req} {op : Op} {m : KeyMat} {src body root : Bytes} {k : KeySlot} {pair : Bool}

theorem State.keyOp_runs (hn : s.noKeys = false) (h : s.Runs rid r op) (f : State → Req → State) : s.keyOp rid op f = f s r := by
  simp only [State.keyOp, State.runOp_runs h, hn, Bool.false_eq_true, if_false]

/-! ### The half that a request reports -/

/-- A change of a request that keeps its number is found under that number. -/
theorem State.findReq_updReq {f : Req → Req} (hf : ∀ x, (f x).id = x.id) (id n : Nat) :
    (s.updReq id f).findReq n = (s.findReq n).map (fun r => if r.id = id then f r else r) := by
  have hid : ((fun r : Req => decide (r.id = n)) ∘ fun r => if r.id = id then f r else r) = fun r => decide (r.id = n) := by
    funext x
    simp only [Function.comp_apply]
    split
    · rw [hf]
    · rfl
  simp only [State.updReq, State.findReq, List.find?_map, hid]

/-- The half that a request reports poisons nothing. -/
theorem State.poisoned_onHalf (s : State) (rid i : Nat) (r : Req) : (s.onHalf rid i).poisoned r = s.poisoned r := by
  simp only [State.poisoned, State.onHalf, State.findReq_updReq (f := fun r => { r with inst := halfOf i }) (fun _ => rfl), Option.map_map]
  have hpoison : ((fun x : Req => x.poison) ∘ fun x => if x.id = rid then { x with inst := halfOf i } else x) = fun x => x.poison := by
    funext x
    simp only [Function.comp_apply]
    split <;> rfl
  rw [hpoison]

/-! ### KEY_GENERATE -/

theorem State.keyGenerate_hold (hn : s.noKeys = false) (h : s.Runs rid r .keyGenerate) (ho : r.desc.holdOut = true) :
    s.keyGenerate rid = s.drawn.succeed rid (s.value r (fld r.desc.param 7 0)) := by
  simp only [State.keyGenerate, State.keyOp_runs hn h, ho, if_true]

/-- A drawn key, or a reserved slot, at the place that takes it. -/
theorem State.keyGenerate_slot (hn : s.noKeys = false) (h : s.Runs rid r .keyGenerate) (ho : r.desc.holdOut = false)
    (hp : s.keyPlace r 0 (fld r.desc.param 7 0) = .ok (i, pair)) (hsound : r.poison = false) (ht : s.onHalf rid i = t)
    (hk : KeySlot.ofWord r.ptn r.desc.param = k) :
    s.keyGenerate rid = (if bitOf r.desc.param 31 then t.putKey i { k with state := .reserved } [] pair
      else t.drawn.putKey i k (t.value r (fld r.desc.param 7 0)) pair).succeed rid [] (slotHandle i) := by
  subst ht hk
  have hpo : (s.onHalf rid i).poisoned r = false := (s.poisoned_onHalf rid i r).trans (State.poisoned_runs h hsound rfl)
  simp only [State.keyGenerate, State.keyOp_runs hn h, ho, hp, hpo, Bool.false_eq_true, if_false]
  split <;> rfl

/-! ### KEY_IMPORT and KEY_EXPORT -/

theorem State.keyImport_gives {used : Nat} (hn : s.noKeys = false) (h : s.Runs rid r .keyImportWrapped)
    (hw : s.ensureKey r { usages := [usWrap], lens := [32] } = (t, .ok m)) (hs : t.srcOf r = .ok src)
    (hb : t.openBlob r.ptn m.bytes src true [0] = .ok k body used) (hk : k.kind ≠ 1) (hp : t.keyPlace r k.kind body.length = .ok (i, pair))
    (hsound : t.poisoned r = false) :
    s.keyImport rid = (t.putKey i { k with state := .valid, owner := r.ptn, recNo := 0x7F } body pair).succeed rid [] (slotHandle i) := by
  simp only [State.keyImport, State.keyOp_runs hn h, hw, hs, hb, hk, hp, hsound, Bool.false_eq_true, if_false]

/-- The slot of the key that KEY_EXPORT names, read for the request, which is a user of it from then on (R24, R433). -/
theorem State.exportedKey_taken (he : r.exported = none) (hi : s.namedSlot r r.desc.keyH = some i) (hf : s.keyFault r.ptn i = none)
    (hl : (s.key i).lockAllows r.desc = true) (hx : (s.key i).exportW = true) (hk : (s.key i).kind ≠ 1) :
    s.exportedKey r = (((s.slotsOf i).foldl (fun s j => s.noteKeyRead r.id j) s).updReq r.id
      (fun r => { r with slots := r.slots ++ s.slotsOf i, exported := some (s.key i, s.payloadOf i) }), .ok (s.key i, s.payloadOf i)) := by
  simp only [State.exportedKey, he, hi, hf, hl, hx, hk, Bool.not_true, Bool.false_eq_true, or_self, if_false]

theorem State.exportedKey_kept (he : r.exported = some (k, body)) : s.exportedKey r = (s, .ok (k, body)) := by
  simp only [State.exportedKey, he]

theorem State.keyExport_first (hn : s.noKeys = false) (h : s.Runs rid r .keyExportWrapped) (he : s.exportedKey r = (t, .ok (k, body)))
    (hkey : r.key = none) (hroom : 48 + k.len ≤ r.desc.dstLen.toNat) {u : State}
    (hw : t.takeSlotKey r (handleIndex r.desc.param) { usages := [usWrap], lens := [32] } = (u, .ok m)) :
    s.keyExport rid = if k.keepBound = true ∧ u.keep.secret.isNone = true then u.waitKeep rid
      else u.drawn.succeed rid (u.makeBlob r.ptn 0 0 k body (u.value r 12) m.bytes) := by
  simp only [State.keyExport, State.keyOp_runs hn h, he, hkey, Nat.not_lt.mpr hroom, hw, if_false]

theorem State.keyExport_again (hn : s.noKeys = false) (h : s.Runs rid r .keyExportWrapped) (he : s.exportedKey r = (s, .ok (k, body)))
    (hkey : r.key = some m) (hroom : 48 + k.len ≤ r.desc.dstLen.toNat) (hsec : s.keep.secret.isSome = true) :
    s.keyExport rid = s.drawn.succeed rid (s.makeBlob r.ptn 0 0 k body (s.value r 12) m.bytes) := by
  have hnone : s.keep.secret.isNone = false := by
    rw [← Option.not_isSome, hsec]
    rfl
  simp only [State.keyExport, State.keyOp_runs hn h, he, hkey, Nat.not_lt.mpr hroom, hnone, Bool.false_eq_true, and_false, if_false]

/-! ### KEY_DESTROY, KEY_DERIVE and KEY_ATTR_READ -/

/-- A destruction is decided, and completes at once where nobody uses the key (R24, R426). -/
theorem State.keyDestroy_dooms (hn : s.noKeys = false) (h : s.Runs rid r .keyDestroy) (hi : s.namedSlot r r.desc.keyH = some i)
    (hst : r.stateIndex = none) {hf : State} (hhalf : s.onHalf rid i = hf) (ho : hf.ownerFault r.ptn i = none)
    (hbad : (hf.slotsOf i).any hf.slotBad = false) {u : State} (hu : (hf.slotsOf i).foldl (fun s j => s.noteKeyRead rid j) hf = u)
    (hst' : (u.key i).state ≠ .bad) (hsound : u.poisoned r = false) :
    s.keyDestroy rid = if ((u.doomSlot i (.destroy rid)).key i).doomed then
        (u.doomSlot i (.destroy rid)).updReq rid (fun r => { r with stateIndex := some i })
      else (u.doomSlot i (.destroy rid)).succeed rid [] := by
  subst hhalf hu
  simp only [State.keyDestroy, State.keyOp_runs hn h, hi, hst, Option.isSome_none, ho, hbad, hst', hsound, Bool.false_eq_true, or_self, if_false]

theorem State.keyDerive_hold (hn : s.noKeys = false) (h : s.Runs rid r .keyDerive) (hroot : s.deriveRoot r.desc = some root)
    (ho : r.desc.holdOut = true) (hsec : bitOf r.desc.param 29 = true → s.keep.secret.isSome = true) :
    s.keyDerive rid = s.succeed rid (s.derived r root (bitOf r.desc.param 29) r.desc.dstLen.toNat) := by
  have hwait : ¬(bitOf r.desc.param 29 = true ∧ s.keep.secret.isNone = true) := by
    rintro ⟨hb, hnone⟩
    rw [← Option.not_isSome, hsec hb] at hnone
    exact Bool.noConfusion hnone
  simp only [State.keyDerive, State.keyOp_runs hn h, hroot, ho, hwait, if_true, if_false]

theorem State.keyDerive_slot (hn : s.noKeys = false) (h : s.Runs rid r .keyDerive) (hroot : s.deriveRoot r.desc = some root)
    (ho : r.desc.holdOut = false) (hi : s.namedSlot r r.desc.resultH = some i)
    (hf : s.targetFault r.ptn i 0 [1, 2, 3, 4, 5, 6] (s.key i).len = none) (hlo : 16 ≤ (s.key i).len) (hhi : (s.key i).len ≤ 64)
    (hsec : (s.key i).keepBound = true → s.keep.secret.isSome = true) (ht : s.onHalf rid i = t) :
    s.keyDerive rid = (t.putTarget r (t.derived r root (s.key i).keepBound (s.key i).len)).succeed rid [] (slotHandle i) := by
  subst ht
  have hwait : ¬((s.key i).keepBound = true ∧ s.keep.secret.isNone = true) := by
    rintro ⟨hb, hnone⟩
    rw [← Option.not_isSome, hsec hb] at hnone
    exact Bool.noConfusion hnone
  simp only [State.keyDerive, State.keyOp_runs hn h, hroot, ho, hi, hf, Nat.not_lt.mpr hlo, Nat.not_lt.mpr hhi, hwait, Bool.false_eq_true, or_self,
    if_false]

theorem State.keyAttrRead_answers (hn : s.noKeys = false) (h : s.Runs rid r .keyAttrRead) (hi : s.namedSlot r r.desc.keyH = some i)
    (ho : s.ownerFault r.ptn i = none) :
    s.keyAttrRead rid = (s.onHalf rid i).succeed rid (toLe 8 (s.key i).attr ++ toLe 4 (s.key i).gen.toNat ++ zeros 4) := by
  simp only [State.keyAttrRead, State.keyOp_runs hn h, hi, ho]

end Sys2Proof.Machine

open Sys2Proof.Machine in
/-- Settles O49: what each request to the key store gives, where its checks pass. -/
theorem keyStoreRequests : Obligations.KeyStoreRequests := by
  unfold Obligations.KeyStoreRequests
  intro s t rid i r m src body root k pair used d h read attr out hn
  refine ⟨?genHold, ?genSlot, ?imports, ?exports, ?exportsOn, ?destroys, ?deriveHold, ?deriveSlot, ?attrRead⟩
  case genHold => exact fun hr ho => State.next_congr (State.keyGenerate_hold hn hr ho)
  case genSlot => exact fun hr ho hp hsound => State.next_congr (State.keyGenerate_slot hn hr ho hp hsound rfl rfl)
  case imports => exact fun hr hw hs hb hk hp hsound => State.next_congr (State.keyImport_gives hn hr hw hs hb hk hp hsound)
  case exports =>
    intro hr he hkey hi hf hl hx hk hroom hw
    have htaken := State.exportedKey_taken he hi hf hl hx hk
    rw [State.runs_id hr] at htaken
    exact State.next_congr (State.keyExport_first hn hr htaken hkey hroom hw)
  case exportsOn =>
    exact fun hr he hkey hroom hsec => State.next_congr (State.keyExport_again hn hr (State.exportedKey_kept he) hkey hroom hsec)
  case destroys =>
    exact fun hr hst hi ho hbad hst' hsound => State.next_congr (State.keyDestroy_dooms hn hr hi hst rfl ho hbad rfl hst' hsound)
  case deriveHold => exact fun hr hroot ho hsec => State.next_congr (State.keyDerive_hold hn hr hroot ho hsec)
  case deriveSlot =>
    exact fun hr hroot ho hi hf hlo hhi hsec => State.next_congr (State.keyDerive_slot hn hr hroot ho hi hf hlo hhi hsec rfl)
  case attrRead => exact fun hr hi ho => State.next_congr (State.keyAttrRead_answers hn hr hi ho)

end

section
/-!
PROOFS. The key store's registers (R416, R422 to R424, R437, R453), what ends in its own time (R24, R440), the reports (R462 to R465), NOP and
FENCE, COPY and GET_RANDOM (R127, R400, R401).
-/
namespace Sys2Proof.Machine

variable {s t : State} {acc : Access} {rid i p : Nat} {r : Req} {d w c : W32} {k : KeySlot} {pair : Bool} {op : Op} {src b : Bytes}

/-! ### KEY_COMMIT -/

theorem keyCommit_addr (p : Fin 64) : 0x100000 ≤ RegId.keyCommit.addr p 0 ∧ RegId.keyCommit.addr p 0 < 0x500000 := by
  simp only [RegId.addr, RegId.row]
  omega

theorem State.writePart_keyCommit (hb : s.regB .keyStageStatus 31 p = false) (h31 : bitOf d 31 = true) (j : Nat) :
    s.writePart { id := .keyCommit, i := p, j := j } d = (s.setReg .keyCommit d p).setB .keyStageStatus 31 true p := by
  simp only [State.writePart, hb, State.commitGo, h31, Bool.false_eq_true, if_false, if_true]

/-- A commit whose attributes and length are in order comes to the place of its key. -/
theorem State.keyCommitDone_places (hb : s.regB .keyStageStatus 31 p = true) (hn : s.noKeys = false) (hw : s.reg .keyStageAttr p = w)
    (hattr : attrWordOk w = true) (h31 : bitOf w 31 = false) (hlo : 1 ≤ fld w 7 0) (hhi : fld w 7 0 ≤ 128) (hc : s.reg .keyCommit p = c)
    (hp : s.commitPlace p (bitOf c 30) (fld c 12 0) (fld w 7 0) = .ok (i, pair)) :
    s.keyCommitDone p =
      (if fld w 7 0 ≤ 64 then s.putKey i (KeySlot.ofWord p w) ((s.staged p).take (fld w 7 0)) pair
       else if bitOf c 30 then s.putKey i { KeySlot.ofWord p w with state := .reserved } (s.staged p ++ zeros 64) true
       else s.putKey i (KeySlot.ofWord p w) (fit 64 (s.key i).payload ++ (s.staged p).take (fld w 7 0 - 64)) true).commitEnds p .ok i := by
  subst hw hc
  have hlen : ¬(fld (s.reg .keyStageAttr p) 7 0 = 0 ∨ 128 < fld (s.reg .keyStageAttr p) 7 0) := by omega
  simp only [State.keyCommitDone, hb, hn, hattr, h31, hlen, hp, Bool.not_true, Bool.or_self, Bool.false_eq_true, if_false]
  rcases Nat.lt_or_ge 64 (fld (s.reg .keyStageAttr p) 7 0) with h64 | h64
  · simp only [h64, Nat.not_le.mpr h64, true_and, if_true, if_false]
  · simp only [h64, Nat.not_lt.mpr h64, false_and, if_true, if_false]

theorem State.keyCommitDone_refused {st : Status} (hb : s.regB .keyStageStatus 31 p = true) (hn : s.noKeys = false)
    (hw : s.reg .keyStageAttr p = w) (hattr : attrWordOk w = true) (h31 : bitOf w 31 = false) (hlo : 1 ≤ fld w 7 0) (hhi : fld w 7 0 ≤ 128)
    (hc : s.reg .keyCommit p = c) (hp : s.commitPlace p (bitOf c 30) (fld c 12 0) (fld w 7 0) = .error st) :
    s.keyCommitDone p = s.commitEnds p st 0 := by
  subst hw hc
  have hlen : ¬(fld (s.reg .keyStageAttr p) 7 0 = 0 ∨ 128 < fld (s.reg .keyStageAttr p) 7 0) := by omega
  simp only [State.keyCommitDone, hb, hn, hattr, h31, hlen, hp, Bool.not_true, Bool.or_self, Bool.false_eq_true, if_false]

/-! ### KEY_SLOT_CTRL and KEY_PTN_GEN -/

/-- GO of KEY_SLOT_CTRL does what OP says, with the fields that the write leaves. -/
theorem State.write_keySlotCtrl (hc : s.Carries acc (RegId.keySlotCtrl.target 0 0)) (h31 : bitOf d 31 = true)
    (ht : (s.store { id := .keySlotCtrl } d).slotCtrl = t) :
    (Host.Outcome.next (s.wrapUp (s.write acc d .keySlotCtrl)) : Host.Outcome State Fault Refusal) = .next (s.wrapUp (t.respond .okay 0)) :=
  State.write_keys hc (by decide) (by decide) ((if_pos h31).trans ht)

theorem State.slotCtrl_clears {n : Nat} (hop : s.regF .keySlotCtrl 29 28 = 0) (hn : s.regF .keySlotCtrl 12 0 = n) (hst : (s.key n).state ≠ .empty)
    (hpair : (s.key n).pair ≠ 2) (hd : (s.key n).doomed = false) : s.slotCtrl = s.doomSlot n .clear := by
  subst hn
  simp only [State.slotCtrl, hop, hst, hpair, hd, or_self, Bool.false_eq_true, if_false]

theorem State.slotCtrl_reassigns {n q : Nat} (hop : s.regF .keySlotCtrl 29 28 = 1) (hn : s.regF .keySlotCtrl 12 0 = n)
    (hq : s.regF .keySlotCtrl 27 22 = q) (hst : (s.key n).state = .valid ∨ (s.key n).state = .reserved) (hk : (s.key n).kind = 0)
    (hpair : (s.key n).pair ≠ 2) (hd : (s.key n).doomed = false) (hh : s.halfOut (halfOf n) = false) (he : s.enabled q = true)
    (hquota : s.slotsOwned q + (s.slotsOf n).length ≤ s.keyQuota q) :
    s.slotCtrl = (s.slotsOf n).foldl (fun s j => (s.clearRoundKeys false j).putSlot j { s.key j with owner := q }) s := by
  subst hn hq
  have hstate : ¬((s.key (s.regF .keySlotCtrl 12 0)).state ≠ .valid ∧ (s.key (s.regF .keySlotCtrl 12 0)).state ≠ .reserved) := by tauto
  simp only [State.slotCtrl, hop, State.slotReassign, hstate, hk, hpair, hd, hh, he, Nat.not_lt.mpr hquota, ne_eq, not_true, Bool.not_true,
    Bool.false_eq_true, or_self, if_false]

theorem State.slotCtrl_invalidates {q : Nat} (hop : s.regF .keySlotCtrl 29 28 = 2) (hq : s.regF .keySlotCtrl 27 22 = q) :
    s.slotCtrl = ((s.keys.filter (fun e => decide (e.2.owner = q) && e.2.state != .empty && e.2.state != .invalid && e.2.pair != 2 &&
      !e.2.doomed)).map (·.1)).foldl (fun s i => s.doomSlot i .invalidate) s := by
  subst hq
  simp only [State.slotCtrl, hop]

theorem State.slotCtrl_restores {half : Nat} (hop : s.regF .keySlotCtrl 29 28 = 3) (hf : s.regF .keySlotCtrl 13 13 = half)
    (hh : s.halfOut half = true) :
    s.slotCtrl = (((s.keys.map (·.1)).filter (fun i => halfOf i = half)).foldl State.clearSlot s).setB .keyStatus (30 + half) false := by
  subst hf
  simp only [State.slotCtrl, hop, State.restoreHalf, hh, Bool.not_true, Bool.false_eq_true, if_false]

theorem keyPtnGen_addr (p : Fin 64) : 0x010000 ≤ RegId.keyPtnGen.addr p 0 ∧ RegId.keyPtnGen.addr p 0 < 0x040000 := by
  simp only [RegId.addr, RegId.row]
  omega

/-- A generation only rises; any other write is an error (R437). -/
theorem State.genWrite_raises (p v : Nat) :
    s.genWrite p v = if s.ptnGen p < v then { s with keep := { s.keep with ptnGen := setKey 0 s.keep.ptnGen p v } }
      else s.setB .keySlotCtrl 30 true := by
  rcases Nat.lt_or_ge (s.ptnGen p) v with h | h
  · rw [if_pos h]
    exact if_neg (Nat.not_le.mpr h)
  · rw [if_neg (Nat.not_lt.mpr h)]
    exact if_pos h

/-! ### Destructions and the keep secret -/

theorem State.slotDestroyed_waits (hd : (s.key i).doomed = true) (hf : s.doomFree i = false) : s.slotDestroyed i = s := by
  simp only [State.slotDestroyed, hd, hf, Bool.not_false, and_self, if_true]

/-- A decided destruction leaves its slot INVALID or empty, as its origin says. -/
theorem State.finishDoom_free (hf : (s.key i).doomed = false ∨ s.doomFree i = true) :
    s.finishDoom i = if (s.key i).doomed = false then s else if (s.key i).doom = .invalidate then s.invalidateSlot i else s.clearSlot i := by
  cases hd : (s.key i).doomed with
  | false => simp only [State.finishDoom, hd, Bool.not_false, true_or, if_true]
  | true =>
    have hfree : s.doomFree i = true := hf.resolve_left (by simp [hd])
    simp only [State.finishDoom, hd, hfree, Bool.not_true, Bool.false_eq_true, or_self, if_false, reduceCtorEq]
    split
    next h => rw [if_pos h]
    next h => rw [if_neg h]

/-- The KEY_DESTROY that waits for slot i completes with its destruction (R24). -/
theorem State.slotDestroyed_completes {u : State} (hf : (s.key i).doomed = false ∨ s.doomFree i = true) (hu : s.finishDoom i = u) {v : State}
    (hsome : ∀ r, u.reqs.find? (fun r => r.phase == .running && r.desc.opIs .keyDestroy && r.stateIndex == some i) = some r → v = u.succeed r.id [])
    (hnone : u.reqs.find? (fun r => r.phase == .running && r.desc.opIs .keyDestroy && r.stateIndex == some i) = none → v = u) :
    s.slotDestroyed i = v := by
  subst hu
  have hgo : ¬((s.key i).doomed = true ∧ (!s.doomFree i) = true) := by
    rcases hf with h | h <;> simp [h]
  simp only [State.slotDestroyed, hgo, if_false]
  cases hfind : (s.finishDoom i).reqs.find? (fun r => r.phase == .running && r.desc.opIs .keyDestroy && r.stateIndex == some i) with
  | none => exact (hnone hfind).symm
  | some r => exact (hsome r hfind).symm

theorem State.keepDraw_draws (hs : s.keep.secret = none) (hr : s.rngState = rngReady) :
    s.keepDraw = { (s.draw 8 0 32).1 with keep := { (s.draw 8 0 32).1.keep with secret := some (s.draw 8 0 32).2 } } :=
  if_pos ⟨by rw [hs]; rfl, hr⟩

/-! ### Reports, NOP and FENCE, COPY and GET_RANDOM -/

theorem State.report_tells (h : s.Runs rid r op) (f : Req → Bytes) :
    s.report rid op f = (s.updReq rid (fun r => { r with unit := .lockkeeper, inst := r.lk })).succeed rid (f r) :=
  State.runOp_runs h _

theorem State.nopDone_completes {f : Frame} (h : s.findReq rid = some r)
    (hf : (s.lks.getD r.lk {}).frames.find? (fun f => f.valid && !f.killed && !f.completed && !f.issued && decide (f.req = rid)) = some f)
    (ho : r.desc.op = some op) (hh : s.held = false)
    (hd : s.frmDone r.lk f { status := r.verdict.getD .ok, unit := .lockkeeper, inst := r.lk } = some t) : s.nopDone rid op = t := by
  simp only [State.nopDone, h, hf, ho, hh, hd, Bool.not_false, and_self, if_true, Option.getD_some]

theorem State.copyOp_runs (h : s.Runs rid r .copy)
    (hsec : r.desc.holdIn = true → r.desc.holdOut = false → (s.holdOf r (r.desc.srcAddr.toNat % 8)).secret = false)
    (hs : s.srcOf r = .ok src) : s.copyOp rid = s.succeed rid src := by
  have hopen : ¬(r.desc.holdIn = true ∧ (!r.desc.holdOut) = true ∧ (s.holdOf r (r.desc.srcAddr.toNat % 8)).secret = true) := by
    rintro ⟨hi, ho, hx⟩
    rw [hsec hi (by simpa using ho)] at hx
    exact Bool.noConfusion hx
  simp only [State.copyOp, State.runs_no_stream h, State.runOp_runs h, hopen, hs, if_false]

theorem State.copyOp_secret (h : s.Runs rid r .copy) (hi : r.desc.holdIn = true) (ho : r.desc.holdOut = false)
    (hx : (s.holdOf r (r.desc.srcAddr.toNat % 8)).secret = true) : s.copyOp rid = s.failOp rid ⟨.keyPolicy, none⟩ := by
  simp only [State.copyOp, State.runs_no_stream h, State.runOp_runs h, hi, ho, hx, Bool.not_false, and_self, if_true]

/-- A COPY whose source has not come whole emits the whole cells of what has. -/
theorem State.copyOp_streams (h : s.findReq rid = some r) (hs : r.streams .copy = true) : s.copyOp rid = s.emit r r.laneSrc := by
  simp only [State.copyOp, h, Option.filter_some, hs, if_true]

/-- One generate call of SW's DRBG. -/
theorem State.getRandom_generates (h : s.Runs rid r .getRandom) (hr : s.rngState = rngReady) (hpr : r.desc.param.getLsbD 0 = false)
    (hg : s.generate 5 (fit 48 r.aux) r.desc.dstLen.toNat = (t, b)) (ht : t.rngState = rngReady) : s.getRandom rid = t.succeed rid b := by
  simp only [State.getRandom, State.runOp_runs h, hr, hpr, hg, ht, ne_eq, not_true, Bool.false_eq_true, false_and, if_false]

/-- Under PR the call comes after a reseed from two fresh blocks of the pool. -/
theorem State.getRandom_reseeds (h : s.Runs rid r .getRandom) (hr : s.rngState = rngReady) (hpr : r.desc.param.getLsbD 0 = true)
    (hp : 2 ≤ s.rng.pool.length) (hw : s.rng.rootWaits = false)
    (hg : ((s.takePool.1.seeded 5 (drbgReseed (s.drbgAt 5).st s.takePool.2 [])).applyRngParams).generate 5 (fit 48 r.aux) r.desc.dstLen.toNat = (t, b))
    (ht : t.rngState = rngReady) : s.getRandom rid = t.succeed rid b := by
  have hdrbg : s.takePool.1.drbgAt 5 = s.drbgAt 5 := rfl
  simp only [State.getRandom, State.runOp_runs h, hr, hpr, Nat.not_lt.mpr hp, hw, hdrbg, hg, ht, ne_eq, not_true, Bool.false_eq_true, or_self,
    and_false, if_true, if_false]

end Sys2Proof.Machine

open Sys2Proof.Machine in
/-- Settles O50: commits and their ends, KEY_SLOT_CTRL by OP, generations, and what completes in its own time. -/
theorem keyStoreRegisters : Obligations.KeyStoreRegisters := by
  unfold Obligations.KeyStoreRegisters
  intro s acc p i slot d pair st ctrl t n q half w c len attr
  refine ⟨?commit, ?places, ?refused, ?clear, ?reassign, ?invalidate, ?restore, ?gen, ?waits, ?completes, ?keep⟩
  case commit =>
    exact fun hc h31 hb => State.write_part hc (keyCommit_addr p).1 (keyCommit_addr p).2 (State.writePart_keyCommit hb h31 0)
  case places =>
    exact fun hb hn hattr h31 hlo hhi hp => State.next_congr (State.keyCommitDone_places hb hn rfl hattr h31 hlo hhi rfl hp)
  case refused =>
    exact fun hb hn hattr h31 hlo hhi hp => State.next_congr (State.keyCommitDone_refused hb hn rfl hattr h31 hlo hhi rfl hp)
  case clear =>
    exact fun hc h31 hop hst hpair hd => State.write_keySlotCtrl hc h31 (State.slotCtrl_clears hop rfl hst hpair hd)
  case reassign =>
    exact fun hc h31 hop hst hk hpair hd hh he hquota =>
      State.write_keySlotCtrl hc h31 (State.slotCtrl_reassigns hop rfl rfl hst hk hpair hd hh he hquota)
  case invalidate => exact fun hc h31 hop => State.write_keySlotCtrl hc h31 (State.slotCtrl_invalidates hop rfl)
  case restore => exact fun hc h31 hop hh => State.write_keySlotCtrl hc h31 (State.slotCtrl_restores hop rfl hh)
  case gen => exact fun hc => State.write_keys hc (keyPtnGen_addr p).1 (keyPtnGen_addr p).2 (State.genWrite_raises p _)
  case waits => exact fun hd hf => State.next_congr (State.slotDestroyed_waits hd hf)
  case completes =>
    intro hf
    refine State.next_congr (State.slotDestroyed_completes hf (State.finishDoom_free hf) ?_ ?_)
    · intro r hr
      simp only [hr]
    · intro hr
      simp only [hr]
  case keep => exact fun hs hr => State.next_congr (State.keepDraw_draws hs hr)

open Sys2Proof.Machine in
/-- Settles O51: the reports, NOP and FENCE in their frame, COPY whole and in cells, and both forms of GET_RANDOM. -/
theorem reportsAndSimpleOperations : Obligations.ReportsAndSimpleOperations := by
  unfold Obligations.ReportsAndSimpleOperations
  intro s t rid r f src b d told res early inFrame seeded
  refine ⟨?ptnInfo, ?keyList, ?qosRead, ?nop, ?fence, ?copy, ?stream, ?secret, ?random, ?reseeded⟩
  case ptnInfo => exact fun hr => State.next_congr (State.report_tells hr _)
  case keyList => exact fun hr => State.next_congr (State.report_tells hr _)
  case qosRead => exact fun hr => State.next_congr (State.report_tells hr _)
  case nop => exact fun hr hf ho hh hd => State.next_congr (State.nopDone_completes hr hf ho hh hd)
  case fence => exact fun hr hf ho hh hd => State.next_congr (State.nopDone_completes hr hf ho hh hd)
  case copy => exact fun hr hsec hs => State.next_congr (State.copyOp_runs hr hsec hs)
  case stream => exact fun hr hs => State.next_congr (State.copyOp_streams hr hs)
  case secret => exact fun hr hi ho hx => State.next_congr (State.copyOp_secret hr hi ho hx)
  case random => exact fun hr hrng hpr hg ht => State.next_congr (State.getRandom_generates hr hrng hpr hg ht)
  case reseeded => exact fun hr hrng hpr hp hw hg ht => State.next_congr (State.getRandom_reseeds hr hrng hpr hp hw hg ht)

end

section
/-!
PROOFS. The programs of OTP (R55 to R57), function resets (R466 to R468) and requests for levels 3 and 4 (R476 to R479).
-/
namespace Sys2Proof.Machine

variable {s t : State} {acc : Access} {a p n : Nat} {v w d : W32} {err : Bool} {j : OtpJob} {rest : List OtpJob} {ws : List (Nat × W32)}

/-! ### OTP_ACK -/

section
variable (hj : s.otpJobs = j :: rest) (hw : j.words = (a, w) :: ws)
include hj hw

/-- The acknowledgement of a program starts its read-back; a program that failed has left a free subset of its bits. -/
theorem State.otpAck_programmed (hr : j.reading = false) : s.otpAck v false = { s with
    otp := setKey 0 s.otp a (s.otpWord a ||| w), otpJobs := { j with reading := true, failed := false, old := s.otpWord a } :: rest } := by
  simp only [State.otpAck, hj, hw, hr, Bool.not_false, if_true, Bool.false_eq_true, if_false]

theorem State.otpAck_failed (hr : j.reading = false) : s.otpAck v true = { s.drawn with
    otp := setKey 0 s.otp a (s.otpWord a ||| (w &&& BitVec.ofNat 32 s.pick))
    otpJobs := { j with reading := true, failed := true, old := s.otpWord a } :: rest } := by
  simp only [State.otpAck, hj, hw, hr, Bool.not_false, if_true]
  rfl

/-- What a read-back leaves in the model of OTP, and in the life cycle's copies of words 0 to 2. -/
def State.otpRead (s : State) (a : Nat) (now : W32) : State :=
  let t : State := { s with otp := setKey 0 s.otp a now }
  if a < 3 then t.setReg .lcCopy now a else t

theorem State.otpAck_verified (hr : j.reading = true) (hf : j.failed = false) (hv : v = j.old ||| w) (hws : ws = []) :
    s.otpAck v err = (s.otpRead a (j.old ||| (w &&& v))).nextProgram.otpEnds j.purpose true := by
  have hok : (!(!j.failed && v == (j.old ||| w))) = false := by simp [hf, hv]
  simp only [State.otpAck, hj, hw, hr, hok, hws, List.isEmpty_nil, Bool.not_true, Bool.false_eq_true, if_true, if_false, State.otpRead]

theorem State.otpAck_next (hr : j.reading = true) (hf : j.failed = false) (hv : v = j.old ||| w) (hws : ws ≠ []) :
    s.otpAck v err = ({ s.otpRead a (j.old ||| (w &&& v)) with
      otpJobs := { j with words := ws, reading := false, failed := false } :: rest } : State).lifeAdd 1 1 := by
  have hok : (!(!j.failed && v == (j.old ||| w))) = false := by simp [hf, hv]
  have hmore : ws.isEmpty = false := List.isEmpty_eq_false_iff.mpr hws
  simp only [State.otpAck, hj, hw, hr, hok, hmore, Bool.not_true, Bool.false_eq_true, if_false, State.otpRead]

theorem State.otpAck_rejected (hr : j.reading = true) (hf : j.failed = true ∨ v ≠ j.old ||| w) :
    s.otpAck v err = ((s.otpRead a (j.old ||| (w &&& v))).nextProgram.event srcOtpProg 0 a).otpEnds j.purpose false := by
  have hok : (!(!j.failed && v == (j.old ||| w))) = true := by
    rcases hf with hf | hv
    · simp [hf]
    · simp [hv]
  simp only [State.otpAck, hj, hw, hr, hok, Bool.not_true, Bool.false_eq_true, if_true, if_false, State.otpRead]

end

/-! ### Function resets -/

theorem ptnCtrl_addr (p : Fin 64) : 0x100000 ≤ RegId.ptnCtrl.addr p 0 ∧ RegId.ptnCtrl.addr p 0 < 0x500000 := by
  simp only [RegId.addr, RegId.row]
  omega

theorem State.write_ptnCtrl {p : Fin 64} (hc : s.Carries acc (RegId.ptnCtrl.target p 0)) (h0 : bitOf d 0 = true)
    (ht : s.resetStart p (bitOf d 1) = t) :
    (Host.Outcome.next (s.wrapUp (s.write acc d .ptnCtrl p)) : Host.Outcome State Fault Refusal) = .next (s.wrapUp (t.respond .okay 0)) :=
  State.write_part hc (ptnCtrl_addr p).1 (ptnCtrl_addr p).2 ((if_pos h0).trans ht)

theorem State.resetStart_begins {keep : Bool} (h : ∀ r ∈ s.resets, r.ptn ≠ p) (hz : s.tamper.zeroize = none) :
    s.resetStart p keep = ({ s with resets := s.resets ++ [{ ptn := p, keep := keep }] } : State).resetBegin p keep := by
  have hno : s.resetOf p = false := by simpa [State.resetOf] using h
  simp only [State.resetStart, hno, hz, Option.isSome_none, Bool.false_eq_true, if_false]

/-- A second start is ignored, with its bit. -/
theorem State.resetStart_ignored {keep : Bool} (h : ∃ r ∈ s.resets, r.ptn = p) : s.resetStart p keep = s.setB .ptnStatus 14 true p := by
  have hyes : s.resetOf p = true := by simpa [State.resetOf] using h
  simp only [State.resetStart, hyes, if_true]

theorem State.write_mgtPtnReset (hc : s.Carries acc (RegId.mgtPtnReset.target 0 0)) (h31 : bitOf d 31 = true)
    (ht : (s.store { id := .mgtPtnReset } d).mgtReset = t) :
    (Host.Outcome.next (s.wrapUp (s.write acc d .mgtPtnReset)) : Host.Outcome State Fault Refusal) = .next (s.wrapUp (t.respond .okay 0)) :=
  State.write_mgt hc (by decide) ((if_pos h31).trans ht)

/-- The flush works on the lowest ring that is left to flush, once the reset has begun. -/
theorem State.resetFlush_fetches {x : FnReset} (hx : s.resets.find? (fun r => r.ptn = p) = some x) (hb : x.begun = true)
    (hz : s.tamper.zeroize = none) (hn : s.flushRing p = some n) (hk : s.flushState p n = 1) : s.resetFlush p = s.flushFetch p n := by
  simp only [State.resetFlush, hx, hb, hz, hn, hk, Option.isSome_none, Bool.not_true, Bool.false_eq_true, if_false]

/-- A ring whose completion ring is full stops flushing. -/
theorem State.resetFlush_stops {x : FnReset} (hx : s.resets.find? (fun r => r.ptn = p) = some x) (hb : x.begun = true)
    (hz : s.tamper.zeroize = none) (hn : s.flushRing p = some n) (hk : s.flushState p n = 3) :
    s.resetFlush p = ({ s with flushEnded := s.flushEnded ++ [(p, n)] } : State).checkStopped p n := by
  simp only [State.resetFlush, hx, hb, hz, hn, hk, Option.isSome_none, Bool.not_true, Bool.false_eq_true, if_false]

theorem State.resetFlush_ends {x : FnReset} (hx : s.resets.find? (fun r => r.ptn = p) = some x) (hb : x.begun = true)
    (hz : s.tamper.zeroize = none) (hn : s.flushRing p = none) (hall : ∀ n < 16, s.ringSettled p n = true) : s.resetFlush p = s.resetEnds p := by
  have hsettled : (numsFrom 0 16).all (fun n => s.ringSettled p n) = true := by
    simpa only [List.all_eq_true, mem_numsFrom, Nat.zero_le, true_and, Nat.zero_add] using hall
  simp only [State.resetFlush, hx, hb, hz, hn, hsettled, Option.isSome_none, Bool.not_true, Bool.false_eq_true, if_false, if_true]

/-! ### Requests for a level -/

theorem State.write_mgtRcvCtrl (hc : s.Carries acc (RegId.mgtRcvCtrl.target 0 0)) (h31 : bitOf d 31 = true)
    (ht : (s.store { id := .mgtRcvCtrl } d).rcvGo = t) :
    (Host.Outcome.next (s.wrapUp (s.write acc d .mgtRcvCtrl)) : Host.Outcome State Fault Refusal) = .next (s.wrapUp (t.respond .okay 0)) :=
  State.write_mgt hc (by decide) ((if_pos h31).trans ht)

/-- LEVEL 1 is taken in READY, also in the safe state; LEVEL 2 outside the safe state alone (R479, R516). -/
theorem State.rcvGo_enters {level : Nat} (hp : s.phase = phReady) (hl : s.regF .mgtRcvCtrl 1 0 = level)
    (h : level = 1 ∨ level = 2 ∧ s.safe = false) : s.rcvGo = s.enterLevel level 1 := by
  rcases h with rfl | ⟨rfl, hs⟩
  · simp [State.rcvGo, hp, hl]
  · simp [State.rcvGo, hp, hl, hs]

theorem State.rcvGo_safe (hl : s.regF .mgtRcvCtrl 1 0 = 2) (hs : s.safe = true) : s.rcvGo = s.setB .mgtRcvCtrl 30 true := by
  simp [State.rcvGo, hl, hs]

end Sys2Proof.Machine

open Sys2Proof.Machine in
/-- Settles O53: the acknowledgement, the read-back, the next word, and a program that failed. -/
theorem otpPrograms : Obligations.OtpPrograms := by
  unfold Obligations.OtpPrograms
  intro s v w err a j rest ws now read hj hw
  refine ⟨?programmed, ?failed, ?verified, ?next, ?rejected⟩
  case programmed => exact fun hr => State.next_congr (State.otpAck_programmed hj hw hr)
  case failed => exact fun hr => State.next_congr (State.otpAck_failed hj hw hr)
  case verified => exact fun hr hf hv hws => State.next_congr (State.otpAck_verified hj hw hr hf hv hws)
  case next => exact fun hr hf hv hws => State.next_congr (State.otpAck_next hj hw hr hf hv hws)
  case rejected => exact fun hr hf => State.next_congr (State.otpAck_rejected hj hw hr hf)

open Sys2Proof.Machine in
/-- Settles O54: starts of function resets, their flush, and requests for levels 3 and 4. -/
theorem recoveryRequests : Obligations.RecoveryRequests := by
  unfold Obligations.RecoveryRequests
  intro s acc p n d x t q u rcv first
  refine ⟨?begins, ?ignored, ?mgt, ?disabled, ?fetch, ?full, ?ends, ?level3, ?level4, ?safe⟩
  case begins => exact fun hc h0 h hz => State.write_ptnCtrl hc h0 (State.resetStart_begins h hz)
  case ignored => exact fun hc h0 h => State.write_ptnCtrl hc h0 (State.resetStart_ignored h)
  case mgt => exact fun hc h31 he => State.write_mgtPtnReset hc h31 (if_pos he)
  case disabled => exact fun hc h31 he => State.write_mgtPtnReset hc h31 (if_neg (by rw [he]; exact Bool.false_ne_true))
  case fetch => exact fun hx hb hz hn h1 => State.next_congr (State.resetFlush_fetches hx hb hz hn h1)
  case full => exact fun hx hb hz hn h3 => State.next_congr (State.resetFlush_stops hx hb hz hn h3)
  case ends => exact fun hx hb hz hn hall => State.next_congr (State.resetFlush_ends hx hb hz hn hall)
  case level3 => exact fun hc h31 hp hl => State.write_mgtRcvCtrl hc h31 (State.rcvGo_enters hp hl (.inl rfl))
  case level4 => exact fun hc h31 hp hl hs => State.write_mgtRcvCtrl hc h31 (State.rcvGo_enters hp hl (.inr ⟨rfl, hs⟩))
  case safe => exact fun hc h31 _ hl hs => State.write_mgtRcvCtrl hc h31 (State.rcvGo_safe hl hs)

end

section
/-!
PROOFS. Detections of the tamper monitors, on the chip and on the cell, and the clearing of flags (R47, R48, R482 to R487, R502, R503).
-/
namespace Sys2Proof.Machine

variable {s t : State} {acc : Access} {src det : Nat} {d : W32}

/-! ### Folds of which one step counts -/

theorem foldl_idle {α β : Type} {f : α → β → α} {l : List β} (h : ∀ b ∈ l, ∀ x, f x b = x) (x : α) : l.foldl f x = x := by
  induction l with
  | nil => rfl
  | cons b l ih => rw [List.foldl_cons, h b (by simp), ih (fun c hc => h c (by simp [hc]))]

/-- Where every step but that of `a` leaves the state, a fold is that step. -/
theorem foldl_at {α β : Type} {f : α → β → α} {a : β} {l : List β} (ha : a ∈ l) (hd : l.Nodup)
    (h : ∀ b ∈ l, b ≠ a → ∀ x, f x b = x) (x : α) :
    l.foldl f x = f x a := by
  induction l generalizing x with
  | nil => simp at ha
  | cons b l ih =>
    obtain ⟨hb, hl⟩ := List.nodup_cons.mp hd
    rw [List.foldl_cons]
    by_cases hba : b = a
    · subst hba
      exact foldl_idle (fun c hc => h c (by simp [hc]) (fun hcb => hb (hcb ▸ hc))) _
    · rw [h b (by simp) hba]
      exact ih ((List.mem_cons.mp ha).resolve_left (Ne.symm hba)) hl (fun c hc => h c (by simp [hc])) x

/-! ### The state of a source -/

theorem State.updTmpSrc_congr {f g : TmpSrc → TmpSrc} (h : f (s.tmpSrc src) = g (s.tmpSrc src)) : s.updTmpSrc src f = s.updTmpSrc src g :=
  congrArg (fun l => { s with tamper := { s.tamper with srcs := l } }) (modAt_congr h)

/-- A count changes no configuration that the keep domain holds. -/
theorem State.tmpActions_count (s : State) (src k : Nat) : (s.updTmpSrc src (fun x => { x with count := k })).tmpActions src = s.tmpActions src := by
  have hcfg : ((s.updTmpSrc src (fun x => { x with count := k })).tmpSrc src).cfg = (s.tmpSrc src).cfg := by
    rcases Nat.lt_or_ge src s.tamper.srcs.length with h | h
    · have hat : (s.updTmpSrc src (fun x => { x with count := k })).tmpSrc src = { s.tmpSrc src with count := k } :=
        getD_modAt_same (fun x : TmpSrc => { x with count := k }) {} h
      rw [hat]
    · simp only [State.tmpSrc, State.updTmpSrc, List.getD_eq_default _ _ h, List.getD_eq_default _ _ ((length_modAt _ _ _).trans_le h)]
  simp only [State.tmpActions, State.tmpCfg, hcfg]
  rfl

/-- A detection that leaves its window's count below N is counted, and no more. -/
theorem State.countDetection_below (h : (s.tmpSrc src).count + 1 < s.tmpN src) :
    s.countDetection src = (s.updTmpSrc src (fun x => { x with count := x.count + 1 }), false) := by
  have hsame : s.updTmpSrc src (fun x => { x with count := (s.tmpSrc src).count + 1 }) = s.updTmpSrc src (fun x => { x with count := x.count + 1 }) :=
    State.updTmpSrc_congr rfl
  simp only [State.countDetection, Nat.not_le.mpr h, if_false, hsame]

theorem State.countDetection_reached (h : s.tmpN src ≤ (s.tmpSrc src).count + 1) :
    s.countDetection src = (s.updTmpSrc src (fun x => { x with count := 0 }), true) :=
  if_pos h

/-! ### Detections on the chip -/

/-- A detector of the source can detect now. -/
def State.detects (s : State) (src det : Nat) : Prop :=
  src ≠ 11 ∧ s.tmpDisabled src = false ∧ s.pins.keepOnCell = false ∧ s.pins.coldLow = false ∧ s.pins.warmLow = false ∧
    (det = 0 ∨ twoDetectors src = true) ∧ s.detFailed src det = false

theorem State.detects_iff : s.detects src det ↔ ¬(src = 11 ∨ s.tmpDisabled src = true ∨ s.pins.keepOnCell = true ∨ s.pins.coldLow = true ∨
    s.pins.warmLow = true ∨ det ≠ 0 ∧ (!twoDetectors src) = true ∨ s.detFailed src det = true) := by
  have hdet : (det = 0 ∨ twoDetectors src = true) ↔ (det ≠ 0 → twoDetectors src = true) := Classical.or_iff_not_imp_left
  simp only [State.detects, hdet, not_or, not_and, Bool.not_eq_true, Bool.not_eq_true', Bool.not_eq_false, ne_eq]

theorem State.detect_idle (h : ¬s.detects src det) : s.detect src det = s := if_pos (not_not.mp (mt State.detects_iff.mpr h))

/-- The state with the cause of a detection shown, and its hold broken off. -/
def State.caused (s : State) (src : Nat) : State := (s.setB .tmpSrcStatus 3 true src).updTmpSrc src (fun x => { x with holding := false })

/-- The shown cause marks no detector failed. -/
theorem State.detFailed_caused {k : Nat} (hk : k < 2) : (s.caused src).detFailed src k = s.detFailed src k :=
  State.regB_setB_apart (show 4 + k < 32 by omega) (show 4 + k ≠ 3 by omega) true

/-- A detection of the other detector's confirms it, and is not counted. -/
theorem State.detect_confirms (h : s.detects src det) (hw : ∃ w ∈ ((s.caused src).tmpSrc src).waits, w ≠ det) :
    s.detect src det = (s.caused src).updTmpSrc src (fun x => { x with waits := [] }) := by
  have hany : ((s.caused src).tmpSrc src).waits.any (· ≠ det) = true := by simpa using hw
  exact (if_neg (State.detects_iff.mp h)).trans (if_pos hany)

/-- The state in which the source waits for the other detector, where it has one that works. -/
def State.awaited (s : State) (src det : Nat) : State :=
  if twoDetectors src ∧ s.detFailed src (1 - det) = false then (s.caused src).updTmpSrc src (fun x => { x with waits := x.waits ++ [det] })
  else s.caused src

theorem State.detect_counts (h : s.detects src det) (hw : ∀ w ∈ ((s.caused src).tmpSrc src).waits, w = det) :
    s.detect src det = if ((s.awaited src det).countDetection src).2 then
        ((s.awaited src det).countDetection src).1.alarm src (((s.awaited src det).countDetection src).1.tmpActions src)
      else ((s.awaited src det).countDetection src).1 := by
  have hany : ¬((s.caused src).tmpSrc src).waits.any (· ≠ det) = true := by simpa using hw
  have hawait : (if twoDetectors src = true ∧ (!(s.caused src).detFailed src (1 - det)) = true then
      (s.caused src).updTmpSrc src (fun x => { x with waits := x.waits ++ [det] }) else s.caused src) = s.awaited src det := by
    simp only [State.detFailed_caused (show 1 - det < 2 by omega), State.awaited, Bool.not_eq_true']
  refine (if_neg (State.detects_iff.mp h)).trans ((if_neg hany).trans ?_)
  rw [← hawait]
  rfl

/-! ### Windows, lines and pulses -/

theorem State.disagreeExpire_raises {k : Nat} {ks : List Nat} (hw : (s.tmpSrc src).waits = k :: ks) (hd : s.tmpDisabled src = false) :
    s.disagreeExpire src = (s.updTmpSrc src (fun x => { x with waits := ks })).event srcTmpDisagree 3 src := by
  simp only [State.disagreeExpire, hw, hd, Bool.false_eq_true, if_false]

theorem pulseBad_iff (v : Nat) : pulseBad v = true ↔ v < 1500 ∨ 25000 < v := by
  simp only [pulseBad, Bool.or_eq_true, decide_eq_true_eq]

theorem State.pulseCheck_lines (l0 l1 l2 l3 : Nat) :
    s.pulseCheck [l0, l1, l2, l3] =
      (let a := if l0 < 1500 ∨ 25000 < l0 then s.detect 5 1 else s
       let b := if l1 < 1500 ∨ 25000 < l1 then a.detect 6 1 else a
       let c := if l2 < 1500 ∨ 25000 < l2 then b.detect 7 1 else b
       if l3 < 1500 ∨ 25000 < l3 then c.detect 8 1 else c) := by
  simp only [State.pulseCheck, enumFrom, List.foldl_cons, List.foldl_nil, pulseBad_iff]

/-! ### Samples on the cell -/

/-- What one source makes of a sample. -/
theorem State.keepSample_at {found : List (Nat × Nat)} (hc : s.pins.keepOnCell = true) (hsrc : src ∈ cellSources)
    (hf : ∀ e ∈ found, e.1 = src) (hd : s.tmpDisabled src = false) (h0 : s.detFailed src 0 = false) (h1 : s.detFailed src 1 = false) {a b : Bool}
    (ha : found.contains (src, 0) = a) (hb : found.contains (src, 1) = b) (hab : a = true ∨ b = true) {u : State}
    (hu : (if (a && b) = true then s else { s with tamper := { s.tamper with disagree := s.tamper.disagree ++ [src] } } : State) = u) :
    s.keepSample found = if (u.countDetection src).2 then (u.countDetection src).1.cellAlarm src ((u.countDetection src).1.tmpActions src)
      else (u.countDetection src).1 := by
  have hother (k : Nat) (hk : k ≠ src) (j : Nat) : found.contains (k, j) = false := by
    rw [Bool.eq_false_iff, ne_eq, List.contains_iff_mem]
    exact fun hmem => hk (hf _ hmem)
  subst ha hb hu
  refine (if_neg (by rw [hc]; decide)).trans ((foldl_at hsrc (by decide) ?_ s).trans ?_)
  · intro k _ hk x
    simp only [hother k hk, Bool.false_and, Bool.not_false, and_self, or_true, if_true]
  · have hsome : ¬((!found.contains (src, 0)) = true ∧ (!found.contains (src, 1)) = true) := by
      rcases hab with h | h <;> simp only [h, Bool.not_true, Bool.false_eq_true, false_and, and_false, not_false_eq_true]
    simp only [hd, h0, h1, Bool.not_false, Bool.and_true, Bool.or_false, hsome, Bool.false_eq_true, or_self, if_false]

theorem mem_keepDetections_five {x : KeepSample} {lv : Bool} {l0 k : Nat} (hf : ∀ y ∈ x.found, y.1.val < 5 ∨ 9 ≤ y.1.val)
    (hl : x.lines = [(lv, l0), (false, 10000), (false, 10000), (false, 10000)]) :
    (5, k) ∈ keepDetections x ↔ k = 0 ∧ lv = true ∨ k = 1 ∧ (l0 < 1500 ∨ 25000 < l0) := by
  have hfound : (5, k) ∉ x.found.map (fun e => (e.1.val, e.2.val)) := by
    rw [List.mem_map]
    rintro ⟨y, hy, heq⟩
    have h5 : y.1.val = 5 := congrArg Prod.fst heq
    rcases hf y hy with h | h <;> omega
  have hsteady : pulseBad 10000 = false := by decide
  have hhigh : (5, k) ∈ (if lv = true then [(5, 0)] else []) ↔ k = 0 ∧ lv = true := by cases lv <;> simp
  have hpulse : (5, k) ∈ (if pulseBad l0 = true then [(5, 1)] else []) ↔ k = 1 ∧ (l0 < 1500 ∨ 25000 < l0) := by
    rw [← pulseBad_iff]
    cases pulseBad l0 <;> simp
  simp only [keepDetections, hl, enumFrom, List.flatMap_cons, List.flatMap_nil, hsteady, Bool.false_eq_true, if_false, List.append_nil,
    List.mem_append, hfound, hhigh, hpulse, false_or]

/-! ### Flags -/

theorem fld_tmpMask : ∀ src : Fin 12, fld (BitVec.ofNat 32 (2 ^ src.val)) 11 0 = 2 ^ src.val := by decide

theorem mem_numsFrom_twelve (src : Fin 12) : src.val ∈ numsFrom 0 12 := mem_numsFrom.mpr ⟨Nat.zero_le _, by omega⟩

/-- A mask of one source works on its flag alone. -/
theorem State.flagClear_one {src : Fin 12} (hflag : s.tmpFlag src = true)
    (ht : ({ s with tamper := { s.tamper with mask := 2 ^ src.val } } : State) = t) :
    s.flagClear (2 ^ src.val) =
      if 16 ≤ s.regF .tmpSrcStatus 15 8 src ∨ s.tmpCause src = true then t.setB .tmpStatus 28 true else t.clearFlag src := by
  subst ht
  unfold State.flagClear
  refine (foldl_at (mem_numsFrom_twelve src) (by decide) ?_ _).trans ?_
  · intro k _ hk x
    have hbit : (2 ^ src.val).testBit k = false := Nat.testBit_two_pow_of_ne (Ne.symm hk)
    simp only [hbit, Bool.not_false, true_or, if_true]
  · have hbit : (2 ^ src.val).testBit src.val = true := Nat.testBit_two_pow_self
    have hset : ({ s with tamper := { s.tamper with mask := 2 ^ src.val } } : State).tmpFlag src = true := hflag
    simp only [hbit, hset, Bool.not_true, Bool.false_eq_true, or_self, if_false]
    rfl

theorem State.write_tmpFlagClear {src : Fin 12} (hc : s.Carries acc (RegId.tmpFlagClear.target 0 0)) (ht : s.flagClear (2 ^ src.val) = t) :
    (Host.Outcome.next (s.wrapUp (s.write acc (BitVec.ofNat 32 (2 ^ src.val)) .tmpFlagClear)) : Host.Outcome State Fault Refusal) =
      .next (s.wrapUp (t.respond .okay 0)) :=
  State.write_keys hc (by decide) (by decide) ((congrArg s.flagClear (fld_tmpMask src)).trans ht)

end Sys2Proof.Machine

open Sys2Proof.Machine in
/-- Settles O56: detections by what waits and by the count, windows and lines, samples on the cell, and the clearing of a flag. A detection
that confirms the other detector's is not counted (log entry 36). -/
theorem tamperDetections : Obligations.TamperDetections := by
  unfold Obligations.TamperDetections
  intro s acc src det other line lv l0 l1 l2 l3 k ks x e m n lined live c mark masked
  refine ⟨?below, ?reached, ?confirms, ?idle, ?window, ?disagree, ?hold, ?causeEnd, ?debounce, ?pulse, ?offCell, ?cellOne, ?cellBoth, ?lines,
    ?edge, ?clears, ?keeps⟩
  case below =>
    intro hl hw hn
    have hcount : (s.awaited src det).countDetection src = (n.updTmpSrc src (fun x => { x with count := x.count + 1 }), false) :=
      State.countDetection_below hn
    exact State.next_congr ((State.detect_counts hl hw).trans (by rw [hcount, if_neg Bool.false_ne_true]))
  case reached =>
    intro hl hw hn
    have hcount : (s.awaited src det).countDetection src = (n.updTmpSrc src (fun x => { x with count := 0 }), true) :=
      State.countDetection_reached hn
    exact State.next_congr ((State.detect_counts hl hw).trans (by rw [hcount, if_pos rfl, State.tmpActions_count]))
  case confirms =>
    exact fun hl hw hne => State.next_congr (State.detect_confirms hl ⟨other.val, hw, fun h => hne (Fin.ext h)⟩)
  case idle => exact fun hl => State.next_congr (State.detect_idle hl)
  case window => rfl
  case disagree => exact fun hw hd => State.next_congr (State.disagreeExpire_raises hw hd)
  case hold => exact fun hh => State.next_congr (if_pos hh)
  case causeEnd => rfl
  case debounce => rfl
  case pulse => exact State.next_congr (State.pulseCheck_lines l0 l1 l2 l3)
  case offCell => exact fun hc => State.next_congr (if_pos (by rw [hc]; rfl))
  case cellOne =>
    intro hc hsrc hd hlt hx h0 h1
    have hboth : (([(src.val, det.val)] : List (Nat × Nat)).contains (src.val, 0) && [(src.val, det.val)].contains (src.val, 1)) = false := by
      fin_cases det <;> simp
    have hone : ([(src.val, det.val)] : List (Nat × Nat)).contains (src.val, 0) = true ∨ [(src.val, det.val)].contains (src.val, 1) = true := by
      fin_cases det <;> simp
    have hstep := State.keepSample_at (found := [(src.val, det.val)]) hc hsrc (by simp) hd h0 h1 rfl rfl hone
      (if_neg (by rw [hboth]; exact Bool.false_ne_true))
    rw [State.countDetection_below (s := { s with tamper := { s.tamper with disagree := s.tamper.disagree ++ [src.val] } }) hlt] at hstep
    refine State.next_congr ?_
    rw [hx]
    exact hstep
  case cellBoth =>
    intro hc hsrc hd hle hx h0 h1
    have hstep := State.keepSample_at (found := [(src.val, 0), (src.val, 1)]) hc hsrc (by simp) hd h0 h1 (a := true) (b := true) (by simp)
      (by simp) (.inl rfl) (if_pos rfl)
    rw [State.countDetection_reached hle] at hstep
    refine State.next_congr ?_
    rw [hx]
    exact hstep.trans (by rw [if_pos rfl, State.tmpActions_count])
  case lines =>
    intro hf hl
    refine ⟨(mem_keepDetections_five hf hl).trans ?_, (mem_keepDetections_five hf hl).trans ?_⟩ <;> simp
  case edge => exact State.next_congr (by simp only [State.cellEdge, Bool.and_eq_true, Bool.not_eq_true'])
  case clears =>
    intro hc hflag hlt hcause
    refine State.write_tmpFlagClear hc ((State.flagClear_one hflag rfl).trans (if_neg ?_))
    rw [hcause]
    simpa using hlt
  case keeps => exact fun hc hflag h => State.write_tmpFlagClear hc ((State.flagClear_one hflag rfl).trans (if_pos h))

end

section
/-!
PROOFS. The end of a zeroize and the bound of an action (R491, R492, R506), the signed unlock (R496 to R498) and the tamper words of OTP (R500).
-/
namespace Sys2Proof.Machine

variable {s t : State} {acc : Access} {d : W32} {z : Zeroize} {b : Bytes} {k : Nat}

/-! ### The end of a zeroize -/

/-- Steps 3 and 4 of R492: the requests in hand end, and no zeroize is under way. -/
def State.zeroizeCleared (s : State) : State :=
  let t := s.abortAll .tamperAbort
  { t with tamper := { t.tamper with zeroize := none } }

/-- What waited for the read-back of ZEROIZE follows it. -/
def State.afterZeroize (s : State) : State :=
  if s.tamper.acting = some 5 then
    (({ s with tamper := { s.tamper with acting := if s.tamper.throttling then some 2 else none, throttling := false } } : State).proceed
      10).throttleDone
  else s

theorem State.zeroizeDone_inTime (h : s.flt.t1Over = false) : s.zeroizeDone = s.zeroizeEnds := by
  simp only [State.zeroizeDone, h, Bool.false_and, Bool.false_eq_true, if_false]

/-- A T1 that expired meanwhile resets the block. -/
theorem State.zeroizeDone_late (hz : s.tamper.zeroize = some z) (h : s.flt.t1Over = true) (hr : s.zeroizeEnds.regB .fltEsc 31 = true) :
    s.zeroizeDone = s.zeroizeEnds.t1Enters := by
  simp only [State.zeroizeDone, hz, h, hr, Option.isSome_some, Bool.and_self, if_true]

section
variable (hz : s.tamper.zeroize = some z) (ht : z.transition = false)
include hz ht

theorem State.zeroizeEnds_locks (hl : z.lock = true) : s.zeroizeEnds = s.zeroizeCleared.lockEnds := by
  simp only [State.zeroizeEnds, hz, ht, hl, Bool.false_eq_true, if_false, if_true]
  rfl

theorem State.zeroizeEnds_open (hl : z.lock = false) : s.zeroizeEnds = s.zeroizeCleared.afterZeroize := by
  obtain ⟨t, htt⟩ : ∃ t, s.abortAll .tamperAbort = t := ⟨_, rfl⟩
  simp only [State.zeroizeEnds, hz, ht, hl, Bool.false_eq_true, if_false, State.afterZeroize, State.zeroizeCleared, htt]
  split
  next h => rw [if_pos h]
  next h => rw [if_neg h]

end

theorem State.actionBound_locks (ha : s.tamper.acting = some k) (hk : k ≠ 7) :
    s.actionBound = ({ s with tamper := { s.tamper with acting := none, todo := s.tamper.todo ||| 0x80 } } : State).proceed 10 := by
  simp only [State.actionBound, ha]

theorem State.actionBound_safe (ha : s.tamper.acting = some 7) : s.actionBound = s.enterSafe := by
  simp only [State.actionBound, ha]

/-! ### The signed unlock -/

theorem State.write_tmpUnlockCtrl (hc : s.Carries acc (RegId.tmpUnlockCtrl.target 0 0))
    (ht : s.writeKeys { id := .tmpUnlockCtrl } d = t) :
    (Host.Outcome.next (s.wrapUp (s.write acc d .tmpUnlockCtrl)) : Host.Outcome State Fault Refusal) = .next (s.wrapUp (t.respond .okay 0)) :=
  State.write_keys hc (by decide) (by decide) ht

theorem State.writeKeys_unlockNew (h30 : bitOf d 30 = true) (h31 : bitOf d 31 = false) :
    s.writeKeys { id := .tmpUnlockCtrl } d = (s.store { id := .tmpUnlockCtrl } d).unlockNew := by
  simp only [State.writeKeys, h30, h31, Bool.false_eq_true, if_false, if_true]

theorem State.writeKeys_unlockGo (h30 : bitOf d 30 = false) (h31 : bitOf d 31 = true) :
    s.writeKeys { id := .tmpUnlockCtrl } d = (s.store { id := .tmpUnlockCtrl } d).unlockGo := by
  simp only [State.writeKeys, h30, h31, Bool.false_eq_true, if_false, if_true]

theorem State.unlockNew_draws (hr : s.rngState = rngReady) (hg : s.generate 5 [] 32 = (t, b)) :
    s.unlockNew = (numsFrom 0 8).foldl (fun s n => s.setReg .tmpUnlockChal (BitVec.ofNat 32 (le32 b (4 * n))) n) t := by
  simp only [State.unlockNew, hr, hg, ne_eq, not_true, if_false]

theorem State.unlockNew_refused (hr : s.rngState ≠ rngReady) : s.unlockNew = s.setB .tmpUnlockCtrl 29 true := if_pos hr

section
variable (hbusy : s.regB .tmpUnlockCtrl 31 = false) (hp : s.regF .tmpUnlockCtrl 1 0 = 1 ∨ s.regF .tmpUnlockCtrl 1 0 = 2)
include hbusy hp

/-- An attempt that meets its conditions begins to fetch its record. -/
theorem State.unlockGo_fetches (htries : s.regF .tmpUnlockCtrl 26 24 ≠ 5) (hlock : s.regF .tmpUnlockCtrl 1 0 = 1 ↔ s.regB .tmpStatus 31 = true)
    (hkey : allZero (s.otpBytes 0x070 8) = false ∨ allZero (s.otpBytes 0x078 8) = false) (hlo : 8 ≤ s.regF .tmpUnlockLen 13 0)
    (hhi : s.regF .tmpUnlockLen 13 0 ≤ 8192) :
    s.unlockGo = { s.setB .tmpUnlockCtrl 31 true with tamper := { s.tamper with record := [] } } := by
  have hpurpose : ¬(s.regF .tmpUnlockCtrl 1 0 = 0 ∨ s.regF .tmpUnlockCtrl 1 0 = 3) := by omega
  have hsame : ((s.regF .tmpUnlockCtrl 1 0 = 1) = (s.regB .tmpStatus 31 = true)) = True := eq_true (propext hlock)
  have hnokey : ¬(allZero (s.otpBytes 0x070 8) = true ∧ allZero (s.otpBytes 0x078 8) = true) := by
    rcases hkey with h | h <;> simp [h]
  have hlen : ¬(s.regF .tmpUnlockLen 13 0 < 8 ∨ 8192 < s.regF .tmpUnlockLen 13 0) := by omega
  simp only [State.unlockGo, hbusy, hpurpose, htries, hsame, hnokey, hlen, ne_eq, not_true, Bool.false_eq_true, if_false]

/-- After five tries no attempt is made. -/
theorem State.unlockGo_exhausted (htries : s.regF .tmpUnlockCtrl 26 24 = 5) :
    s.unlockGo = ((s.setF .tmpUnlockCtrl 23 16 3).setB .tmpUnlockCtrl 31 false).setB .tmpUnlockCtrl 29 true := by
  have hpurpose : ¬(s.regF .tmpUnlockCtrl 1 0 = 0 ∨ s.regF .tmpUnlockCtrl 1 0 = 3) := by omega
  simp only [State.unlockGo, hbusy, hpurpose, htries, Bool.false_eq_true, if_false, if_true, State.unlockRefused, State.unlockCtrlErr]

end

/-- A record that verified: the attempt has ended with result 0, its challenge and its record are gone. -/
def State.unlockVerified (s : State) : State :=
  let t := (numsFrom 0 8).foldl (fun s n => s.setReg .tmpUnlockChal 0 n) (s.unlockRefused 0)
  { t with tamper := { t.tamper with record := [] } }

section
variable (hgo : s.regB .tmpUnlockCtrl 31 = true) (hlen : s.tamper.record.length = s.regF .tmpUnlockLen 13 0)
include hgo hlen

theorem State.unlockDone_rejects (hv : s.recordVerifies (s.regF .tmpUnlockCtrl 1 0) = false) : s.unlockDone = s.unlockFail 1 := by
  simp only [State.unlockDone, hgo, hlen, hv, ne_eq, not_true, Bool.not_true, Bool.not_false, Bool.false_eq_true, or_self, if_false, if_true]

theorem State.unlockDone_unlocks (hp : s.regF .tmpUnlockCtrl 1 0 = 1) (hv : s.recordVerifies 1 = true) :
    s.unlockDone = ((s.unlockVerified.setB .tmpStatus 31 false).clearFlags 0xFFF).enterLevel 1 6 := by
  simp only [State.unlockDone, hgo, hlen, hp, hv, ne_eq, not_true, Bool.not_true, Bool.false_eq_true, or_self, if_false, if_true]
  rfl

theorem State.unlockDone_clears (hp : s.regF .tmpUnlockCtrl 1 0 = 2) (hv : s.recordVerifies 2 = true) :
    s.unlockDone = s.unlockVerified.clearFlags s.tamper.mask := by
  simp only [State.unlockDone, hgo, hlen, hp, hv, ne_eq, not_true, Bool.not_true, Bool.false_eq_true, or_self, if_false,
    show ¬(2 = 1) by decide]
  rfl

end

/-! ### The tamper words of OTP -/

theorem State.write_tmpOtpCtrl (hc : s.Carries acc (RegId.tmpOtpCtrl.target 0 0)) (h31 : bitOf d 31 = true)
    (hbusy : s.regB .tmpOtpCtrl 31 = false) (ht : (s.store { id := .tmpOtpCtrl } d).tmpOtp = t) :
    (Host.Outcome.next (s.wrapUp (s.write acc d .tmpOtpCtrl)) : Host.Outcome State Fault Refusal) = .next (s.wrapUp (t.respond .okay 0)) := by
  refine State.write_keys hc (by decide) (by decide) (Eq.trans ?_ ht)
  simp only [State.writeKeys, h31, hbusy, Bool.not_false, Bool.and_self, if_true]

section
variable {field : Nat} (hfield : s.regF .tmpOtpCtrl 7 4 = field)
include hfield

theorem State.tmpOtp_digest (hcmd : s.regF .tmpOtpCtrl 3 0 = 1) (hmay : s.lc = lcFactory ∨ s.lc = lcProvisioned) (hle : field ≤ 1)
    (hz : allZero (s.otpBytes (0x070 + 8 * field) 8) = true) :
    s.tmpOtp = (s.setB .tmpOtpCtrl 31 true).program .tamperDigest (otpWords (0x070 + 8 * field) s.challenge) := by
  subst hfield
  have hallowed : (s.lc == lcFactory || s.lc == lcProvisioned) = true := by simpa using hmay
  simp only [State.tmpOtp, hcmd, hallowed, hz, Nat.not_lt.mpr hle, Bool.not_true, Bool.false_eq_true, if_true, if_false, and_false,
    show ¬(1 = 0) by decide, show ¬(3 < 1) by decide, show ¬(1 = 2) by decide, false_and, or_self]

theorem State.tmpOtp_disable (hcmd : s.regF .tmpOtpCtrl 3 0 = 2) (hmay : s.lc = lcFactory ∨ s.lc = lcProvisioned) (hle : field ≤ 10)
    (hb : bitOf (s.otpWord 0x080) field = false) :
    s.tmpOtp = (s.setB .tmpOtpCtrl 31 true).program .sourceDisable [(0x080, BitVec.ofNat 32 (2 ^ field))] := by
  subst hfield
  have hallowed : (s.lc == lcFactory || s.lc == lcProvisioned) = true := by simpa using hmay
  simp only [State.tmpOtp, hcmd, hallowed, hb, Nat.not_lt.mpr hle, Bool.not_true, Bool.false_eq_true, if_true, if_false, and_false,
    show ¬(2 = 0) by decide, show ¬(3 < 2) by decide, show ¬(2 = 1) by decide, false_and, or_self]

end

theorem State.tmpOtp_keepLost (hcmd : s.regF .tmpOtpCtrl 3 0 = 3) (hmay : s.lc = lcFactory ∨ s.lc = lcProvisioned) (hz : s.otpWord 0x081 = 0) :
    s.tmpOtp = (s.setB .tmpOtpCtrl 31 true).program .keepLost [(0x081, BitVec.ofNat 32 (2 ^ 31 + s.regF .tmpOtpCtrl 15 8))] := by
  have hallowed : (s.lc == lcFactory || s.lc == lcProvisioned) = true := by simpa using hmay
  simp only [State.tmpOtp, hcmd, hallowed, hz, Bool.not_true, Bool.false_eq_true, if_true, if_false,
    show ¬(3 = 0) by decide, show ¬(3 < 3) by decide, show ¬(3 = 1) by decide, show ¬(3 = 2) by decide, false_and, or_self]

theorem State.tmpOtp_notAllowed (hcmd : s.regF .tmpOtpCtrl 3 0 = 3) (hmay : ¬(s.lc = lcFactory ∨ s.lc = lcProvisioned)) :
    s.tmpOtp = s.tmpOtpEnds 1 := by
  have hallowed : (s.lc == lcFactory || s.lc == lcProvisioned) = false := by simpa using hmay
  simp only [State.tmpOtp, hcmd, hallowed, Bool.not_false, if_true, if_false,
    show ¬(3 = 0) by decide, show ¬(3 < 3) by decide, show ¬(3 = 1) by decide, show ¬(3 = 2) by decide, false_and, or_self]

end Sys2Proof.Machine

open Sys2Proof.Machine in
/-- Settles O57: what follows a zeroize and an action's bound, the steps of the signed unlock, and the tamper words of OTP. A verified UNLOCK
enters level 3 with cause 6 (log entry 37). -/
theorem tamperActionsAndUnlock : Obligations.TamperActionsAndUnlock := by
  unfold Obligations.TamperActionsAndUnlock
  intro s t acc d z b k cleared ctrl u purpose locked ready verified whole otp o field cmd may start
  refine ⟨?alone, ?proceeds, ?late, ?locks, ?bound, ?boundOfLock, ?challenge, ?noChallenge, ?fetches, ?exhausted, ?rejects, ?unlocks, ?clears,
    ?digest, ?disable, ?keepLost, ?notAllowed⟩
  case alone =>
    exact fun hz hl ht ha h1 => State.next_congr ((State.zeroizeDone_inTime h1).trans ((State.zeroizeEnds_open hz ht hl).trans (if_neg ha)))
  case proceeds =>
    exact fun hz hl ht ha h1 => State.next_congr ((State.zeroizeDone_inTime h1).trans ((State.zeroizeEnds_open hz ht hl).trans (if_pos ha)))
  case late =>
    intro hz hl ht ha h1 hr
    have hends : s.zeroizeEnds = cleared := (State.zeroizeEnds_open hz ht hl).trans (if_neg ha)
    exact State.next_congr ((State.zeroizeDone_late hz h1 (by rw [hends]; exact hr)).trans (by rw [hends]))
  case locks => exact fun hz hl ht h1 => State.next_congr ((State.zeroizeDone_inTime h1).trans (State.zeroizeEnds_locks hz ht hl))
  case bound => exact fun ha hk => State.next_congr (State.actionBound_locks ha hk)
  case boundOfLock => exact fun ha => State.next_congr (State.actionBound_safe ha)
  case challenge =>
    exact fun hc h30 h31 hr hg => State.write_tmpUnlockCtrl hc ((State.writeKeys_unlockNew h30 h31).trans (State.unlockNew_draws hr hg))
  case noChallenge =>
    exact fun hc h30 h31 hr => State.write_tmpUnlockCtrl hc ((State.writeKeys_unlockNew h30 h31).trans (State.unlockNew_refused hr))
  case fetches =>
    rintro hc h30 h31 ⟨hbusy, hp⟩ htries hlock hkey hlo hhi
    exact State.write_tmpUnlockCtrl hc ((State.writeKeys_unlockGo h30 h31).trans (State.unlockGo_fetches hbusy hp htries hlock hkey hlo hhi))
  case exhausted =>
    rintro hc h30 h31 ⟨hbusy, hp⟩ htries
    exact State.write_tmpUnlockCtrl hc ((State.writeKeys_unlockGo h30 h31).trans (State.unlockGo_exhausted hbusy hp htries))
  case rejects =>
    rintro ⟨hgo, hlen⟩ hv
    exact State.next_congr (State.unlockDone_rejects hgo hlen hv)
  case unlocks =>
    rintro ⟨hgo, hlen⟩ hv hp
    exact State.next_congr (State.unlockDone_unlocks hgo hlen hp hv)
  case clears =>
    rintro ⟨hgo, hlen⟩ hv hp
    exact State.next_congr (State.unlockDone_clears hgo hlen hp hv)
  case digest =>
    rintro ⟨hc, h31, hbusy, hcmd⟩ hmay hle hz
    exact State.write_tmpOtpCtrl hc h31 hbusy (State.tmpOtp_digest rfl hcmd hmay hle hz)
  case disable =>
    rintro ⟨hc, h31, hbusy, hcmd⟩ hmay hle hb
    exact State.write_tmpOtpCtrl hc h31 hbusy (State.tmpOtp_disable rfl hcmd hmay hle hb)
  case keepLost =>
    rintro ⟨hc, h31, hbusy, hcmd⟩ hmay hz
    exact State.write_tmpOtpCtrl hc h31 hbusy (State.tmpOtp_keepLost hcmd hmay hz)
  case notAllowed =>
    rintro ⟨hc, h31, hbusy, hcmd⟩ hmay
    exact State.write_tmpOtpCtrl hc h31 hbusy (State.tmpOtp_notAllowed hcmd hmay)

end

section
/-!
PROOFS. The random number generator: samples and their tests (R389 to R391), reseeds (R394, R395), READY (R403), recalibration (R392), the reset
(R405) and the refill of RNG_DATA (R402).
-/
namespace Sys2Proof.Machine

variable {s t : State} {acc : Access} {i k : Nat} {bit good : Bool} {d : W32} {e : Bytes}

/-! ### Samples -/

/-- The state with a sample in the open window of its source, and the peaks that it leaves. -/
def State.sampled (o : State) (i run apt : Nat) (w : List Bool) (bit : Bool) : State :=
  let v := o.updNoise i (fun n => { n with window := w, run := run, bit := bit })
  let p := v.setF .rngSrcPeak 15 0 (max (v.regF .rngSrcPeak 15 0 i) (min run 0xFFFF)) i
  p.setF .rngSrcPeak 31 16 (max (p.regF .rngSrcPeak 31 16 i) apt) i

theorem rngSrcStatus_ne_peak : ∀ i : Fin 3, RegId.rngSrcStatus.addr i 0 ≠ RegId.rngSrcPeak.addr i 0 := by decide

/-- Peaks and windows leave the state of their source. -/
theorem State.srcState_sampled {i : Fin 3} (run apt : Nat) (w : List Bool) (bit : Bool) :
    (s.sampled i run apt w bit).srcState i = s.srcState i := by
  simp only [State.srcState, State.sampled, State.regF_setF_other (rngSrcStatus_ne_peak i)]
  rfl

theorem State.srcState_openWindow (j : Nat) : (s.openWindow i).srcState j = s.srcState j := by
  unfold State.openWindow
  split <;> rfl

/-- A test fails the source that is TESTING or HEALTHY; of one in RECAL or FAILED it ends the window (log entry 136). -/
theorem State.testFailed_eq (h : 1 ≤ s.srcState i) (test : Nat) :
    s.testFailed i test = if s.srcState i ≤ 2 then s.srcFail i test
      else s.updNoise i (fun n => { n with window := [], run := 0, retest := some false }) := by
  have hcond : (s.srcState i = 1 ∨ s.srcState i = 2) ↔ s.srcState i ≤ 2 := by omega
  simp only [State.testFailed, hcond]

/-- The tests of a window in their order: repetition, proportion, and at its end autocorrelation. -/
theorem State.rngSample_tests {i : Fin 3} (hlo : 1 ≤ s.srcState i) (hhi : s.srcState i ≤ 4) {n : NoiseSrc} (hn : (s.openWindow i).noise i = n)
    {run : Nat} (hrun : (if n.run ≠ 0 ∧ n.bit = bit then n.run + 1 else 1) = run) {w : List Bool} (hw : bit :: n.window = w) {apt : Nat}
    (hapt : (w.filter (· == w.getLastD bit)).length = apt) {u : State} (hu : (s.openWindow i).sampled i run apt w bit = u) :
    s.rngSample i bit =
      if n.params.rctC ≤ run then u.testFailed i 1
      else if n.params.aptC ≤ apt then u.testFailed i 2
      else if w.length < 1024 then u
      else if autoFails n.params.acC w.reverse then u.testFailed i 3
      else u.windowPassed i := by
  have hon : ¬(s.srcState i = 0 ∨ s.srcState i = 5) := by omega
  have hsample : n.sample bit = { n with window := w, run := run, bit := bit } := by rw [← hrun, ← hw]; rfl
  have happ : ({ n with window := w, run := run, bit := bit } : NoiseSrc).apt = apt := hapt
  have hstate : s.rngSample i bit = match ({ n with window := w, run := run, bit := bit } : NoiseSrc).fails with
      | some t => u.testFailed i t
      | none => if w.length < 1024 then u else u.windowPassed i := by
    simp only [State.rngSample, hon, if_false, hn, hsample, happ]
    rw [← hu]
    rfl
  rw [hstate]
  unfold NoiseSrc.fails
  rw [happ]
  by_cases h1 : n.params.rctC ≤ run
  · simp only [h1, if_true]
  by_cases h2 : n.params.aptC ≤ apt
  · simp only [h1, h2, if_true, if_false]
  by_cases h3 : w.length < 1024
  · simp only [h1, h2, h3, Nat.not_le.mpr h3, false_and, if_true, if_false]
  · cases autoFails n.params.acC w.reverse
    · simp only [h1, h2, h3, Nat.not_lt.mp h3, Bool.false_eq_true, and_false, if_false]
    · simp only [h1, h2, h3, Nat.not_lt.mp h3, and_self, if_true, if_false]

/-! ### Reseeds and READY -/

theorem State.drbgReseedCmd_root (hr : s.rngState = rngReady) : s.drbgReseedCmd 0 = s.reseedRoot := by
  simp only [State.drbgReseedCmd, hr, ne_eq, not_true, false_or, show ¬(6 ≤ 0) by decide, if_true, if_false]

theorem State.reseedRoot_full (hp : 2 ≤ s.rng.pool.length) :
    s.reseedRoot = (({ s with rng := { s.rng with pool := s.rng.pool.drop 2 } } : State).seeded 0
      (drbgReseed (s.drbgAt 0).st ((s.rng.pool.take 2).flatten.take 48) [])).applyRngParams := by
  rw [State.reseedRoot, if_neg (Nat.not_lt.mpr hp)]
  rfl

theorem State.reseedRoot_waits (hp : s.rng.pool.length < 2) : s.reseedRoot = { s with rng := { s.rng with rootWaits := true } } := if_pos hp

/-- A child reseeds with what a call of ROOT gives it. -/
theorem State.drbgReseedCmd_child (hr : s.rngState = rngReady) (hlo : 1 ≤ k) (hhi : k < 6) (hc : s.callRoot 48 = (t, e))
    (ht : t.rngState = rngReady) : s.drbgReseedCmd k = (t.seeded k (drbgReseed (t.drbgAt k).st e [])).applyRngParams := by
  have h6 : ¬(6 ≤ k) := by omega
  have h0 : ¬(k = 0) := by omega
  simp only [State.drbgReseedCmd, hr, h6, h0, ne_eq, not_true, or_self, if_false, State.reseedChild, hc, ht]

theorem State.rngBecomesReady_ready (hr : s.rngState = rngStarting ∨ s.rngState = rngResetting) (hh : 2 ≤ s.healthy.length)
    (hp : 2 ≤ s.rng.pool.length) (ht : (s.takePool.1.seeded 0 (drbgSeed s.takePool.2 (s.person 0))).seedChildren [1, 2, 3, 4, 5] = t)
    (hn : t.rngState ≠ rngHalted) :
    s.rngBecomesReady = (numsFrom 0 96).foldl State.fillDomain (((t.setF .rngStatus 2 0 rngReady).setF .rngStatus 15 12 0).setB .mgtStatus 13
      true) := by
  subst ht
  rw [State.rngBecomesReady, if_pos ⟨hr, hh, hp⟩]
  exact if_neg hn

/-! ### Recalibration, reset and refill -/

theorem rngSrcCtrl_addr : ∀ i : Fin 3, 0x040000 ≤ RegId.rngSrcCtrl.addr i 0 ∧ RegId.rngSrcCtrl.addr i 0 < 0x080000 := by decide

theorem State.write_rngSrcCtrl {i : Fin 3} (hc : s.Carries acc (RegId.rngSrcCtrl.target i 0)) (h0 : bitOf d 0 = true) (ht : s.rngRecal i = t) :
    (Host.Outcome.next (s.wrapUp (s.write acc d .rngSrcCtrl i)) : Host.Outcome State Fault Refusal) = .next (s.wrapUp (t.respond .okay 0)) :=
  State.write_units hc (rngSrcCtrl_addr i).1 (rngSrcCtrl_addr i).2 ((if_pos h0).trans ht)

theorem State.rngRecal_begins (h1 : s.rngState ≠ rngStarting) (h2 : s.rngState ≠ rngResetting) (hs : 1 ≤ s.srcState i ∧ s.srcState i ≤ 4)
    (hh : ¬(s.srcState i = 2 ∧ s.healthy.length = 2)) :
    s.rngRecal i = ((s.updNoise i (fun n => { n with window := [], run := 0, acc := [], blocks := [], retest := none })).setSrcState i 4).rngCheck := by
  have h5 : ¬(s.srcState i = 5) := by omega
  have h0 : ¬(s.srcState i = 0) := by omega
  simp only [State.rngRecal, hh, h5, h0, h1, h2, or_self, if_false]

/-- The last two healthy sources are not recalibrated. -/
theorem State.rngRecal_refused (h2 : s.srcState i = 2) (hh : s.healthy.length = 2) : s.rngRecal i = s.setB .rngCtrl 1 true :=
  if_pos (.inl ⟨h2, hh⟩)

theorem State.rngRecalDone_passed (h4 : s.srcState i = 4) (hr : (s.noise i).retest = some true) :
    s.rngRecalDone i true = (State.combine 16 ((s.setSrcState i 2).updNoise i
      (fun n => { n with window := [], run := 0, retest := none, retried := true }))).rootClaim := by
  simp only [State.rngRecalDone, h4, hr, ne_eq, not_true, Bool.not_true, Bool.false_eq_true, if_false]

theorem State.rngRecalDone_failed (h4 : s.srcState i = 4) (hr : (s.noise i).retest = some false) : s.rngRecalDone i true = s.srcFail i 4 := by
  simp only [State.rngRecalDone, h4, hr, ne_eq, not_true, Bool.not_true, Bool.false_eq_true, if_false]

theorem State.rngRecalDone_early (h4 : s.srcState i = 4) (hr : (s.noise i).retest = none) : s.rngRecalDone i true = s := by
  simp only [State.rngRecalDone, h4, hr, ne_eq, not_true, Bool.not_true, Bool.false_eq_true, if_false]

theorem State.rngRecalDone_untrimmed (h4 : s.srcState i = 4) : s.rngRecalDone i false = s.srcFail i 5 := by
  simp only [State.rngRecalDone, h4, ne_eq, not_true, Bool.not_false, if_true, if_false]

theorem State.write_rngCtrl (hc : s.Carries acc (RegId.rngCtrl.target 0 0)) (h0 : bitOf d 0 = true)
    (ht : (s.store { id := .rngCtrl } d).rngReset = t) :
    (Host.Outcome.next (s.wrapUp (s.write acc d .rngCtrl)) : Host.Outcome State Fault Refusal) = .next (s.wrapUp (t.respond .okay 0)) :=
  State.write_units hc (by decide) (by decide) ((if_pos h0).trans ht)

/-- RNG_DATA takes a generate call of SW's DRBG once its words have been read. -/
theorem State.rngRefill_fills (hr : s.rngState = rngReady) (hv : s.regB .rngDataStatus 0 = false) (hg : s.generate 5 [] 32 = (t, e))
    (ht : t.rngState = rngReady) {r : State} (hfill : (numsFrom 0 8).foldl (fun s n => s.setReg .rngData (BitVec.ofNat 32 (le32 e (4 * n))) n) t = r) :
    s.rngRefill = { r.setB .rngDataStatus 0 true with rng := { r.rng with read := [] } } := by
  subst hfill
  simp only [State.rngRefill, hr, hv, hg, ht, ne_eq, not_true, Bool.false_eq_true, or_self, if_false]

end Sys2Proof.Machine

open Sys2Proof.Machine in
/-- Settles O58: samples by their tests, reseeds, READY, recalibration and reset, and the refill of RNG_DATA. -/
theorem randomNumbers : Obligations.RandomNumbers := by
  unfold Obligations.RandomNumbers
  intro s t acc i bit good d k e o n run w apt v p u rc wiped failed
  refine ⟨?tests, ?off, ?root, ?rootWaits, ?child, ?ready, ?recal, ?recalRefused, ?passed, ?retestFailed, ?early, ?untrimmed, ?reset,
    ?resetRefused, ?refill⟩
  case tests =>
    intro hlo hhi
    have hstate : u.srcState i = s.srcState i := (State.srcState_sampled (s := o) run apt w bit).trans (State.srcState_openWindow i)
    have hfailed (j : Nat) : u.testFailed i j = failed j :=
      (State.testFailed_eq (hstate.symm ▸ hlo) j).trans (by rw [hstate])
    refine State.next_congr ((State.rngSample_tests hlo hhi rfl rfl rfl rfl (u := u) rfl).trans ?_)
    simp only [hfailed]
    rfl
  case off => exact fun h => State.next_congr (if_pos h)
  case root => exact fun hr hp => State.next_congr ((State.drbgReseedCmd_root hr).trans (State.reseedRoot_full hp))
  case rootWaits => exact fun hr hp => State.next_congr ((State.drbgReseedCmd_root hr).trans (State.reseedRoot_waits hp))
  case child => exact fun hr hlo hhi hc ht => State.next_congr (State.drbgReseedCmd_child hr hlo hhi hc ht)
  case ready => exact fun hr hh hp ht hn => State.next_congr (State.rngBecomesReady_ready hr hh hp ht hn)
  case recal => exact fun hc h0 h1 h2 hs hh => State.write_rngSrcCtrl hc h0 (State.rngRecal_begins h1 h2 hs hh)
  case recalRefused => exact fun hc h0 h2 hh => State.write_rngSrcCtrl hc h0 (State.rngRecal_refused h2 hh)
  case passed =>
    rintro h4 rfl hr
    exact State.next_congr (State.rngRecalDone_passed h4 hr)
  case retestFailed =>
    rintro h4 rfl hr
    exact State.next_congr (State.rngRecalDone_failed h4 hr)
  case early =>
    rintro h4 rfl hr
    exact State.next_congr (State.rngRecalDone_early h4 hr)
  case untrimmed =>
    rintro h4 rfl
    exact State.next_congr (State.rngRecalDone_untrimmed h4)
  case reset => exact fun hc h0 h => State.write_rngCtrl hc h0 (if_pos h)
  case resetRefused => exact fun hc h0 h1 h2 => State.write_rngCtrl hc h0 (if_neg (not_or.mpr ⟨h1, h2⟩))
  case refill => exact fun hr hv hg ht => State.next_congr (State.rngRefill_fills hr hv hg ht rfl)

end

section
/-!
PROOFS. The pm port and the clocks (R62 to R66, R524, R525), the debug enable (R69, R70, R439) and the idle timers (R520 to R522).
-/
namespace Sys2Proof.Machine

variable {s t : State} {acc : Access} {a d op cls : Nat} {w : W32} {ns : List Nat} {x y : Offered}

/-! ### The pm port -/

/-- A domain that has reached the state asked for goes on by it, and the port takes the next request. -/
theorem State.pmAck_reached {dom : Nat} (h : s.power.asked.find? (fun e => e.1 = dom) = some (d, op))
    (ht : ({ s with power := { s.power with
      asked := s.power.asked.filter (fun e => e.1 ≠ dom), late := s.power.late.filter (· ≠ dom)
      fromOff := if op = 2 then s.power.fromOff.filter (· ≠ dom) else s.power.fromOff } } : State).setDom dom op = t) :
    s.pmAck dom = State.pumpPm 4 (if op = 2 then (t.domWoken dom (s.power.fromOff.contains dom)).fillDomain dom
      else if op = 0 then (t.domLost dom).dropBuffers dom else t).bootReady := by
  subst ht
  simp only [State.pmAck, h]

theorem State.pmTimeout_late {dom : Nat} (ha : s.power.asked.any (fun e => e.1 = dom) = true) (hl : s.power.late.contains dom = false)
    (ht : ({ s with power := { s.power with late := s.power.late ++ [dom] } } : State) = t) :
    s.pmTimeout dom = ((if dom = 16 then t.mark 10 0 else t.containDom dom).event srcPmHandshake dom dom).bootReady := by
  subst ht
  exact if_pos ⟨ha, by rw [hl]; rfl⟩

/-! ### Accesses while fab_clk is stopped -/

theorem State.portWrite_stopped (hf : s.pins.fabRun = false) (ha : portAddr a = true) :
    s.portWrite acc a w = s.offerAccess { acc := acc, write := true, addr := a, data := w } := by
  simp only [State.portWrite, ha, if_true, State.writeTarget, hf, Bool.false_eq_true, if_false]
  rfl

theorem State.portRead_stopped (hf : s.pins.fabRun = false) (ha : portAddr a = true) :
    s.portRead acc a = s.offerAccess { acc := acc, write := false, addr := a } := by
  simp only [State.portRead, ha, if_true, State.readTarget, hf, Bool.false_eq_true, if_false]
  rfl

/-- One of eight accesses waits for the clock; a further one is not taken. -/
theorem State.offerAccess_waits (h : s.port.waiting.length < 8) :
    s.offerAccess x = { s with port := { s.port with waiting := s.port.waiting ++ [x] }, pins := { s.pins with fabReq := true } } :=
  if_neg (Nat.not_le.mpr h)

theorem State.offerAccess_full (h : 8 ≤ s.port.waiting.length) : s.offerAccess x = s := if_pos h

/-- A waiting access, served once the clock runs. -/
def State.serveAccess (s : State) (x : Offered) : State :=
  if x.write then s.writeNow x.acc (targetOf x.addr) x.data else s.readNow x.acc (targetOf x.addr)

theorem State.clockAck_fab (h : s.pins.fabReq = true) :
    s.clockAck false = State.servePort { s with pins := { s.pins with fabRun := true } } := by
  simp only [State.clockAck, h, Bool.false_eq_true, if_false, if_true]

theorem State.servePort_none (h : s.port.waiting = []) : s.servePort = s := if_pos (by rw [h]; rfl)

theorem State.servePort_one (h : s.port.waiting = [x]) (ht : ({ s with port := { s.port with waiting := [] } } : State).serveAccess x = t) :
    s.servePort = { t with port := { t.port with earlier := [] } } := by
  subst ht
  simp only [State.servePort, h, List.isEmpty_cons, Bool.false_eq_true, if_false, List.foldl_cons, List.foldl_nil]
  rfl

/-- Two waiting accesses are served in their order, and the first one's response stands before the second's. -/
theorem State.servePort_two (h : s.port.waiting = [x, y]) (ht : ({ s with port := { s.port with waiting := [] } } : State).serveAccess x = t)
    {u : State} (hu : t.serveAccess y = u) : s.servePort = { u with port := { u.port with earlier := [(t.port.rsp, t.port.rdata)] } } := by
  subst ht hu
  simp only [State.servePort, h, List.isEmpty_cons, Bool.false_eq_true, if_false, List.foldl_cons, List.foldl_nil]
  rfl

/-! ### The debug enable -/

theorem State.endCommits_none (h : ∀ p < 64, s.regB .keyStageStatus 31 p = false) (st : Status) : s.endCommits st = s := by
  have hnone : (numsFrom 0 64).filter (fun p => s.regB .keyStageStatus 31 p) = [] :=
    List.filter_eq_nil_iff.mpr (fun p hp => by
      obtain ⟨-, hlt⟩ := mem_numsFrom.mp hp
      simp [h p (by omega)])
  simp only [State.endCommits, hnone, List.foldl_nil]

/-- The debug enable is up, and what is at work is marked to go on under the test root. -/
def State.dbgSwitched (s : State) : State :=
  { s with pins := { s.pins with dbgEn := true }, reqs := s.reqs.map (fun r => { r with testRoot := true }) }

/-- The berths, the cache entries and the slots that were made under a real root go. -/
def State.dropReal (s : State) : State :=
  let b := ((s.berths.filter (fun e => e.2.rootReal)).map (·.1)).foldl State.invalidateBerth s
  let c : State := { b with ckc := { b.ckc with entries := b.ckc.entries.filter (fun e => !(e.2.isPrivate && e.2.rootReal)) } }
  ((c.keys.filter (fun e => e.2.rootReal && decide (e.2.state ≠ .invalid))).map (·.1)).foldl
    (fun s i => if (s.key i).state = .invalid then s else s.invalidateSlot i) c

/-- The requests that took a key from a real root end, and no others. -/
def State.endReal (s : State) : State :=
  (if s.tamper.zeroize.isSome then [] else s.reqs.filter (fun r => r.atWork && s.tookReal r)).foldl (fun s r => (s.abortEngine r).finishReq r.id
    { status := .rootUnavailable, outLen := r.bas.acked, unit := r.unit, inst := r.inst }) s

theorem State.endReal_none (hreal : ∀ r ∈ s.reqs, r.atWork = true → s.tookReal r = false) : s.endReal = s := by
  have hnohit : s.reqs.filter (fun r => r.atWork && s.tookReal r) = [] :=
    List.filter_eq_nil_iff.mpr (fun r hr => by
      cases hw : r.atWork
      · simp
      · simp [hreal r hr hw])
  simp only [State.endReal, hnohit, ite_self, List.foldl_nil]

theorem State.dbgRise_low (hd : s.pins.dbgEn = false) :
    s.dbgRise = State.dropReal (State.endReal { s.dbgSwitched.endCommits .rootUnavailable with staging := [] }) :=
  if_neg (by rw [hd]; exact Bool.false_ne_true)

/-- The rise of dbg_en with no commit under way and no request that took a real key: what was made under a real root is invalidated. -/
theorem State.dbgRise_invalidates (hd : s.pins.dbgEn = false)
    (hc : ∀ p < 64, s.regB .keyStageStatus 31 p = false)
    (hreal : ∀ r ∈ s.dbgSwitched.reqs, r.atWork = true → State.tookReal { s.dbgSwitched with staging := [] } r = false) :
    s.dbgRise = State.dropReal { s.dbgSwitched with staging := [] } := by
  have hcommits : s.dbgSwitched.endCommits .rootUnavailable = s.dbgSwitched := State.endCommits_none (s := s.dbgSwitched) hc _
  rw [State.dbgRise_low hd, hcommits]
  exact congrArg State.dropReal (State.endReal_none hreal)

/-- A request that began under the test root is worked on under it after the fall (R70). -/
theorem State.runOp_testRoot {rid : Nat} {r : Req} {o : Op} (h : (s.withDbg true).Runs rid r o) (ht : r.testRoot = true)
    (hd : s.pins.dbgEn = false) (f : State → Req → State) : s.runOp rid o f = ((s.withDbg true).runOp rid o f).withDbg false := by
  rw [State.runOp_underTest h ht hd, State.runOp_runs h]

/-! ### Idle timers -/

theorem State.retExpire_rests (hu : domUnits d = some (cls, ns)) (hc : cls ≤ 5) (ho : s.domOn d = true) (hr : s.mayRest cls ns d = true) :
    s.retExpire d = s.askDom d 1 := by
  simp only [State.retExpire, hu, hc, ho, hr, and_self, if_true]

theorem State.offExpire_rests (hu : domUnits d = some (cls, ns)) (hc : cls ≤ 5) (hs : s.domState d = 1) (hi : s.regF .pwrIdle 23 12 cls ≠ 0)
    (hr : s.mayRest cls ns d = true) (hk : ∀ n ∈ ns, s.keepsPower d cls n = false) (ha : s.power.asked.any (fun e => e.1 = d) = false) :
    s.offExpire d = s.askDom d 0 := by
  have hkeep : ns.any (s.keepsPower d cls) = false := List.any_eq_false.mpr (fun n hn => by simp [hk n hn])
  simp only [State.offExpire, hu, hc, hs, hi, hr, hkeep, ha, ne_eq, not_false_eq_true, Bool.not_false, and_self, if_true]

theorem State.clkIdle_eng (h : s.needsEng = false) : s.clkIdle true = { s with pins := { s.pins with engReq := false, engRun := false } } := by
  simp only [State.clkIdle, h, Bool.false_eq_true, if_true, if_false]

theorem State.clkIdle_engNeeded (h : s.needsEng = true) : s.clkIdle true = s := by
  simp only [State.clkIdle, h, if_true]

/-- With fab_clk the DMA, completion and Basin domains go to RETENTION. -/
theorem State.clkIdle_fab (h : s.fabIdle = true) :
    s.clkIdle false = ((numsFrom 12 13).filter s.domOn).foldl (fun s d => s.askDom d 1)
      { s with pins := { s.pins with fabReq := false, fabRun := false } } := by
  simp only [State.clkIdle, h, Bool.false_eq_true, if_true, if_false]

end Sys2Proof.Machine

open Sys2Proof.Machine in
/-- Settles O59: the pm port and its timeout, accesses that wait for their clock, the debug enable, and the idle timers. The order in which
CLOCK_ACK serves the queue is log entry 99, the mark of PD16 entry 100, what CLK_IDLE sends to RETENTION entry 27. -/
theorem powerAndClocks : Obligations.PowerAndClocks := by
  unfold Obligations.PowerAndClocks
  intro s acc a w dom d op cls inst v ns offered running serve acked t after late enabled berthless cacheless
  refine ⟨?ack, ?timeout, ?full, ?waits, ?engClk, ?fabClk, ?one, ?two, ?cap, ?announce, ?rise, ?risen, ?fall, ?underTest, ?ret, ?off, ?idleEng,
    ?needed, ?idleFab, ?ballast, ?bound⟩
  case ack => exact fun h => State.next_congr (State.pmAck_reached h rfl)
  case timeout => exact fun ha hl => State.next_congr (State.pmTimeout_late ha hl rfl)
  case full =>
    exact fun hf ha h => ⟨State.next_congr ((State.portWrite_stopped hf ha).trans (State.offerAccess_full h)),
      State.next_congr ((State.portRead_stopped hf ha).trans (State.offerAccess_full h))⟩
  case waits =>
    exact fun hf ha h => ⟨State.next_congr ((State.portWrite_stopped hf ha).trans (State.offerAccess_waits h)),
      State.next_congr ((State.portRead_stopped hf ha).trans (State.offerAccess_waits h))⟩
  case engClk => exact fun h => State.next_congr (if_pos h)
  case fabClk => exact fun h hw => State.next_congr ((State.clockAck_fab h).trans (State.servePort_none hw))
  case one => exact fun x h hw => State.next_congr ((State.clockAck_fab h).trans (State.servePort_one hw rfl))
  case two =>
    exact fun x y h hw => State.next_congr ((State.clockAck_fab h).trans
      (State.servePort_two (s := { s with pins := { s.pins with fabRun := true } }) hw rfl rfl))
  case cap => rfl
  case announce => rfl
  case rise => exact fun hd _ hc hreal => State.next_congr (State.dbgRise_invalidates hd hc hreal)
  case risen => exact fun hd => State.next_congr (if_pos hd)
  case fall => rfl
  case underTest =>
    exact fun rid r ht hd => ⟨fun h => State.next_congr (State.runOp_testRoot h ht hd _),
      fun h => State.next_congr (State.runOp_testRoot h ht hd _)⟩
  case ret => exact fun hu hc ho hr => State.next_congr (State.retExpire_rests hu hc ho hr)
  case off => exact fun hu hc hs hi hr hk ha => State.next_congr (State.offExpire_rests hu hc hs hi hr hk ha)
  case idleEng => exact fun h => State.next_congr (State.clkIdle_eng h)
  case needed => exact fun h => State.next_congr (State.clkIdle_engNeeded h)
  case idleFab => exact fun h => State.next_congr (State.clkIdle_fab h)
  case ballast => rfl
  case bound => rfl

end

section
/-!
PROOFS. The operations of PWR_UNIT_CTRL (R534), the drain limit, the calendar (R536) and the lifetime counters (R537, R539).
-/
namespace Sys2Proof.Machine

variable {s t u : State} {acc : Access} {d : W32} {c n m i : Nat} {x : UnitDrain}

/-! ### The operations of PWR_UNIT_CTRL -/

/-- A write with GO stores the register and then does the operation written. -/
theorem State.write_unitGo (hc : s.Carries acc (RegId.pwrUnitCtrl.target 0 0)) (hg : bitOf d 31 = true)
    (ht : (s.store { id := .pwrUnitCtrl } d).unitGo = t) :
    (Host.Outcome.next (s.wrapUp (s.write acc d .pwrUnitCtrl)) : Host.Outcome State Fault Refusal) = .next (s.wrapUp (t.respond .okay 0)) :=
  State.write_units hc (by decide) (by decide) ((if_pos hg).trans ht)

theorem State.unitGo_drain (hd : s.power.drain = none) (ho : s.regF .pwrUnitCtrl 29 28 = 0) :
    s.unitGo = s.unitDrain (s.regF .pwrUnitCtrl 27 24) (s.regF .pwrUnitCtrl 5 0) := by
  simp only [State.unitGo, hd, ho, Option.isSome_none, Bool.false_eq_true, if_false]

theorem State.unitGo_return (hd : s.power.drain = none) (ho : s.regF .pwrUnitCtrl 29 28 = 1) :
    s.unitGo = s.unitReturn (s.regF .pwrUnitCtrl 27 24) (s.regF .pwrUnitCtrl 5 0) := by
  simp only [State.unitGo, hd, ho, Option.isSome_none, Bool.false_eq_true, if_false]

theorem State.unitGo_remap (hd : s.power.drain = none) (ho : s.regF .pwrUnitCtrl 29 28 = 2) :
    s.unitGo = s.unitRemap (s.regF .pwrUnitCtrl 27 24) (s.regF .pwrUnitCtrl 5 0) (s.regF .pwrUnitCtrl 13 8) := by
  simp only [State.unitGo, hd, ho, Option.isSome_none, Bool.false_eq_true, if_false]

theorem State.unitDrain_starts (hn : unitNamed c n = true) (hm : s.unitMarked c n = false) (ho : s.unitOut c n = false) :
    s.unitDrain c n = { s.setB .pwrUnitCtrl 31 true with power := { s.power with drain := some { cls := c, inst := n } } } := by
  simp only [State.unitDrain, hn, hm, ho, Bool.not_true, Bool.or_self, Bool.false_eq_true, if_false]

theorem State.unitDrain_refused (h : unitNamed c n = false ∨ s.unitMarked c n = true ∨ s.unitOut c n = true) :
    s.unitDrain c n = s.unitRefused :=
  if_pos (by rcases h with h | h | h <;> simp [h])

/-- What a unit that returns holds before its mark goes: its memories are zero, and a bank shows no error. -/
def State.returned (s : State) (c n : Nat) : State :=
  if c = 7 then (s.drawn.returnZero c n).setB .bsnErr (24 + n) false else s.drawn.returnZero c n

/-- The answer of the self-test; only engines run it. -/
def State.returnGood (s : State) (c n : Nat) : Bool := decide (5 < c) || Config.holds .healthOk [toLe 8 s.free, toLe 2 c, toLe 2 n]

theorem State.unitReturn_serves (hn : unitNamed c n = true) (hm : s.unitMarked c n = true) (hg : s.returnGood c n = true)
    (ht : s.returned c n = t) :
    s.unitReturn c n = ({ t with outMarks := t.outMarks.filter (fun m => m ≠ (c, t.physical c n)) } : State).unitEnds 0 := by
  subst ht
  unfold State.returnGood at hg
  simp only [State.unitReturn, hn, hm, hg, Bool.not_true, Bool.or_self, Bool.false_eq_true, if_false]
  rfl

theorem State.unitReturn_fails (hn : unitNamed c n = true) (hm : s.unitMarked c n = true) (hg : s.returnGood c n = false) :
    s.unitReturn c n = (s.drawn.returnZero c n).unitEnds 3 := by
  unfold State.returnGood at hg
  simp only [State.unitReturn, hn, hm, hg, Bool.not_true, Bool.not_false, Bool.or_self, Bool.false_eq_true, if_false, if_true]

theorem State.unitReturn_refused (h : unitNamed c n = false ∨ s.unitMarked c n = false) : s.unitReturn c n = s.unitRefused :=
  if_pos (by rcases h with h | h <;> simp [h])

theorem State.unitRemap_exchanges (hn : unitNamed c n = true) (hm : unitNamed c m = true) (hmn : s.unitMarked c n = true)
    (hmm : s.unitMarked c m = true) :
    s.unitRemap c n m = ((s.setReg .pwrMap (s.reg .pwrMap c m) c n).setReg .pwrMap (s.reg .pwrMap c n) c m).unitEnds 0 := by
  simp only [State.unitRemap, hn, hm, hmn, hmm, Bool.not_true, Bool.or_self, Bool.false_eq_true, if_false]

/-! ### The drain limit -/

/-- The requests that keep a unit under drain end with ENGINE_FAULT. -/
def State.drainEnded (s : State) (x : UnitDrain) : State :=
  (s.drainUsers x.cls x.inst).foldl (fun s r => (s.abortEngine r).finishReq r.id
    { plainResult .engineFault r.unit r.inst with outLen := r.bas.acked }) s

/-- What is left on a DMA engine or an engine is lost with it. -/
def State.drainLost (s : State) (x : UnitDrain) : State :=
  if x.cls = 6 then s.dmaLost x.inst else if x.cls ≤ 5 then s.failUnit (engineUnit x.cls) x.inst else s

theorem State.drainExpire_some (hd : s.power.drain = some x) :
    s.drainExpire = (((s.drainEnded x).drainLost x).drainDone x.cls x.inst).setF .pwrUnitStatus 7 0 2 := by
  simp only [State.drainExpire, hd]
  rfl

theorem State.drainLost_plain (h : 7 ≤ x.cls) : s.drainLost x = s := by
  have h6 : x.cls ≠ 6 := by omega
  have h5 : ¬ x.cls ≤ 5 := by omega
  simp only [State.drainLost, h6, h5, if_false]

theorem State.drainLost_dma (h : x.cls = 6) : s.drainLost x = s.dmaLost x.inst := if_pos h

theorem State.drainLost_engine (h : x.cls ≤ 5) : s.drainLost x = s.failUnit (engineUnit x.cls) x.inst := by
  have h6 : x.cls ≠ 6 := by omega
  simp only [State.drainLost, h6, h, if_false, if_true]

/-- An engine's requests are ended with the engine; no other request keeps it. -/
theorem State.drainUsers_engine (h : c ≤ 5) : s.drainUsers c n = [] := by
  unfold State.drainUsers
  split
  · omega
  · omega
  · omega
  · rfl

theorem State.drainEnded_engine (h : x.cls ≤ 5) : s.drainEnded x = s := by
  simp only [State.drainEnded, State.drainUsers_engine h, List.foldl_nil]

/-! ### Seconds -/

/-- A second counts towards its hour, and the 3,600th makes one. -/
def State.lifeCounted (s : State) (i : Nat) : State :=
  { s with life := { s.life with
    secs := setKey 0 s.life.secs i (if getKey 0 s.life.secs i + 1 < 3600 then getKey 0 s.life.secs i + 1 else 0) } }

theorem State.lifeSecond_eq : s.lifeSecond i = if getKey 0 s.life.secs i + 1 < 3600 then s.lifeCounted i else (s.lifeCounted i).lifeAdd i 1 := by
  unfold State.lifeSecond State.lifeCounted
  by_cases h : getKey 0 s.life.secs i + 1 < 3600 <;> simp only [h, if_true, if_false]

theorem State.write_calSet (hc : s.Carries acc (RegId.lifCalCtrl.target 0 0)) (hb : bitOf d 0 = true) (hl : s.locked .lifCalCtrl = false) :
    (Host.Outcome.next (s.wrapUp (s.write acc d .lifCalCtrl)) : Host.Outcome State Fault Refusal) =
      .next (s.wrapUp (s.calSet.respond .okay 0)) :=
  State.write_units hc (by decide) (by decide) (if_pos (by rw [hb, hl]; rfl))

end Sys2Proof.Machine

open Sys2Proof.Machine in
/-- Settles O60: DRAIN, RETURN and REMAP with their refusals, the drain limit, SET of the calendar, and a second of the lifetime counters. That the
self-test's answer is free is log entry 19, the temperature band entry 65. -/
theorem unitsAndLifetime : Obligations.UnitsAndLifetime := by
  unfold Obligations.UnitsAndLifetime
  intro s acc d x ctrl u c n m go ends refused good zeroed served ended second on
  refine ⟨?drain, ?noDrain, ?serves, ?fails, ?noReturn, ?remap, ?limit, ?dma, ?engine, ?cal, ?commit⟩
  case drain =>
    exact fun ⟨hc, hg, hd, ho⟩ hn hm hout =>
      State.write_unitGo hc hg ((State.unitGo_drain hd ho).trans (State.unitDrain_starts hn hm hout))
  case noDrain => exact fun ⟨hc, hg, hd, ho⟩ h => State.write_unitGo hc hg ((State.unitGo_drain hd ho).trans (State.unitDrain_refused h))
  case serves =>
    exact fun ⟨hc, hg, hd, ho⟩ hn hm hgood =>
      State.write_unitGo hc hg ((State.unitGo_return hd ho).trans (State.unitReturn_serves hn hm hgood rfl))
  case fails =>
    exact fun ⟨hc, hg, hd, ho⟩ hn hm hgood => State.write_unitGo hc hg ((State.unitGo_return hd ho).trans (State.unitReturn_fails hn hm hgood))
  case noReturn => exact fun ⟨hc, hg, hd, ho⟩ h => State.write_unitGo hc hg ((State.unitGo_return hd ho).trans (State.unitReturn_refused h))
  case remap =>
    exact fun ⟨hc, hg, hd, ho⟩ hn hm hmn hmm =>
      State.write_unitGo hc hg ((State.unitGo_remap hd ho).trans (State.unitRemap_exchanges hn hm hmn hmm))
  case limit =>
    intro hd h7 _
    have hlost : (s.drainEnded x).drainLost x = s.drainEnded x := State.drainLost_plain h7
    exact State.next_congr ((State.drainExpire_some hd).trans (by rw [hlost]; rfl))
  case dma =>
    intro hd h6
    have hlost : (s.drainEnded x).drainLost x = (s.drainEnded x).dmaLost x.inst := State.drainLost_dma h6
    exact State.next_congr ((State.drainExpire_some hd).trans (by rw [hlost, h6]; rfl))
  case engine =>
    intro hd h5
    have hlost : (s.drainEnded x).drainLost x = s.failUnit (engineUnit x.cls) x.inst := by
      rw [State.drainEnded_engine h5, State.drainLost_engine h5]
    exact State.next_congr ((State.drainExpire_some hd).trans (by rw [hlost]))
  case cal => exact State.write_calSet
  case commit =>
    have hsecond : second = fun i s => s.lifeSecond i := funext fun i => funext fun s => State.lifeSecond_eq.symm
    rw [hsecond]
    rfl

end

section
/-!
PROOFS. A key generation for a stateful signature (R301) in a state with two requests under one number.
-/
namespace Sys2Proof.Machine

/-! ### Lengths of a generated key's output -/

theorem xorBytes_length_le (a b : Bytes) : (xorBytes a b).length ≤ a.length := by
  induction a generalizing b with
  | nil => exact Nat.zero_le _
  | cons x xs ih =>
    cases b with
    | nil => exact Nat.zero_le _
    | cons y ys => exact Nat.succ_le_succ (ih ys)

theorem slice_length_le (b : Bytes) (pos n : Nat) : (slice b pos n).length ≤ n := List.length_take_le _ _

theorem hbsNonce_length (index : Nat) : (hbsNonce index).length = 12 := by
  simp only [hbsNonce, List.length_append, List.length_reverse, toLe_length, zeros, List.length_replicate]

theorem State.hbsBlob_length_le (s : State) (r : Req) (kind : Nat) (keyId : Bytes) (index : Nat) (body : Bytes) :
    (s.hbsBlob r kind keyId index body).length ≤ 48 + keyId.length + body.length := by
  have hbody := xorBytes_length_le body (kmac256 ((s.hbsBlobKeys r keyId).take 32) (hbsNonce index) (8 * body.length) "P3 HBS ENC")
  simp only [State.hbsBlob, List.length_append, toLe_length, hbsNonce_length, zeros, List.length_replicate]
  rw [show ∀ k m c, (kmac256 k m 128 c).length = 16 from fun _ _ _ => fit_length _ _]
  omega

/-- The body of a blob has at most 32,704 bytes (R293). -/
theorem hbsState_length (alg : Byte) (key params : Bytes) (index : Nat) (h : params.length ≤ 32704) :
    (hbsState alg key params index).length ≤ 32704 := by
  simp only [hbsState, List.length_append, fit_length]
  omega

/-! ### Two key generations under one number -/

/-- An HSS key generation of one LMS level under number 5, for slot 10, on core `n`. -/
def lmsKeygen (n : Nat) : Req :=
  { id := 5, ptn := 1, ring := 0, index := 0, phase := .running, inst := n, draws := zeros 64
    desc := { opcode := BitVec.ofNat 8 Op.hssKeygen.code, alg := 0x21, auxLen := 12, dstLen := 0x10000, resultH := 0x1000000A }
    bas := { input := [0, 0, 0, 1, 0, 0, 0, 5, 0, 0, 0, 4] ++ zeros 4 } }

/-- The block after reset with such a request on core 0 and another, under the same number, on core 1. -/
def twoKeygens : State :=
  { State.reset with
    reqs := [lmsKeygen 0, lmsKeygen 1], keys := [(10, { state := .reserved, owner := 1, usage := usSign, kind := 2, len := 48 })] }

/-! The key made: its secret and public key, KEY_ID and output, and the state once its record stands. -/

def keygenPriv : Bytes := twoKeygens.hbsPrivate (lmsKeygen 0)
def keygenPub : Bytes := hbsPublicKey 0x21 keygenPriv (lmsKeygen 0).aux
def keygenId : Bytes := hbsKeyId keygenPub
def keygenLimit : Nat := hbsLimit 0x21 (lmsKeygen 0).aux
def keygenOut : Bytes := keygenPub ++
  (twoKeygens.drawn.hashCalls (lmsKeygen 0)).hbsBlob (lmsKeygen 0) 1 keygenId 0 (hbsState 0x21 keygenPriv (lmsKeygen 0).aux 0)
def keygenRecord : State :=
  (twoKeygens.drawn.hashCalls (lmsKeygen 0)).putRec 0
    { state := 1, keyId := keygenId, owner := 1, kind := 1, limit := keygenLimit, pending := true, alg := 0x21, params := (lmsKeygen 0).aux }
def keygenKey : State :=
  keygenRecord.putKey 10 { keygenRecord.key 10 with state := .valid, len := keygenPriv.length, recNo := 0 } keygenPriv
    ((keygenRecord.key 10).pair == 1)

/-- The end of the key generation, with INST of each result as `inst` gives it. -/
def keygenEnds (inst : Req → Nat) : State :=
  (keygenKey.updReq 5 (fun r => { r with result := some {
    status := .ok, out := keygenOut, outLen := keygenOut.length, resultH := slotHandle 10, unit := r.unit, inst := inst r } })).appendLog
    (.keygen keygenId 5) 1 keygenId (min twoKeygens.hbsWindow keygenLimit)

theorem lmsKeygen_runs : twoKeygens.Runs 5 (lmsKeygen 0) .hssKeygen := by decide +kernel

theorem keygenPub_length_le : keygenPub.length ≤ 56 := by
  have hparams := slice_length_le (lmsKeygen 0).aux 4 8
  have hkey := slice_length_le keygenPriv 32 16
  have hpub : keygenPub = [] ++ slice (lmsKeygen 0).aux 4 8 ++ slice keygenPriv 32 16 ++ hbsRoot 0x21 (lmsKeygen 0).aux keygenPriv := rfl
  have hroot : (hbsRoot 0x21 (lmsKeygen 0).aux keygenPriv).length = 32 := fit_length _ _
  simp only [hpub, List.nil_append, List.length_append, hroot]
  omega

/-- The output fits the destination, whatever the standards' functions give. -/
theorem keygenOut_length_le : keygenOut.length ≤ 0x10000 := by
  have hpub := keygenPub_length_le
  have hid : keygenId.length ≤ 16 := List.length_take_le _ _
  have hbody : (hbsState 0x21 keygenPriv (lmsKeygen 0).aux 0).length ≤ 32704 := hbsState_length _ _ _ _ (by decide)
  have hblob := (twoKeygens.drawn.hashCalls (lmsKeygen 0)).hbsBlob_length_le (lmsKeygen 0) 1 keygenId 0
    (hbsState 0x21 keygenPriv (lmsKeygen 0).aux 0)
  simp only [keygenOut, List.length_append]
  omega

/-- The model's key generation gives the results of both requests INST of the first. -/
theorem hbsKeygen_twoKeygens : twoKeygens.hbsKeygen 5 .hssKeygen = keygenEnds (fun _ => 0) := by
  have hf : hbsKeygenFault (lmsKeygen 0).desc (lmsKeygen 0).aux = none := by decide +kernel
  have htarget : twoKeygens.resultFault (lmsKeygen 0) 2 [usSign] (hbsKeyLen (lmsKeygen 0).desc.algN (lmsKeygen 0).aux) = none := by decide +kernel
  have hrec : twoKeygens.recFor = some 0 := by decide +kernel
  have hcarried : ¬ twoKeygens.keep.carried = 2048 := by decide +kernel
  have hfit : ¬ (lmsKeygen 0).desc.dstLen.toNat < keygenOut.length := Nat.not_lt.mpr keygenOut_length_le
  have hsound : keygenRecord.poisoned (lmsKeygen 0) = false := by decide +kernel
  have hsound' : keygenKey.poisoned (lmsKeygen 0) = false := by decide +kernel
  have hslot : keygenRecord.resolve (lmsKeygen 0) (lmsKeygen 0).desc.resultH = some 0x1000000A := by decide +kernel
  have hwindow : keygenKey.hbsWindow = twoKeygens.hbsWindow := by decide +kernel
  have hpriv : twoKeygens.hbsPrivate (lmsKeygen 0) = keygenPriv := rfl
  have hpub : hbsPublicKey (lmsKeygen 0).desc.alg keygenPriv (lmsKeygen 0).aux = keygenPub := rfl
  have hid : hbsKeyId keygenPub = keygenId := rfl
  have hout : keygenPub ++ (twoKeygens.drawn.hashCalls (lmsKeygen 0)).hbsBlob (lmsKeygen 0) (hbsKind (lmsKeygen 0).desc.algN) keygenId 0
      (hbsState (lmsKeygen 0).desc.alg keygenPriv (lmsKeygen 0).aux 0) = keygenOut := rfl
  have hrecord : (twoKeygens.drawn.hashCalls (lmsKeygen 0)).putRec 0
      { state := 1, keyId := keygenId, owner := (lmsKeygen 0).ptn, kind := hbsKind (lmsKeygen 0).desc.algN,
        limit := hbsLimit (lmsKeygen 0).desc.alg (lmsKeygen 0).aux, pending := true, alg := (lmsKeygen 0).desc.alg,
        params := (lmsKeygen 0).aux } = keygenRecord := rfl
  have hkey : keygenRecord.putKey (handleIndex 0x1000000A)
      { keygenRecord.key (handleIndex 0x1000000A) with state := .valid, len := keygenPriv.length, recNo := 0 } keygenPriv
      ((keygenRecord.key (handleIndex 0x1000000A)).pair == 1) = keygenKey := rfl
  have hfirst : (lmsKeygen 0).result.isSome = false := rfl
  simp only [State.hbsKeygen, State.runOp_runs lmsKeygen_runs, hfirst, hf, htarget, hrec, hcarried, hpriv, hpub, hid, hout, hfit, hrecord, hsound,
    hslot, Option.getD_some, hkey, hsound', hwindow, Bool.false_eq_true, if_false]
  rfl

/-- INST of the results after a command. -/
def resultInsts : Host.Outcome State Fault Refusal → List (Option Nat)
  | .next t => t.reqs.map (fun r => r.result.map (·.inst))
  | _ => []

theorem resultInsts_model : resultInsts (.next (twoKeygens.wrapUp (keygenEnds (fun _ => 0)))) = [some 0, some 0] := by decide +kernel

theorem resultInsts_stated : resultInsts (.next (twoKeygens.wrapUp (keygenEnds (fun r => r.inst)))) = [some 0, some 1] := by decide +kernel

end Sys2Proof.Machine

open Sys2Proof.Machine in
/-- Refutes O39 by its clause on key generation, which takes UNIT and INST of the result from each request of the number anew: with two
requests under one number (which no reset leads to, and which the statement does not exclude) the model gives both results the first one's
INST, the statement gives the second its own. -/
theorem not_statefulSignatures : ¬ Obligations.StatefulSignatures := by
  unfold Obligations.StatefulSignatures
  intro h
  obtain ⟨-, keygen, -⟩ := h
  have hstated : exec (.hssKeygen 5) twoKeygens = .next (twoKeygens.wrapUp (keygenEnds (fun r => r.inst))) :=
    keygen twoKeygens 5 0 (lmsKeygen 0) 0x1000000A (.hssKeygen, .hssKeygen) (List.mem_cons_self ..) lmsKeygen_runs rfl rfl (by decide +kernel)
      (by decide +kernel) (by decide +kernel) (by decide +kernel) keygenOut_length_le (by decide +kernel)
  have hmodel : exec (.hssKeygen 5) twoKeygens = .next (twoKeygens.wrapUp (keygenEnds (fun _ => 0))) :=
    State.next_congr hbsKeygen_twoKeygens
  have hinsts := congrArg resultInsts (hmodel.symm.trans hstated)
  rw [resultInsts_model, resultInsts_stated] at hinsts
  exact absurd hinsts (by decide)

end
